-- ==== Sys2Proof/Word.lean ====
section
/-! DEFINITION. The words of the KF-412: bytes on its buses, characters on the firing line, 32-bit counts that wrap, and station times in milliseconds. -/

namespace Sys2Proof

/-- One byte on the firing line, the field port or the host port. -/
abbrev Byte := BitVec 8

/-- One character on the firing line (R1): bit 0 is the first on the line, and a bit is 1 where the line is marking. Bit 0 is
the start bit, bits 1 to 8 are the data, bit 9 is the parity bit and bit 10 the stop bit. -/
abbrev Character := BitVec 11

/-- A count modulo 2^32 (R22, R106, R163, R179). -/
abbrev Count := BitVec 32

/-- A station time: milliseconds since pin reset, below `Config.timeWrap` (00_scope 1.8, "Time"). -/
abbrev Time := Nat

end Sys2Proof
end

