-- ==== Sys2Proof/Config.lean ====
section
/-! DEFINITION. What the KF-412 fixes for every station, and the two free values of the model. -/

namespace Sys2Proof.Config

/-- Station time wraps after 429 496 729.6 s, that is 2^32 tenths of a second (00_scope 1.8, R192). -/
abbrev timeWrap : Nat := 429496729600

/-- The transmit queue holds at most 8 frames (R7). -/
abbrev queueSize : Nat := 8

/-- The event queue holds at most 32 entries (R157). -/
abbrev eventSize : Nat := 32

/-- The command buffer holds 64 bytes (R184). -/
abbrev bufferSize : Nat := 64

/-- The store of closed shift records holds 8 (R171). -/
abbrev storeSize : Nat := 8

/-- A record's trip list holds 8 entries (R146). -/
abbrev tripListSize : Nat := 8

/-- The field scan runs every 50 ms (R175). -/
abbrev scanPeriod : Nat := 50

/-- The feeder control period is 200 ms (R107). -/
abbrev feederPeriod : Nat := 200

/-- One second: bucket closes, cooling periods and mix ramp steps fall on its multiples (R103, R130, R116). -/
abbrev second : Nat := 1000

/-- The inactivity time of the engineering window, 900 s (R190). -/
abbrev engineeringTime : Nat := 900000

/-- The light-wait limit, 600 s (R77). -/
abbrev lightWaitTime : Nat := 600000

/-- The air hold (R61) and the flow hold (R131), 30 s. -/
abbrev holdTime : Nat := 30000

/-- DESIGN CHOICE (log 4). The manual lets either of two events that fall together be taken first. For rows that
station time itself brings due at one instant, this free value ranks them: it has no body, so a claim holds for
every order. -/
opaque tieKey : Time → Nat → Nat

/-- Whether the cabinet's engineering key is found turned at an instant (R190). No row of the table says when the key is
turned, so the instant is open: this free value has no body, and a claim holds for every use of the key (log 28). -/
opaque engTurned : Time → Bool

end Sys2Proof.Config
end

