-- ==== Sys2Proof/Syntax.lean ====
section
/-! DEFINITION. The rows of spec/opcode_table.json: one constructor of `Instr` for each, with the row's operands.

Operands of host commands are the items of R201 as unsigned numbers, high byte first; rows of one object of the part
(a burner's timer, a resource's deadline) carry that object's number in its range. -/

namespace Sys2Proof

/-- What cuts a partial frame short in R14: a character with a parity or framing error, as its 11 bits were received, or a
break. -/
inductive Disturbance where
  | badCharacter (c : Character)
  | lineBreak
  deriving DecidableEq, Repr

/-- What the receiver takes back from the line for one character of an attempt (R10): the 11 bits it received, and the bit
time in which their stop bit fell, counted from 0 at the first start bit of the attempt; or no character at all. -/
inductive ReadBack where
  | heard (c : Character) (stopAt : Nat)
  | nothing
  deriving DecidableEq, Repr

/-- One row of the table of operations and events. The two rows that end an attempt carry what is read back of its characters,
from the first; FIELD_SCAN_COMPLETE carries the 312 bits of FDI, as they arrive. -/
inductive Instr where
  -- pins and host port accesses
  | pinReset (straps rate : Nat) (eng : Bool)
  | commandByteWrite (b : Byte)
  | submit
  | responseByteRead
  | interruptEnablesWrite (b : Byte)
  | eventWindowRead
  | eventWindowWrite (b : Byte)
  -- station
  | configureStation (zone airCeiling fallback heatUp period mixTime : Nat)
  | startStation
  | restartStation
  | readStation
  | openEngineering (eng : Bool)
  | closeEngineering
  | engineeringDeadline
  | engNegated
  -- line, peers, resources, allocation
  | readLineStatus
  | readPeerChanges
  | readPeerEntry (station : Nat)
  | readResources
  | offerDemand (heat : Nat)
  | withdrawDemand
  | readAllocation
  -- burners
  | setMode (mode : Nat)
  | configureBurner (burner used feeder rate ignition proving loading flameFail threshold held autoResume : Nat)
  | startBurner (burner : Nat)
  | stopBurner (burner : Nat)
  | resumeBurner (burner : Nat)
  | resetTripPoint (point : Nat)
  | resetTripBurner (burner : Nat)
  | readBurner (burner : Nat)
  -- fuel and feeders
  | configureFuel (index cv : Nat)
  | writeFuel (index cv : Nat)
  | readFuelTable
  | configureFeeder (feeder used burner fuel minRate maxRate ramp window gain deviation mix weight : Nat)
  | setMix (burner m0 m1 m2 m3 m4 m5 : Nat)
  | writePulseWeight (feeder weight : Nat)
  | readFeeder (feeder : Nat)
  -- cooler
  | configureFan (fan used destination base apf minFlow maxFlow airFactor gain startTime : Nat)
  | startFan (fan : Nat)
  | stopFan (fan : Nat)
  | resetFan (fan : Nat)
  | configureGrate (used minSpeed maxSpeed gain low high initial highLimit : Nat)
  | startGrate
  | stopGrate
  | setBedPressure (pressure : Nat)
  | readCooler
  -- alarms
  | acknowledge (point : Nat)
  | acknowledgeAll
  | resetAlarm (point : Nat)
  | shelve (point minutes : Nat)
  | unshelve (point : Nat)
  | shelvingExpiry (point : Fin 62)
  | configureExternalPoint (n used cls latching binding lineWide mask source : Nat)
  | raiseExternal (n : Nat)
  | clearExternal (n : Nat)
  | discardPeerTrip (station : Nat)
  | readFirstOut
  | resetFirstOut
  | readSummary
  | clearSummary
  | silenceHorn
  | readPoint (point : Nat)
  | readPointStates
  -- shift records and field read-out
  | closeShift (number : Nat)
  | readShiftRecord (index sect : Nat)
  | writeShiftNote (note : Nat)
  | readField
  -- the firing line
  | accessGapReached (idle : Nat)
  | frameSentWhole (back : List ReadBack)
  | readBackMismatch (back : List ReadBack)
  | breakEnded
  | statusPeriodExpiry
  | frameReceived (chars : List Byte)
  | badHeaderDiscard (chars : List Byte)
  | partialFrameDiscard (cause : Disturbance) (chars : List Byte)
  | interCharacterGap (chars : List Byte)
  | duplicateDeadlineExpiry
  | lineStuckSet
  | lineStuckCleared
  | peerAgingExpiry (peer : Fin 16)
  -- timers of the resources and the allocation
  | staggerEnd (k : Fin 3)
  | settleDeadline (k : Fin 3)
  | claimantExpiry (k : Fin 3)
  | reclaimDelayEnd (k : Fin 3)
  | airHoldExpiry
  -- feeders
  | feederControlPeriod
  | mixRampStep (b : Fin 2)
  | deviationTime (f : Fin 6)
  | noFlowTime (f : Fin 6)
  -- burners
  | lightWaitExpiry (b : Fin 2)
  | flameProven (b : Fin 2)
  | ignitionDeadline (b : Fin 2)
  | loadingDeadline (b : Fin 2)
  | flameFailTime (b : Fin 2)
  | flameWeakTime (b : Fin 2)
  | heldDeadline (b : Fin 2)
  -- field scan
  | fieldScanStart
  | fieldScanComplete (fdi : List Bool)
  -- cooler
  | fanStartDeadline (n : Fin 4)
  | fanFeedbackLoss (n : Fin 4)
  | heldFlowExpiry (n : Fin 4)
  | coolingPeriod
  | grateFeedbackLoss
  | bedPressureHighTime
  deriving DecidableEq, Repr

end Sys2Proof
end

