-- ==== Sys2Proof/Machine/State.lean ====
section
/-! DEFINITION. The state of the KF-412 as plain data, block by block, and its values after a pin reset.

Each field's rule stands in its comment; INVENTORY.md lists them all with widths and reset values. -/

namespace Sys2Proof.Machine

/-! ## Named codes (12.2) -/

inductive Zone where
  | none | kiln | calciner
  deriving DecidableEq, Repr

inductive PlantMode where
  | stop | heatUp | run | coolDown
  deriving DecidableEq, Repr

inductive AlarmClass where
  | trip | alarm | warning | notice
  deriving DecidableEq, Repr

inductive PointState where
  | normal | active | activeAcked | cleared | clearedAcked
  deriving DecidableEq, Repr

inductive BurnerState where
  | off | lightWait | igniting | loading | firing | stopping | held | tripped
  deriving DecidableEq, Repr

/-- R100; `inLocal` is the manual's LOCAL. -/
inductive FeederState where
  | unused | stopped | running | inLocal
  deriving DecidableEq, Repr

inductive FanState where
  | unused | stopped | startWait | starting | running | tripped
  deriving DecidableEq, Repr

inductive GrateState where
  | unused | stopped | running
  deriving DecidableEq, Repr

inductive PeerState where
  | absent | live | lost
  deriving DecidableEq, Repr

inductive ClaimState where
  | idle | waiting | claiming | held
  deriving DecidableEq, Repr

inductive Destination where
  | secondary | tertiary | exhaust
  deriving DecidableEq, Repr

inductive Binding where
  | none | station | burner (b : Fin 2)
  deriving DecidableEq, Repr

inductive ExtSource where
  | field | host
  deriving DecidableEq, Repr

inductive CeilingState where
  | disabled | air | hold | fallback
  deriving DecidableEq, Repr

inductive ScanState where
  | good | holding | failed
  deriving DecidableEq, Repr

/-- A condition timer: when it began, and whether its time has passed (its condition is then active). -/
structure Timer where
  start : Time
  passed : Bool
  deriving DecidableEq, Repr

/-! ## Station configuration (R193) -/

structure StationCfg where
  zone : Zone
  airCeiling : Bool
  fallback : Nat
  heatUpLimit : Nat
  /-- status period in ms -/
  period : Nat
  /-- mix ramp time in s -/
  mixTime : Nat
  deriving DecidableEq, Repr

def StationCfg.reset : StationCfg :=
  { zone := .none, airCeiling := false, fallback := 0, heatUpLimit := 65535, period := 1000, mixTime := 300 }

/-! ## Line Controller (chapter 1) -/

/-- What a queued frame will say (R4); a STATUS has no contents of its own (R6). -/
inductive FrameBody where
  | status
  | claim (k : Fin 3) (user : Nat)
  | release (k : Fin 3)
  | trip (point : Fin 62) (seq : Byte)
  | shift (number : Nat)
  deriving DecidableEq, Repr

/-- A frame of the transmit queue: body, attempt count, the SEQUENCE it took (R5), and the model's own number. -/
structure TxFrame where
  body : FrameBody
  attempts : Nat
  seq : Option Byte
  tag : Nat
  deriving DecidableEq, Repr

/-- What the transmitter does (R10, R11); the break that ends a failed attempt still belongs to the attempt in hand. -/
inductive TxPhase where
  | idle | sending | breaking
  deriving DecidableEq, Repr

/-- The six counts of R22. -/
structure LineCounts where
  sent : Count
  accepted : Count
  bad : Count
  retries : Count
  failures : Count
  duplicates : Count
  deriving DecidableEq, Repr

def LineCounts.reset : LineCounts :=
  { sent := 0, accepted := 0, bad := 0, retries := 0, failures := 0, duplicates := 0 }

/-- What the receiver does with the next character (R13, R14, R23). `ready`: the line has idled for more than 2 character
times, or a frame is being assembled; `behind`: a whole frame has ended and the line has not idled since; `waiting`: it has
not idled since a pin reset or an own attempt, so that no frame begins, but a character with an error still counts; `deaf`:
no character is taken in until it has idled. -/
inductive Receiver where
  | ready | behind | waiting | deaf
  deriving DecidableEq, Repr

structure Line where
  /-- R7, head first -/
  queue : List TxFrame
  /-- whether an attempt or a break is in hand (R10, R11) -/
  phase : TxPhase
  /-- the attempt in hand gets no retry (R19, R24 step 1) -/
  lastTry : Bool
  /-- the characters of the attempt last begun, as far as they are sent: a mismatch cuts them off (R11) -/
  wire : List Byte
  /-- R5 -/
  sequence : Byte
  /-- the model's number for the next queued frame -/
  nextTag : Nat
  /-- R13 -/
  assembly : List Byte
  /-- R13, R14 -/
  receiver : Receiver
  counts : LineCounts
  /-- R18; the duplicate condition is active while present -/
  dupDeadline : Option Time
  /-- R12 -/
  txFail : Bool
  /-- R17 -/
  stuck : Bool
  /-- R19 -/
  silent : Bool
  /-- R20, the next expiry of the status period timer -/
  statusDue : Option Time
  /-- R35: when the last own frame was sent whole, and its SEQUENCE -/
  lastSent : Option (Time × Byte)
  deriving DecidableEq, Repr

def Line.reset : Line :=
  { queue := [], phase := .idle, lastTry := false, wire := [], sequence := 0, nextTag := 0, assembly := [],
    receiver := .waiting, counts := .reset, dupDeadline := none, txFail := false, stuck := false, silent := false,
    statusDue := none, lastSent := none }

/-! ## Peer Table (chapter 2) -/

/-- The change flags of R29. -/
structure ChangeFlags where
  joined : Bool
  lost : Bool
  mode : Bool
  trip : Bool
  demand : Bool
  deriving DecidableEq, Repr

def ChangeFlags.clear : ChangeFlags :=
  { joined := false, lost := false, mode := false, trip := false, demand := false }

/-- A peer entry (R25). -/
structure Peer where
  state : PeerState
  /-- the 25 payload bytes of the STATUS last taken -/
  contents : Option (List Byte)
  stale : Bool
  lastTime : Option Time
  lastSeq : Option Byte
  lost : Nat
  flags : ChangeFlags
  deriving DecidableEq, Repr

def Peer.reset : Peer :=
  { state := .absent, contents := none, stale := false, lastTime := none, lastSeq := none, lost := 0, flags := .clear }

/-! ## Claim Unit (chapter 3) -/

/-- The claimant part of a line view (R40). -/
structure Claimant where
  peer : Fin 16
  expiry : Time
  purpose : Option Nat
  deriving DecidableEq, Repr

/-- One line resource: claim record, wait list, line view, re-claim delay and conflict mark (R37 to R48). -/
structure Resource where
  state : ClaimState
  user : Option Nat
  settle : Option Time
  note : Option Nat
  stagger : Option Time
  reclaim : Option Time
  waitList : List Nat
  claimant : Option Claimant
  /-- release notes by peer (R39) -/
  released : Vector Bool 16
  conflict : Option (Fin 16)
  deriving DecidableEq, Repr

def Resource.reset : Resource :=
  { state := .idle, user := none, settle := none, note := none, stagger := none, reclaim := none, waitList := [],
    claimant := none, released := .replicate 16 false, conflict := none }

/-! ## Allocation Unit (chapter 4) -/

/-- What R54 says the Allocation Unit holds. -/
structure Alloc where
  offered : Bool
  offer : Nat
  demand : Nat
  demandHeld : Bool
  ceilState : CeilingState
  airSum : Nat
  lastAir : Nat
  holdDeadline : Option Time
  ceiling : Option Nat
  dEff : Nat
  airLimited : Bool
  shortfall : Bool
  maxHeat : Vector Nat 6
  capB : Vector Nat 2
  frozen : Vector (Option Nat) 2
  capacity : Nat
  total : Nat
  sumS : Nat
  pPrev : Nat
  pOwn : Nat
  target : Nat
  targetB : Vector Nat 2
  heatF : Vector Nat 6
  massF : Vector Nat 6
  delivered : Nat
  deliveredB : Vector Nat 2
  deriving DecidableEq, Repr

/-- R73, the same after pin reset and after RESTART STATION. -/
def Alloc.reset : Alloc :=
  { offered := false, offer := 0, demand := 0, demandHeld := false, ceilState := .disabled, airSum := 0, lastAir := 0,
    holdDeadline := none, ceiling := none, dEff := 0, airLimited := false, shortfall := false,
    maxHeat := .replicate 6 0, capB := .replicate 2 0, frozen := .replicate 2 none, capacity := 0, total := 0,
    sumS := 0, pPrev := 0, pOwn := 0, target := 0, targetB := .replicate 2 0, heatF := .replicate 6 0,
    massF := .replicate 6 0, delivered := 0, deliveredB := .replicate 2 0 }

/-! ## Burner Sequencer (chapter 5) -/

/-- R76; times in seconds. -/
structure BurnerCfg where
  used : Bool
  feeder : Fin 6
  rate : Nat
  ignition : Nat
  proving : Nat
  loading : Nat
  flameFail : Nat
  threshold : Nat
  held : Nat
  autoResume : Bool
  deriving DecidableEq, Repr

def BurnerCfg.reset : BurnerCfg :=
  { used := false, feeder := 0, rate := 0, ignition := 15, proving := 3, loading := 120, flameFail := 2,
    threshold := 60, held := 300, autoResume := false }

/-- R77. The held record is its held step; the step is complete exactly when it is FIRING (R90). -/
structure Burner where
  cfg : BurnerCfg
  state : BurnerState
  cont : Option BurnerState
  lightWait : Option Time
  ignition : Option Time
  proving : Option Time
  loading : Option Time
  absent : Option Time
  weak : Option Timer
  heldStep : Option BurnerState
  causePermit : Bool
  causeConflict : Bool
  heldUntil : Option Time
  /-- condition of LIGHT-OFF FAIL (R82) -/
  lightOffFail : Bool
  /-- condition of FLAME FAIL (R84) -/
  flameFail : Bool
  /-- flame presence as decided at the last scan (R79), and since when it has been so -/
  flame : Bool
  flameSince : Time
  deriving DecidableEq, Repr

def Burner.reset : Burner :=
  { cfg := .reset, state := .off, cont := none, lightWait := none, ignition := none, proving := none,
    loading := none, absent := none, weak := none, heldStep := none, causePermit := false, causeConflict := false,
    heldUntil := none, lightOffFail := false, flameFail := false, flame := false, flameSince := 0 }

/-! ## Feeder Controller (chapter 6) -/

/-- R99. -/
structure FeederCfg where
  used : Bool
  burner : Fin 2
  fuel : Fin 8
  minRate : Nat
  maxRate : Nat
  ramp : Nat
  window : Nat
  gain : Nat
  deviation : Nat
  mix : Nat
  weight : Nat
  deriving DecidableEq, Repr

def FeederCfg.reset : FeederCfg :=
  { used := false, burner := 0, fuel := 0, minRate := 0, maxRate := 1, ramp := 100, window := 4, gain := 0,
    deviation := 1000, mix := 0, weight := 1 }

structure Feeder where
  cfg : FeederCfg
  mix : Nat
  state : FeederState
  setpoint : Nat
  rampRem : Nat
  trim : Int
  baseline : Option Nat
  bucket : Nat
  /-- every scan since a second boundary that fell after START has been valid (R103) -/
  whole : Bool
  ring : List Nat
  rate : Nat
  measBad : Bool
  gramRem : Nat
  energyRem : Nat
  kg : Count
  kWh : Count
  seconds : Count
  devTimer : Option Timer
  noFlow : Option Timer
  deriving DecidableEq, Repr

def Feeder.reset : Feeder :=
  { cfg := .reset, mix := 0, state := .unused, setpoint := 0, rampRem := 0, trim := 0, baseline := none, bucket := 0,
    whole := false, ring := [], rate := 0, measBad := false, gramRem := 0, energyRem := 0, kg := 0, kWh := 0,
    seconds := 0, devTimer := none, noFlow := none }

/-- A mix-ramp record (R115). Fractions of feeders of another burner are kept as 0. -/
structure MixRamp where
  ramping : Bool
  old : Vector Nat 6
  target : Vector Nat 6
  time : Nat
  elapsed : Nat
  /-- the second boundary of the next step, while RAMPING (R116) -/
  nextStep : Time
  deriving DecidableEq, Repr

/-! ## Cooler Controller (chapter 7) -/

/-- R122; start time in seconds. -/
structure FanCfg where
  used : Bool
  destination : Destination
  base : Nat
  apf : Nat
  minFlow : Nat
  maxFlow : Nat
  airFactor : Nat
  gain : Nat
  startTime : Nat
  deriving DecidableEq, Repr

def FanCfg.reset : FanCfg :=
  { used := false, destination := .secondary, base := 0, apf := 0, minFlow := 0, maxFlow := 65535, airFactor := 0,
    gain := 0, startTime := 30 }

structure Fan where
  cfg : FanCfg
  state : FanState
  sp : Nat
  lastGood : Option Nat
  heldFlow : Option Nat
  holdUntil : Option Time
  /-- the hold deadline of this spell of BAD flow has passed (R131, log 27) -/
  holdSpent : Bool
  startUntil : Option Time
  fbLoss : Option Time
  /-- condition of FAN TRIP (R126) -/
  tripCond : Bool
  /-- condition of FAN START FAIL (R125) -/
  startFail : Bool
  contribution : Nat
  deriving DecidableEq, Repr

def Fan.reset : Fan :=
  { cfg := .reset, state := .unused, sp := 0, lastGood := none, heldFlow := none, holdUntil := none,
    holdSpent := false, startUntil := none, fbLoss := none, tripCond := false, startFail := false, contribution := 0 }

/-- R132. -/
structure GrateCfg where
  used : Bool
  minSpeed : Nat
  maxSpeed : Nat
  gain : Nat
  low : Nat
  high : Nat
  initial : Nat
  highLimit : Nat
  deriving DecidableEq, Repr

def GrateCfg.reset : GrateCfg :=
  { used := false, minSpeed := 0, maxSpeed := 1000, gain := 0, low := 0, high := 20000, initial := 5000,
    highLimit := 20000 }

structure Grate where
  cfg : GrateCfg
  state : GrateState
  psp : Nat
  fbLoss : Option Time
  bedHigh : Option Timer
  /-- condition of GRATE DRIVE FAULT (R133) -/
  fault : Bool
  deriving DecidableEq, Repr

def Grate.reset : Grate :=
  { cfg := .reset, state := .unused, psp := 5000, fbLoss := none, bedHigh := none, fault := false }

/-- The allowances and running fan counts of the last cooling period (R131). -/
structure Air where
  secondary : Nat
  tertiary : Nat
  fansSec : Nat
  fansTer : Nat
  deriving DecidableEq, Repr

def Air.reset : Air := { secondary := 0, tertiary := 0, fansSec := 0, fansTer := 0 }

/-! ## Alarm Unit (chapter 8) -/

/-- The origin of an activation (R139): the peer station number, its point and trip sequence where known. -/
structure Origin where
  station : Nat
  point : Option Nat
  seq : Option Byte
  deriving DecidableEq, Repr

/-- The changing part of a point record (R139). -/
structure Point where
  state : PointState
  /-- the effective condition as last found (R141) -/
  eff : Bool
  shelvedUntil : Option Time
  lastActivation : Option Time
  origin : Option Origin
  deriving DecidableEq, Repr

def Point.reset : Point :=
  { state := .normal, eff := false, shelvedUntil := none, lastActivation := none, origin := none }

/-- The fixed part of a point record: the table of R140, or the configuration of R149. -/
structure PointAttr where
  cls : AlarmClass
  latching : Bool
  binding : Binding
  lineWide : Bool
  /-- bit 0 STOP, bit 1 HEAT-UP, bit 2 RUN, bit 3 COOL-DOWN -/
  mask : BitVec 4
  deriving DecidableEq, Repr

/-- An external point's configuration and condition (R149, R150). -/
structure Ext where
  used : Bool
  attr : PointAttr
  source : ExtSource
  cond : Bool
  deriving DecidableEq, Repr

def Ext.reset : Ext :=
  { used := false,
    attr := { cls := .alarm, latching := false, binding := .none, lineWide := false, mask := 15 },
    source := .field, cond := false }

/-- An entry of the peer trip set (R151). It has no point when it was set by a STATUS whose line-trip origin lies outside
0–61, which the Alarm Unit ignores (R28; log 31). -/
structure PeerTrip where
  point : Option Nat
  seq : Option Byte
  deriving DecidableEq, Repr

/-- R154. -/
structure FirstOut where
  point : Fin 62
  time : Time
  origin : Option Origin
  consequent : Nat
  deriving DecidableEq, Repr

inductive EventKind where
  | point | burner | feeder | fan | grate | resource | shift | mode | overflow
  deriving DecidableEq, Repr

/-- R157. -/
structure Event where
  kind : EventKind
  subject : Nat
  value : Nat
  lightWaitExpired : Bool
  time : Time
  station : Nat
  originPoint : Option Nat
  deriving DecidableEq, Repr

/-- The four class flags of the summary (R155). -/
structure ClassFlags where
  trip : Bool
  alarm : Bool
  warning : Bool
  notice : Bool
  deriving DecidableEq, Repr

structure Alarms where
  points : Vector Point 62
  ext : Vector Ext 16
  peerTrips : Vector (Option PeerTrip) 16
  /-- the peer whose entry made the peer trip set non-empty (R152) -/
  raisedBy : Option (Fin 16)
  tripSeq : Byte
  firstOut : Option FirstOut
  tripNew : Bool
  seen : ClassFlags
  autoResume : Bool
  horn : Bool
  events : List Event
  lost : Nat
  readPos : Nat
  readEmpty : Bool
  deriving DecidableEq, Repr

def Alarms.reset : Alarms :=
  { points := .replicate 62 .reset, ext := .replicate 16 .reset, peerTrips := .replicate 16 none, raisedBy := none,
    tripSeq := 0, firstOut := none, tripNew := false,
    seen := { trip := false, alarm := false, warning := false, notice := false }, autoResume := false, horn := false,
    events := [], lost := 0, readPos := 0, readEmpty := false }

/-! ## Shift Recorder (chapter 9) -/

inductive OpenOrigin where
  | start | command | peer (s : Nat) | renumbered (s : Nat)
  deriving DecidableEq, Repr

structure FeederTotals where
  kg : Count
  kWh : Count
  seconds : Count
  deriving DecidableEq, Repr

structure BurnerTotals where
  firing : Count
  lightOffs : Count
  trips : Count
  helds : Count
  deriving DecidableEq, Repr

structure FanTotals where
  running : Count
  starts : Count
  trips : Count
  deriving DecidableEq, Repr

/-- An entry of a trip list, or a record's first trip (R163). -/
structure TripEntry where
  point : Fin 62
  time : Time
  origin : Option Origin
  deriving DecidableEq, Repr

/-- A shift record, open or closed (R163). -/
structure ShiftRec where
  number : Nat
  origin : OpenOrigin
  openTime : Time
  closeTime : Option Time
  incomplete : Bool
  gap : Bool
  calibration : Bool
  engineering : Bool
  restarted : Bool
  unreadLost : Nat
  note : Option Nat
  feeders : Vector FeederTotals 6
  burners : Vector BurnerTotals 2
  fans : Vector FanTotals 4
  grateRunning : Count
  bedHigh : Count
  peak : Nat
  airLimited : Count
  shortfall : Count
  demandHeld : Count
  accepted : Count
  framesLost : Count
  bad : Count
  retries : Count
  failures : Count
  actTrip : Count
  actAlarm : Count
  actWarning : Count
  actNotice : Count
  firstTrip : Option TripEntry
  trips : List TripEntry
  tripsBeyond : Count
  deriving DecidableEq, Repr

structure Shift where
  number : Nat
  current : Option ShiftRec
  /-- newest first, each with its read mark (R171) -/
  store : List (ShiftRec × Bool)
  pendingLoss : Nat
  closedCause : Bool
  deriving DecidableEq, Repr

def Shift.reset : Shift := { number := 0, current := none, store := [], pendingLoss := 0, closedCause := false }

/-! ## Field Scanner (chapter 10) -/

/-- A channel of the input image with its validity mark; invalid is the manual's BAD (R176). -/
structure Channel (α : Type) where
  value : α
  valid : Bool
  deriving DecidableEq, Repr

structure InputImage where
  pulses : Vector (Channel Nat) 6
  inLocal : Vector (Channel Bool) 6
  running : Vector (Channel Bool) 6
  flame : Vector (Channel Nat) 2
  permit : Vector (Channel Bool) 2
  flow : Vector (Channel Nat) 4
  fanRun : Vector (Channel Bool) 4
  bed : Channel Nat
  grateRun : Channel Bool
  discrete : Vector (Channel Bool) 16
  deriving DecidableEq, Repr

def InputImage.reset : InputImage :=
  { pulses := .replicate 6 ⟨0, false⟩, inLocal := .replicate 6 ⟨false, false⟩, running := .replicate 6 ⟨false, false⟩,
    flame := .replicate 2 ⟨0, false⟩, permit := .replicate 2 ⟨false, false⟩, flow := .replicate 4 ⟨0, false⟩,
    fanRun := .replicate 4 ⟨false, false⟩, bed := ⟨0, false⟩, grateRun := ⟨false, false⟩,
    discrete := .replicate 16 ⟨false, false⟩ }

/-- R178. -/
structure OutputImage where
  speed : Vector Nat 6
  run : Vector Bool 6
  remote : Vector Bool 6
  igniter : Vector Bool 2
  fanSpeed : Vector Nat 4
  fanRun : Vector Bool 4
  grateSpeed : Nat
  grateRun : Bool
  horn : Bool
  deriving DecidableEq, Repr

def OutputImage.off : OutputImage :=
  { speed := .replicate 6 0, run := .replicate 6 false, remote := .replicate 6 false, igniter := .replicate 2 false,
    fanSpeed := .replicate 4 0, fanRun := .replicate 4 false, grateSpeed := 0, grateRun := false, horn := false }

structure Field where
  image : InputImage
  output : OutputImage
  state : ScanState
  badRun : Nat
  goodRun : Nat
  scans : Count
  crcErrors : Count
  notReady : Count
  failures : Count
  lastGood : Option Time
  /-- the output block taken at the last scan start, 28 bytes with its CRC -/
  sentBlock : List Byte
  inFlight : Bool
  nextScan : Time
  deriving DecidableEq, Repr

/-- The output block of an image that is all off: 26 zero bytes and their CRC (12.4, R198). -/
def offBlock : List Byte := List.replicate 26 0 ++ [0x30, 0x4E]

def Field.reset : Field :=
  { image := .reset, output := .off, state := .failed, badRun := 4, goodRun := 0, scans := 0, crcErrors := 0,
    notReady := 0, failures := 0, lastGood := none, sentBlock := offBlock, inFlight := false, nextScan := 50 }

/-! ## Host Port (chapter 11) -/

structure HostPort where
  buffer : List Byte
  overLong : Bool
  /-- the command in progress; none is READY (R184) -/
  inProgress : Option (List Byte)
  overrun : Bool
  run : List Byte
  readPos : Nat
  /-- response ready, and with it the cause RESPONSE READY (R186) -/
  ready : Bool
  enables : BitVec 5
  /-- the inactivity deadline while the engineering window is OPEN (R190) -/
  window : Option Time
  /-- the deadline has passed, though a command taken in the same instant has renewed it, and the closing is still to be
  taken (R191); a field of the model's own, clear at reset (DESIGN CHOICE, log 29) -/
  lapsed : Bool
  eng : Bool
  /-- the byte last driven on HD7-HD0 -/
  dataOut : Byte
  deriving DecidableEq, Repr

def HostPort.reset (eng : Bool) : HostPort :=
  { buffer := [], overLong := false, inProgress := none, overrun := false, run := [], readPos := 0, ready := false,
    enables := 0, window := none, lapsed := false, eng := eng, dataOut := 0 }

/-! ## The part, and the state of the machine -/

/-- Everything the KF-412 holds. -/
structure Part where
  now : Time
  strapStation : Fin 16
  strapRate : Fin 4
  started : Bool
  cfg : StationCfg
  line : Line
  peers : Vector Peer 16
  claims : Vector Resource 3
  alloc : Alloc
  mode : PlantMode
  burners : Vector Burner 2
  fuel : Vector Nat 8
  feeders : Vector Feeder 6
  ramps : Vector (Option MixRamp) 2
  nextFeeder : Time
  fans : Vector Fan 4
  grate : Grate
  air : Air
  nextCool : Time
  alarms : Alarms
  shift : Shift
  field : Field
  host : HostPort
  deriving DecidableEq, Repr

/-- The values after a pin reset, with the straps and the ENG level found at it (R192 and the reset tables R23, R36,
R53, R73, R96, R121, R138, R161, R174, R182, R193). -/
def Part.powerUp (strapStation : Fin 16) (strapRate : Fin 4) (eng : Bool) : Part :=
  { now := 0, strapStation := strapStation, strapRate := strapRate, started := false, cfg := .reset, line := .reset,
    peers := .replicate 16 .reset, claims := .replicate 3 .reset, alloc := .reset, mode := .stop,
    burners := .replicate 2 .reset, fuel := .replicate 8 0, feeders := .replicate 6 .reset,
    ramps := .replicate 2 none, nextFeeder := 0, fans := .replicate 4 .reset, grate := .reset, air := .reset,
    nextCool := 0, alarms := .reset, shift := .reset, field := .reset, host := .reset eng }

/-- The part and the rows that wait to be taken, first in first out. -/
structure State where
  part : Part
  pending : List Instr
  deriving DecidableEq, Repr

/-- The machine right after a pin reset, no row waiting. DESIGN CHOICE (log 6): straps 0000 and 00 (station 1 at
38 400 bit/s) and ENG negated; PIN_RESET carries other values. -/
def State.reset : State := { part := .powerUp 0 0 false, pending := [] }

/-- No row of this part stops the machine: the manual names no such fault, so no constructor is needed and none is
raised (safe: every row answers a next state). -/
inductive Fault where
  deriving DecidableEq, Repr

/-- Why a row has no meaning here. -/
inductive Refusal where
  /-- Raised by an arm of `exec` whose row is not modelled yet; no arm is left so (safe: a refused row proves nothing). -/
  | notModelled (mnemonic : String)
  deriving DecidableEq, Repr

end Sys2Proof.Machine
end

