-- ==== Sys2Proof/Machine/Operands.lean ====
section
/-! DEFINITION. Bytes and codes: the byte order and CRC of R198, the codes of 12.2, the operand widths of R201. -/

namespace Sys2Proof.Machine

/-! ## Bytes (R198, R201) -/

def byteOf (n : Nat) : Byte := BitVec.ofNat 8 n

/-- Two bytes, high byte first. -/
def be16 (n : Nat) : List Byte := [byteOf (n / 256), byteOf n]

/-- Four bytes, high byte first. -/
def be32 (n : Nat) : List Byte := [byteOf (n / 16777216), byteOf (n / 65536), byteOf (n / 256), byteOf n]

def boolByte (b : Bool) : Byte := if b then 1 else 0

/-- A group of flags, the first at bit 0. -/
def flagByte : List Bool → Byte
  | [] => 0
  | b :: bs => boolByte b ||| (flagByte bs <<< 1)

/-- A set of up to 16 members as a number, member i at bit i. -/
def setWord : List Bool → Nat
  | [] => 0
  | b :: bs => (if b then 1 else 0) + 2 * setWord bs

/-- An optional field of n bytes: a presence byte, then the field, zeros when absent. -/
def optBytes (n : Nat) (f : α → List Byte) : Option α → List Byte
  | some a => 1 :: f a
  | none => 0 :: List.replicate n 0

def byteAt (l : List Byte) (i : Nat) : Nat := (l.getD i 0).toNat

/-- The two bytes at i and i + 1, high byte first. -/
def wordAt (l : List Byte) (i : Nat) : Nat := byteAt l i * 256 + byteAt l (i + 1)

def bitAt (l : List Byte) (i bit : Nat) : Bool := (byteAt l i).testBit bit

/-- One bit of the CRC register with generator x^16 + x^12 + x^5 + 1. -/
def crcBit (r : BitVec 16) : BitVec 16 := if r.msb then (r <<< 1) ^^^ 0x1021 else r <<< 1

/-- One byte, most significant bit first. -/
def crcByte (r : BitVec 16) (b : Byte) : BitVec 16 :=
  crcBit (crcBit (crcBit (crcBit (crcBit (crcBit (crcBit (crcBit (r ^^^ (b.zeroExtend 16 <<< 8)))))))))

/-- The CRC of R198: register FFFFh before the first byte, no final inversion. -/
def crc (l : List Byte) : BitVec 16 := l.foldl crcByte 0xFFFF

/-- A frame or block followed by its CRC, high byte first. -/
def withCrc (l : List Byte) : List Byte := l ++ be16 (crc l).toNat

/-! ## Bits on the two serial ports (R1, R198) -/

/-- The bits of a word, least significant first. -/
def bitsOf (w : BitVec n) : List Bool := (List.range n).map w.getLsbD

/-- The bits of a byte on the field port, most significant first (R198). -/
def fieldBits (b : Byte) : List Bool := (bitsOf b).reverse

/-- The byte that 8 bits of FDI make, the most significant arriving first (R198): each bit sampled enters a shift register at
its low end. -/
def fieldByte (bits : List Bool) : Byte := bits.foldl (fun r b => (r <<< 1) ||| boolByte b) 0

/-- The bytes that the bits of FDI make, as they arrive (R198). -/
def fieldBytes : List Bool → List Byte
  | b7 :: b6 :: b5 :: b4 :: b3 :: b2 :: b1 :: b0 :: rest => fieldByte [b7, b6, b5, b4, b3, b2, b1, b0] :: fieldBytes rest
  | _ => []

/-- An odd number of these bits are 1. -/
def oddOnes (l : List Bool) : Bool := l.count true % 2 == 1

/-- The character that carries a byte: start bit spacing, data bits least significant first, the parity bit that makes the
number of marking bits odd, stop bit marking (R1). -/
def charOf (b : Byte) : Character := 1#1 ++ BitVec.ofBool (!oddOnes (bitsOf b)) ++ b ++ 0#1

/-- The data bits of a character. -/
def charData (c : Character) : Byte := c.extractLsb' 1 8

/-- The stop bit is found spacing (R1). -/
def framingError (c : Character) : Bool := !c.getLsbD 10

/-- The data bits and the parity bit hold an even number of marking bits (R1). -/
def parityError (c : Character) : Bool := !oddOnes (((bitsOf c).drop 1).take 9)

/-- Character n of an attempt, sent for byte b, is read back good (R10): it was received, which a spacing start bit begins,
with no framing or parity error, its data bits equal those sent, and its reception ended with the stop bit of the character
sent, the last of its 11 bit times. -/
def readGood (n : Nat) (b : Byte) : ReadBack → Bool
  | .heard c stopAt => !c.getLsbD 0 && !framingError c && !parityError c && charData c == b && stopAt == 11 * n + 10
  | .nothing => false

/-- The first character of an attempt, from character n on, that is read back and not good (R10): a mismatch. -/
def mismatchFrom (n : Nat) : List Byte → List ReadBack → Option Nat
  | b :: bs, r :: rs => if readGood n b r then mismatchFrom (n + 1) bs rs else some n
  | _, _ => none

/-- The disturbance is one: a break, or a character, which a spacing start bit begins, with a framing or a parity error
(R1, R14). -/
def disturbs : Disturbance → Bool
  | .badCharacter c => !c.getLsbD 0 && (framingError c || parityError c)
  | .lineBreak => true

/-- The disturbance is a break: all 11 bits of a character time were spacing (R14). -/
def spellsBreak : Disturbance → Bool
  | .badCharacter c => c == 0
  | .lineBreak => true

/-! ## Numbers of objects and codes (12.2) -/

/-- The object of number k among n, if there is one. -/
def finOf (n k : Nat) : Option (Fin n) := if h : k < n then some ⟨k, h⟩ else none

/-- The peer-table index of station number s in 1 to 16. -/
def stationIndex (s : Nat) : Option (Fin 16) := if s = 0 then none else finOf 16 (s - 1)

/-- A set-or-clear, used-or-not or enabled-or-disabled item: 0 or 1 only (R201). -/
def boolOf : Nat → Option Bool
  | 0 => some false
  | 1 => some true
  | _ => none

def Zone.code : Zone → Nat
  | .none => 0 | .kiln => 1 | .calciner => 2

def Zone.ofCode : Nat → Option Zone
  | 0 => some .none | 1 => some .kiln | 2 => some .calciner | _ => Option.none

def PlantMode.code : PlantMode → Nat
  | .stop => 0 | .heatUp => 1 | .run => 2 | .coolDown => 3

def PlantMode.ofCode : Nat → Option PlantMode
  | 0 => some .stop | 1 => some .heatUp | 2 => some .run | 3 => some .coolDown | _ => none

def AlarmClass.code : AlarmClass → Nat
  | .trip => 0 | .alarm => 1 | .warning => 2 | .notice => 3

def AlarmClass.ofCode : Nat → Option AlarmClass
  | 0 => some .trip | 1 => some .alarm | 2 => some .warning | 3 => some .notice | _ => none

def PointState.code : PointState → Nat
  | .normal => 0 | .active => 1 | .activeAcked => 2 | .cleared => 3 | .clearedAcked => 4

def BurnerState.code : BurnerState → Nat
  | .off => 0 | .lightWait => 1 | .igniting => 2 | .loading => 3
  | .firing => 4 | .stopping => 5 | .held => 6 | .tripped => 7

def FeederState.code : FeederState → Nat
  | .unused => 0 | .stopped => 1 | .running => 2 | .inLocal => 3

def FanState.code : FanState → Nat
  | .unused => 0 | .stopped => 1 | .startWait => 2 | .starting => 3 | .running => 4 | .tripped => 5

def GrateState.code : GrateState → Nat
  | .unused => 0 | .stopped => 1 | .running => 2

def PeerState.code : PeerState → Nat
  | .absent => 0 | .live => 1 | .lost => 2

def ClaimState.code : ClaimState → Nat
  | .idle => 0 | .waiting => 1 | .claiming => 2 | .held => 3

def Destination.code : Destination → Nat
  | .secondary => 0 | .tertiary => 1 | .exhaust => 2

def Destination.ofCode : Nat → Option Destination
  | 0 => some .secondary | 1 => some .tertiary | 2 => some .exhaust | _ => none

def Binding.code : Binding → Nat
  | .none => 0 | .station => 1 | .burner b => 2 + b.val

def Binding.ofCode : Nat → Option Binding
  | 0 => some .none | 1 => some .station | 2 => some (.burner 0) | 3 => some (.burner 1) | _ => Option.none

def ExtSource.ofCode : Nat → Option ExtSource
  | 0 => some .field | 1 => some .host | _ => none

def CeilingState.code : CeilingState → Nat
  | .disabled => 0 | .air => 1 | .hold => 2 | .fallback => 3

/-- 12.2 gives the scan state no code. DESIGN CHOICE (log 12): its order in R179. -/
def ScanState.code : ScanState → Nat
  | .good => 0 | .holding => 1 | .failed => 2

/-- The bit of a plant mode in a mode mask. -/
def PlantMode.armed (m : PlantMode) (mask : BitVec 4) : Bool := mask.getLsbD m.code

/-! ## Response codes (R187) -/

inductive Code where
  | done | clamped | unknown | badLength | badOperand | wrongLifecycle | wrongState | permissive | locked
  | unusedObject | noLine | duplicate
  deriving DecidableEq, Repr

def Code.byte : Code → Byte
  | .done => 0x01 | .clamped => 0x02 | .unknown => 0x03 | .badLength => 0x04 | .badOperand => 0x05
  | .wrongLifecycle => 0x06 | .wrongState => 0x07 | .permissive => 0x08 | .locked => 0x09
  | .unusedObject => 0x0A | .noLine => 0x0B | .duplicate => 0x0C

end Sys2Proof.Machine
end

