-- ==== Sys2Proof/Machine/Ops.lean ====
section
/-! DEFINITION. The operations every block shares: station time, arithmetic, named updates of the part, the event queue,
the transmit queue, the open shift record, and the response of a command. -/

namespace Sys2Proof.Machine

open Sys2Proof.Config

/-! ## Arithmetic words (00_scope 1.8) -/

def roundHalfUp (a b : Nat) : Nat := (2 * a + b) / (2 * b)

def satAt (m x : Nat) : Nat := if m < x then m else x

def clampNat (x lo hi : Nat) : Nat := if x < lo then lo else if hi < x then hi else x

def clampInt (x lo hi : Int) : Int := if x < lo then lo else if hi < x then hi else x

/-- The sum over a list of objects. -/
def sumOver (l : List α) (f : α → Nat) : Nat := (l.map f).foldl (· + ·) 0

/-! ## Station time -/

/-- The instant d milliseconds after t. -/
def later (t d : Nat) : Time := (t + d) % timeWrap

/-- The instant t has come: it lies no further back than half the span, so the wrap ends no timer (R30, R77). -/
def reached (now t : Time) : Bool := (now + timeWrap - t) % timeWrap < timeWrap / 2

/-- The time left to t in tenths of a second, 0 once it has come. DESIGN CHOICE (log 23): the fraction of the difference
is dropped, as 1.8 drops that of a station time. -/
def tenthsLeft (now t : Time) : Nat := if reached now t then 0 else ((t + timeWrap - now) % timeWrap) / 100

/-- The time run since t in tenths of a second, the fraction of the difference dropped (DESIGN CHOICE, log 23). -/
def tenthsRun (now t : Time) : Nat := ((now + timeWrap - t) % timeWrap) / 100

/-- A station time as it is read out, stored or sent: tenths, the fraction dropped. -/
def tenths (t : Time) : Nat := t / 100

/-- The next instant after now that is a whole multiple of d since pin reset or since the wrap. -/
def nextMultiple (now d : Nat) : Time :=
  if (now / d + 1) * d < timeWrap then (now / d + 1) * d else 0

/-! ## Named updates -/

def Part.updLine (f : Line → Line) (p : Part) : Part := { p with line := f p.line }

def Part.updPeer (q : Fin 16) (f : Peer → Peer) (p : Part) : Part := { p with peers := p.peers.set q (f p.peers[q]) }

def Part.updRes (k : Fin 3) (f : Resource → Resource) (p : Part) : Part :=
  { p with claims := p.claims.set k (f p.claims[k]) }

def Part.updBurner (b : Fin 2) (f : Burner → Burner) (p : Part) : Part :=
  { p with burners := p.burners.set b (f p.burners[b]) }

def Part.updFeeder (i : Fin 6) (f : Feeder → Feeder) (p : Part) : Part :=
  { p with feeders := p.feeders.set i (f p.feeders[i]) }

def Part.updFan (n : Fin 4) (f : Fan → Fan) (p : Part) : Part := { p with fans := p.fans.set n (f p.fans[n]) }

def Part.updGrate (f : Grate → Grate) (p : Part) : Part := { p with grate := f p.grate }

def Part.updAlarms (f : Alarms → Alarms) (p : Part) : Part := { p with alarms := f p.alarms }

def Part.updPoint (i : Fin 62) (f : Point → Point) (p : Part) : Part :=
  p.updAlarms fun a => { a with points := a.points.set i (f a.points[i]) }

def Part.updOutput (f : OutputImage → OutputImage) (p : Part) : Part :=
  { p with field := { p.field with output := f p.field.output } }

def Part.updHost (f : HostPort → HostPort) (p : Part) : Part := { p with host := f p.host }

/-- An addition to the open shift record; none is made while no record is open (R164). -/
def Part.record (f : ShiftRec → ShiftRec) (p : Part) : Part :=
  { p with shift := { p.shift with current := p.shift.current.map f } }

def ShiftRec.updFeeder (f : Fin 6) (g : FeederTotals → FeederTotals) (r : ShiftRec) : ShiftRec :=
  { r with feeders := r.feeders.set f (g r.feeders[f]) }

def ShiftRec.updBurner (b : Fin 2) (g : BurnerTotals → BurnerTotals) (r : ShiftRec) : ShiftRec :=
  { r with burners := r.burners.set b (g r.burners[b]) }

def ShiftRec.updFan (n : Fin 4) (g : FanTotals → FanTotals) (r : ShiftRec) : ShiftRec :=
  { r with fans := r.fans.set n (g r.fans[n]) }

/-- The row of a timer: taken once its instant has come, and without effect while the timer is not present or its
instant lies ahead, as when another row of the same instant has renewed it (DESIGN CHOICE, log 3). -/
def Part.whenDue (due : Option Time) (f : Part → Part) (p : Part) : Part :=
  match due with
  | some t => if reached p.now t then f p else p
  | none => p

/-- Fold an update over a list of objects, in its order. -/
def Part.forAll (l : List α) (f : α → Part → Part) (p : Part) : Part := l.foldl (fun p a => f a p) p

/-- The own station number (R2). -/
def Part.own (p : Part) : Nat := p.strapStation.val + 1

/-- LOOPBACK is LR1-LR0 at 11 (R3). -/
def Part.loopback (p : Part) : Bool := p.strapRate == 3

/-! ## The event queue (R158) -/

/-- An event offered: stored at the end, or lost with the lost count raised. -/
def Part.offer (kind : EventKind) (subject value : Nat) (mark : Bool := false) (station : Nat := 0)
    (originPoint : Option Nat := none) (p : Part) : Part :=
  p.updAlarms fun a =>
    if a.events.length < eventSize then
      { a with events := a.events ++ [⟨kind, subject, value, mark, p.now, station, originPoint⟩] }
    else { a with lost := satAt 255 (a.lost + 1) }

/-! ## The transmit queue (R7, R8) -/

def FrameBody.urgent : FrameBody → Bool
  | .status => false
  | _ => true

/-- Urgent frames ahead of STATUS, each class in the order of queueing. -/
def orderQueue (q : List TxFrame) : List TxFrame :=
  q.filter (·.body.urgent) ++ q.filter (fun f => !f.body.urgent)

/-- The frames whose attempt is not in progress: all but the head, while it is being sent or its break goes on. DESIGN
CHOICE (log 21): the break that ends a failed attempt belongs to the attempt. -/
def Line.behindAttempt (l : Line) : List TxFrame := if l.phase = .idle then l.queue else l.queue.tail

/-- A new frame in its place; a frame whose attempt is in progress is not overtaken. -/
def Line.place (f : TxFrame) (l : Line) : Line :=
  match l.phase, l.queue with
  | .idle, q => { l with queue := orderQueue (q ++ [f]) }
  | _, h :: t => { l with queue := h :: orderQueue (t ++ [f]) }
  | _, [] => { l with queue := [f] }

/-- A STATUS stands in the queue whose attempt is not in progress. -/
def Line.statusWaiting (l : Line) : Bool := l.behindAttempt.any fun f => f.body == .status

/-- A queue slot is taken for a new frame, with the next of the model's frame numbers. -/
def Part.place (body : FrameBody) (p : Part) : Part :=
  p.updLine fun l => { l.place ⟨body, 0, none, l.nextTag⟩ with nextTag := l.nextTag + 1 }

/-- A transmit failure: counted in R22 and in the open record, and the transmit-fail condition set (R8, R12). -/
def Part.transmitFailure (p : Part) : Part :=
  (p.updLine fun l => { l with counts := { l.counts with failures := l.counts.failures + 1 }, txFail := true }).record
    fun r => { r with failures := r.failures + 1 }

/-- A request to queue a frame (R8), other than a restart release (R24). -/
def Part.queueFrame (body : FrameBody) (p : Part) : Part :=
  if !p.started || p.line.silent then p
  else if body == .status && p.line.statusWaiting then p
  else if p.line.queue.length < queueSize then p.place body
  else p.transmitFailure

/-! ## The response of a command (R185, R186) -/

/-- A response replaces the response run, sets response ready, and returns the port to READY. -/
def Part.reply (cmd : Nat) (code : Code) (data : List Byte := []) (p : Part) : Part :=
  p.updHost fun h =>
    { h with run := [code.byte, boolByte h.overrun, byteOf cmd] ++ be16 data.length ++ data,
             readPos := 0, ready := true, inProgress := none, overrun := false }

/-! ## Engineering commands (R190) -/

/-- The first check of an engineering command: LOCKED while the window is CLOSED. -/
def Part.engineering (cmd : Nat) (f : Part → Part) (p : Part) : Part :=
  if p.host.window.isSome then f p else p.reply cmd .locked

/-- The deadline of the window renewed. Where it has already passed, its closing is still to be taken, and then removes
the renewed one (R191; the mark that keeps it is log 29). -/
def HostPort.renew (now : Time) (h : HostPort) : HostPort :=
  { h with window := some (later now engineeringTime), lapsed := h.lapsed || h.window.any (reached now) }

/-- The window CLOSED, its deadline removed (R191). -/
def HostPort.closeWindow (h : HostPort) : HostPort := { h with window := none, lapsed := false }

/-- An engineering command answered DONE renews the deadline of the window. -/
def Part.engineeringDone (cmd : Nat) (p : Part) : Part := (p.updHost (HostPort.renew p.now)).reply cmd .done

/-! ## Meanings -/

/-- A row that changes the part only: the queue of waiting rows is never touched by a meaning. -/
def State.act (s : State) (f : Part → Part) : Host.Outcome State Fault Refusal :=
  .next { s with part := f s.part }

end Sys2Proof.Machine
end

