-- ==== Sys2Proof/Machine/Flags.lean ====
section
/-! DEFINITION. What follows from the state by a rule and is not stored beside it: the fresh contents of peers, line view
holders, the demand source, zone heats, the alarm table and its conditions, the STATUS contents, and the flags of the
host port. -/

namespace Sys2Proof.Machine

open Sys2Proof.Config

/-! ## Peer contents (12.3, R31) -/

/-- The contents a block may read: of a LIVE peer, present and not stale (R31). The own entry is no peer. -/
def Part.fresh (p : Part) (q : Fin 16) : Option (List Byte) :=
  if q ≠ p.strapStation ∧ p.peers[q].state = .live ∧ p.peers[q].stale = false then p.peers[q].contents else none

def statZone (c : List Byte) : Option Zone := Zone.ofCode (byteAt c 0)
def statMode (c : List Byte) : Option PlantMode := PlantMode.ofCode (byteAt c 1)
def statOffered (c : List Byte) : Bool := bitAt c 2 0
def statLineTrip (c : List Byte) : Bool := bitAt c 2 1
def statHeld (c : List Byte) (k : Fin 3) : Bool := bitAt c 3 k.val
def statClaiming (c : List Byte) (k : Fin 3) : Bool := bitAt c 4 k.val
def statShift (c : List Byte) : Nat := wordAt c 5
def statDelivered (c : List Byte) : Nat := wordAt c 7
def statCapacity (c : List Byte) : Nat := wordAt c 9
def statOffer (c : List Byte) : Nat := wordAt c 11
def statSecondary (c : List Byte) : Nat := wordAt c 13
def statTertiary (c : List Byte) : Nat := wordAt c 15
def statFansSec (c : List Byte) : Nat := byteAt c 17
def statFansTer (c : List Byte) : Nat := byteAt c 18
def statTripPoint (c : List Byte) : Nat := byteAt c 21

/-- A STATUS whose zone and plant mode codes let it be taken (R28). -/
def statusTakeable (c : List Byte) : Bool := (statZone c).isSome && (statMode c).isSome

/-- Every station number, as an index. -/
abbrev stations : List (Fin 16) := List.finRange 16
abbrev burnerIds : List (Fin 2) := List.finRange 2
abbrev feederIds : List (Fin 6) := List.finRange 6
abbrev fanIds : List (Fin 4) := List.finRange 4
abbrev resourceIds : List (Fin 3) := List.finRange 3
abbrev pointIds : List (Fin 62) := List.finRange 62

/-! ## Peer Table -/

/-- The aging time of an entry, and the duplicate deadline's: 4 status periods (R30, R18). -/
def Part.agingTime (p : Part) : Nat := 4 * p.cfg.period

/-- The aging deadline of a LIVE entry (R30). -/
def Part.agingDeadline (p : Part) (q : Fin 16) : Option Time :=
  if p.peers[q].state = .live then p.peers[q].lastTime.map (later · p.agingTime) else none

def ChangeFlags.any (f : ChangeFlags) : Bool := f.joined || f.lost || f.mode || f.trip || f.demand

/-- One bit for each entry with a change flag (R32); the own entry carries none (R35). -/
def Part.changeSummary (p : Part) : List Bool :=
  stations.map fun q => decide (q ≠ p.strapStation) && p.peers[q].flags.any

/-- PEER LOST: some peer entry is LOST (R31). -/
def Part.anyPeerLost (p : Part) : Bool :=
  stations.any fun q => decide (q ≠ p.strapStation) && decide (p.peers[q].state = .lost)

/-- A station of the own zone that offers demand (R34). -/
def Part.offers (p : Part) (q : Fin 16) : Bool :=
  if q = p.strapStation then p.started && p.alloc.offered
  else match p.fresh q with
    | some c => statZone c == some p.cfg.zone && statOffered c
    | none => false

/-- The demand source of the own zone: the lowest-numbered station that offers; none in zone NONE (R34).
DESIGN CHOICE (log 22): it is a view of the present zone, so CONFIGURE STATION with another zone finds it again at once,
an occasion that R34's list does not name. -/
def Part.demandSource (p : Part) : Option (Fin 16) :=
  if p.cfg.zone = .none then none else stations.find? p.offers

/-- The demand that station offers. -/
def Part.offeredBy (p : Part) (q : Fin 16) : Nat :=
  if q = p.strapStation then p.alloc.offer else ((p.fresh q).map statOffer).getD 0

/-- A station number for read-out: 0 for none. -/
def stationNumber : Option (Fin 16) → Nat
  | some q => q.val + 1
  | none => 0

/-! ## Line views (R39) -/

/-- The three conditions under which a peer holds k in this station's view. -/
def Part.holds (p : Part) (k : Fin 3) (q : Fin 16) : Bool :=
  match p.fresh q with
  | some c => statHeld c k && !p.claims[k].released[q]
  | none => false

/-- The holder of the line view: the lowest-numbered. -/
def Part.holder (p : Part) (k : Fin 3) : Option (Fin 16) := stations.find? (p.holds k)

/-- The view shows no holder and no claimant of lower number than the own station (R42). -/
def Part.viewFree (p : Part) (k : Fin 3) : Bool :=
  (p.holder k).isNone && (p.claims[k].claimant.all fun c => decide (p.strapStation < c.peer))

/-- The number of possible users of a resource (R38). -/
def userCount (k : Fin 3) : Nat := if k = 1 then 4 else 2

/-! ## Zone heat (R129) -/

def Part.zoneHeat (p : Part) (z : Zone) : Nat :=
  if p.started then
    satAt 65535 ((if p.cfg.zone = z then p.alloc.delivered else 0) +
      sumOver stations fun q => match p.fresh q with
        | some c => if statZone c = some z then statDelivered c else 0
        | none => 0)
  else 0

/-- The reference heat of a fan by its destination. -/
def Part.referenceHeat (p : Part) : Destination → Nat
  | .secondary => p.zoneHeat .kiln
  | .tertiary => p.zoneHeat .calciner
  | .exhaust => satAt 65535 (p.zoneHeat .kiln + p.zoneHeat .calciner)

/-! ## Burners and feeders -/

/-- LOADING or FIRING: the states in which a burner's capacity counts (R64). -/
def BurnerState.fires (s : BurnerState) : Bool := s == .loading || s == .firing

/-- The used feeders of a burner, in feeder order. -/
def Part.feedersOf (p : Part) (b : Fin 2) : List (Fin 6) :=
  feederIds.filter fun f => p.feeders[f].cfg.used && p.feeders[f].cfg.burner == b

/-- The CV of a feeder's fuel. -/
def Part.cvOf (p : Part) (f : Fin 6) : Nat := p.fuel[p.feeders[f].cfg.fuel]

/-- The count of burners in LOADING or FIRING (R93). -/
def Part.firingCount (p : Part) : Nat := (burnerIds.filter fun b => p.burners[b].state.fires).length

/-- The burner permit is asserted and valid. -/
def Part.permitGood (p : Part) (b : Fin 2) : Bool := p.field.image.permit[b].valid && p.field.image.permit[b].value

/-- The flame intensity stands below threshold plus 20, saturated at 255; a BAD intensity counts as below (R85). -/
def Part.flameBelowWeak (p : Part) (b : Fin 2) : Bool :=
  !p.field.image.flame[b].valid ||
    decide (p.field.image.flame[b].value < satAt 255 (p.burners[b].cfg.threshold + 20))

/-! ## The alarm table (R140, R149) -/

/-- The fixed fields of each point: internal points by the table, external points as configured. Mode masks: 15 all
modes, 6 HEAT-UP and RUN, 4 RUN. -/
def Part.pointAttr (p : Part) (i : Fin 62) : PointAttr :=
  let n := i.val
  if n ≤ 2 then ⟨.trip, true, .station, false, 15⟩
  else if n ≤ 4 then ⟨.alarm, false, .none, false, 15⟩
  else if n = 5 then ⟨.warning, false, .none, false, 15⟩
  else if n = 6 then ⟨.alarm, true, .none, false, 15⟩
  else if n = 7 then ⟨.warning, false, .none, false, 4⟩
  else if n = 8 then ⟨.notice, false, .none, false, 4⟩
  else if n = 9 then ⟨.warning, false, .none, false, 4⟩
  else if n < 18 then
    match (n - 10) % 4 with
    | 0 => ⟨.trip, true, .burner (Fin.ofNat 2 ((n - 10) / 4)), false, 15⟩
    | 1 => ⟨.trip, true, .burner (Fin.ofNat 2 ((n - 10) / 4)), false, 15⟩
    | 2 => ⟨.warning, false, .none, false, 6⟩
    | _ => ⟨.notice, false, .none, false, 15⟩
  else if n < 36 then
    match (n - 18) % 3 with
    | 0 => ⟨.warning, false, .none, false, 15⟩
    | 1 => ⟨.alarm, true, .none, false, 15⟩
    | _ => ⟨.alarm, false, .none, false, 15⟩
  else if n < 44 then ⟨.alarm, true, .none, false, 15⟩
  else if n = 44 then ⟨.alarm, false, .none, false, 6⟩
  else if n = 45 then ⟨.trip, true, .station, true, 15⟩
  else p.alarms.ext[Fin.ofNat 16 (n - 46)].attr

/-- The condition of BED PRESSURE HIGH (R135): used, STARTED, and P above the limit for 10 s, however much of that time
passed before START STATION. -/
def Part.bedHighActive (p : Part) : Bool := p.started && p.grate.cfg.used && p.grate.bedHigh.any (·.passed)

/-- The condition of each point as its block presents it (R140); while UNSTARTED all but those of the line and the Peer
Table are inactive (R141). -/
def Part.condition (p : Part) (i : Fin 62) : Bool :=
  let n := i.val
  if n = 0 then p.field.state == .failed && p.started
  else if n = 1 then p.line.dupDeadline.isSome
  else if n = 2 then p.alarms.peerTrips.toList.any (·.isSome)
  else if n = 3 then p.line.txFail
  else if n = 4 then p.line.stuck
  else if n = 5 then p.anyPeerLost
  else if n = 6 then resourceIds.any fun k => p.claims[k].conflict.isSome
  else if n = 7 then p.alloc.shortfall
  else if n = 8 then p.alloc.airLimited
  else if n = 9 then p.alloc.ceilState == .fallback
  else if n < 18 then
    let b := p.burners[Fin.ofNat 2 ((n - 10) / 4)]
    match (n - 10) % 4 with
    | 0 => b.flameFail
    | 1 => b.lightOffFail
    | 2 => b.weak.any (·.passed)
    | _ => b.state == .held
  else if n < 36 then
    let f := p.feeders[Fin.ofNat 6 ((n - 18) / 3)]
    match (n - 18) % 3 with
    | 0 => f.devTimer.any (·.passed)
    | 1 => f.noFlow.any (·.passed)
    | _ => f.cfg.used && p.started && f.measBad
  else if n < 44 then
    let f := p.fans[Fin.ofNat 4 ((n - 36) / 2)]
    if (n - 36) % 2 = 0 then f.tripCond else f.startFail
  else if n = 44 then p.bedHighActive
  else if n = 45 then p.grate.fault
  else p.started && p.alarms.ext[Fin.ofNat 16 (n - 46)].used && p.alarms.ext[Fin.ofNat 16 (n - 46)].cond

/-- Armed while the plant mode is in the point's mask (R141). -/
def Part.pointArmed (p : Part) (i : Fin 62) : Bool := p.mode.armed (p.pointAttr i).mask

/-- The effective condition (R141). -/
def Part.effective (p : Part) (i : Fin 62) : Bool := p.started && p.condition i && p.pointArmed i

/-- A point in ACTIVE or CLEARED (R160). -/
def PointState.unacked (s : PointState) : Bool := s == .active || s == .cleared

/-- The count of unacknowledged points, 0 while UNSTARTED (R160). -/
def Part.unackedCount (p : Part) : Nat :=
  if p.started then (pointIds.filter fun i => p.alarms.points[i].state.unacked).length else 0

/-- The lowest-numbered line-wide point that is not NORMAL (R147). -/
def Part.lineTripPoint (p : Part) : Option (Fin 62) :=
  pointIds.find? fun i => (p.pointAttr i).lineWide && p.alarms.points[i].state != .normal

/-- A TRIP-class point bound to burner b or to the station (R80, R88). -/
def Part.bindsBurner (p : Part) (b : Fin 2) (i : Fin 62) : Bool :=
  (p.pointAttr i).cls == .trip && ((p.pointAttr i).binding == .station || (p.pointAttr i).binding == .burner b)

/-- Some TRIP-class point bound to burner b or to the station is not NORMAL. -/
def Part.tripStands (p : Part) (b : Fin 2) : Bool :=
  pointIds.any fun i => p.bindsBurner b i && p.alarms.points[i].state != .normal

/-! ## STATUS contents and frames (R6, 12.3) -/

/-- The 25 payload bytes of a STATUS sampled now; bits without a field are 0 (R199). -/
def Part.statusPayload (p : Part) : List Byte :=
  [byteOf p.cfg.zone.code, byteOf p.mode.code,
   flagByte [p.alloc.offered, p.lineTripPoint.isSome, p.alloc.shortfall, p.alloc.airLimited,
     p.alloc.ceilState == .fallback],
   flagByte (resourceIds.map fun k => p.claims[k].state == .held),
   flagByte (resourceIds.map fun k => p.claims[k].state == .claiming)] ++
  be16 p.shift.number ++ be16 p.alloc.delivered ++ be16 p.alloc.capacity ++ be16 p.alloc.offer ++
  be16 p.air.secondary ++ be16 p.air.tertiary ++
  [byteOf p.air.fansSec, byteOf p.air.fansTer, byteOf p.firingCount, byteOf p.unackedCount,
   byteOf (match p.lineTripPoint with | some i => i.val | none => 0), byteOf (stationNumber p.demandSource)] ++
  be16 p.alloc.dEff

/-- KIND (R4). -/
def FrameBody.kind : FrameBody → Byte
  | .status => 0x51 | .claim _ _ => 0x62 | .release _ => 0x63 | .trip _ _ => 0x74 | .shift _ => 0x85

/-- The payload of a frame as sent now (R4, 12.3). -/
def Part.payload (p : Part) : FrameBody → List Byte
  | .status => p.statusPayload
  | .claim k u => [byteOf k.val, byteOf u]
  | .release k => [byteOf k.val]
  | .trip i s => [byteOf i.val, s, byteOf AlarmClass.trip.code]
  | .shift n => be16 n

/-- The characters of one attempt: header, payload, CHECK (R4). -/
def Part.frameBytes (p : Part) (body : FrameBody) (seq : Byte) : List Byte :=
  withCrc ([byteOf p.own, body.kind, byteOf (p.payload body).length, seq] ++ p.payload body)

/-- The access gap of a frame in character times (R9). -/
def Part.accessGap (p : Part) (f : TxFrame) : Nat := (if f.body.urgent then 3 else 20) + p.own + 8 * f.attempts

/-- The driver enable LDE: on through an attempt and its break, held off in LOOPBACK (R10, R3). -/
def Part.driverEnable (p : Part) : Bool := p.line.phase != .idle && !p.loopback

/-- What the own transmitter puts on the line, as far as the phase goes, true for marking: the characters of the attempt in
hand back to back (R1, R4, R10), or a break of 2 character times of spacing (R11). It reaches LTX while LDE is on. -/
def Part.sentBits (p : Part) : List Bool :=
  match p.line.phase with
  | .idle => []
  | .sending => p.line.wire.flatMap fun b => bitsOf (charOf b)
  | .breaking => List.replicate 22 false

/-! ## Field port (R198, R200) -/

/-- The 39 bytes that the scan last begun clocks out on FDO: the 28 bytes of its output block, then 0 for the 11 byte times
that the input block goes on (R200). -/
def Field.fdoBytes (f : Field) : List Byte := f.sentBlock ++ List.replicate 11 0

/-- FDO at each FCK period of that scan (R198, R200). -/
def Field.fdoBits (f : Field) : List Bool := f.fdoBytes.flatMap fieldBits

/-! ## Host port (R183, R188) -/

/-- The five causes in order of priority: TRIP NEW, EVENTS, SHIFT CLOSED, PEER CHANGE, RESPONSE READY. -/
def Part.causes (p : Part) : List Bool :=
  [p.alarms.tripNew, !p.alarms.events.isEmpty, p.shift.closedCause, p.changeSummary.any id, p.host.ready]

/-- The instant at which ENGINEERING_DEADLINE closes the window: its deadline, or at once where a command has renewed a
deadline that had passed (R191, log 29). -/
def Part.engineeringDue (p : Part) : Option Time :=
  if p.host.lapsed then p.host.window.map fun _ => p.now else p.host.window

/-- The five enables, cause i + 1 at bit i. -/
def HostPort.enableList (h : HostPort) : List Bool := (List.range 5).map h.enables.getLsbD

/-- The identification read at location 2: the highest-priority cause pending and enabled, 0 for none. -/
def Part.identification (p : Part) : Nat :=
  match (List.zipWith (· && ·) p.causes p.host.enableList).findIdx? id with
  | some i => i + 1
  | none => 0

/-- INT, asserted (low) while a cause is pending and enabled. -/
def Part.intAsserted (p : Part) : Bool := (List.zipWith (· && ·) p.causes p.host.enableList).any id

/-- The port status byte of location 1 (12.5). -/
def Part.portStatus (p : Part) : Byte :=
  flagByte [p.host.ready && p.host.inProgress.isNone, p.host.inProgress.isSome, p.host.window.isSome, p.started,
    p.line.silent]

/-- The part of the response run that stands in the 64-byte response buffer (R186). -/
def HostPort.responsePart (h : HostPort) : List Byte := (h.run.drop (64 * (h.readPos / 64))).take 64

end Sys2Proof.Machine
end

