-- ==== Sys2Proof/Machine/Claims.lean ====
section
/-! DEFINITION. The Claim Unit's own operations on one resource (chapter 3): service, request, release, withdrawal, entry
to CLAIMING, yield, and the line view's claimant. What a user does when it is told stands in Machine/Users.lean. -/

namespace Sys2Proof.Machine

open Sys2Proof.Config

/-- Service of k may begin (R42): record IDLE, or WAITING with no stagger; list not empty; view free; re-claim delay
ended; station STARTED and not SILENT. -/
def Part.serviceReady (k : Fin 3) (p : Part) : Bool :=
  let r := p.claims[k]
  (r.state == .idle || (r.state == .waiting && r.stagger.isNone)) && !r.waitList.isEmpty && p.viewFree k &&
    r.reclaim.isNone && p.started && !p.line.silent

/-- Service tried (R42): the head of the list becomes the record's user, WAITING, with its stagger of 20 ms x own number. -/
def Part.service (k : Fin 3) (p : Part) : Part :=
  if p.serviceReady k then
    p.updRes k fun r =>
      { r with state := .waiting, user := r.waitList.head?, stagger := some (later p.now (20 * p.own)) }
  else p

/-- Service tried for all three resources: some term of R42 may have changed. -/
def Part.serviceAll (p : Part) : Part := p.forAll resourceIds Part.service

/-- A user in its place by index, once (R38). -/
def insertUser (u : Nat) : List Nat → List Nat
  | [] => [u]
  | v :: vs => if u < v then u :: v :: vs else if u = v then v :: vs else v :: insertUser u vs

/-- A user asks for k (R41). A request already made changes nothing; a joining user of lower index than a WAITING
record's user takes its place in the record. -/
def Part.request (k : Fin 3) (u : Nat) (p : Part) : Part :=
  let r := p.claims[k]
  if !p.started || p.line.silent then p
  else if r.waitList.contains u || (r.state == .held && r.user == some u) then p
  else
    (p.updRes k fun r =>
      { r with waitList := insertUser u r.waitList,
               user := if r.state == .waiting && r.user.any (u < ·) then some u else r.user }).service k

/-- The re-claim delay of k begins: one status period (R48). -/
def Part.beginReclaim (k : Fin 3) (p : Part) : Part :=
  p.updRes k fun r => { r with reclaim := some (later p.now p.cfg.period) }

/-- The record of k to IDLE with no user and no timer of its own. -/
def Resource.toIdle (r : Resource) : Resource :=
  { r with state := .idle, user := none, settle := none, note := none, stagger := none }

/-- The user of a HELD record gives k back (R48): RELEASE queued, record IDLE, RESOURCE event, re-claim delay. -/
def Part.release (k : Fin 3) (p : Part) : Part :=
  (((p.queueFrame (.release k)).updRes k Resource.toIdle).offer .resource k.val 1).beginReclaim k

/-- A user withdraws from k (R49), by where it stands. DESIGN CHOICE (log 36): a user that only leaves the wait list while the
re-claim delay runs does not begin it again, as R49 gives that withdrawal no delay, though R48 lets a withdrawal do so. -/
def Part.withdraw (k : Fin 3) (u : Nat) (p : Part) : Part :=
  let r := p.claims[k]
  if r.user == some u && r.state == .held then p.release k
  else if r.user == some u && r.state == .claiming then
    (((p.updRes k fun r => { r with waitList := r.waitList.erase u }).queueFrame (.release k)).updRes k
      Resource.toIdle).beginReclaim k
  else if r.user == some u && r.state == .waiting then
    (p.updRes k fun r => { r.toIdle with waitList := r.waitList.erase u }).service k
  else p.updRes k fun r => { r with waitList := r.waitList.erase u }

/-- Entry to CLAIMING (R43): a CLAIM is queued and noted; a CLAIM discarded at a full queue returns the record to
WAITING with its user. -/
def Part.enterClaiming (k : Fin 3) (p : Part) : Part :=
  let u := p.claims[k].user.getD 0
  if p.line.queue.length < queueSize then
    (p.updRes k fun r => { r with state := .claiming, stagger := none, settle := none, note := some p.line.nextTag }).queueFrame
      (.claim k u)
  else
    (p.updRes k fun r => { r with state := .waiting, stagger := none, settle := none, note := none }).queueFrame
      (.claim k u)

/-- A CLAIMING record yields (R44): WAITING with the head of the list as user, no RELEASE. -/
def Part.yieldClaim (k : Fin 3) (p : Part) : Part :=
  p.updRes k fun r =>
    if r.state = .claiming then { r with state := .waiting, user := r.waitList.head?, settle := none, note := none }
    else r

/-- A claim of k by peer q is seen (R40): recorded unless a lower-numbered claimant stands; a known purpose is kept when
the sender is the recorded claimant and the frame gives none (DEDUCED, log 14). -/
def Part.seeClaim (k : Fin 3) (q : Fin 16) (purpose : Option Nat) (p : Part) : Part :=
  p.updRes k fun r =>
    let c : Claimant := ⟨q, later p.now (2 * p.cfg.period), purpose⟩
    match r.claimant with
    | none => { r with claimant := some c }
    | some old =>
      if q = old.peer then { r with claimant := some { c with purpose := purpose.or old.purpose } }
      else if q < old.peer then { r with claimant := some c }
      else r

/-- Peer q is no claimant of k any more (R40). -/
def Part.dropClaimant (k : Fin 3) (q : Fin 16) (p : Part) : Part :=
  p.updRes k fun r => if r.claimant.any (·.peer == q) then { r with claimant := none } else r

/-- A conflict mark is cleared when the peer it names no longer meets the conditions of R39 (R47). -/
def Part.refreshMarks (p : Part) : Part :=
  p.forAll resourceIds fun k p =>
    p.updRes k fun r => if r.conflict.all (p.holds k) then r else { r with conflict := none }

/-- The Line Controller tells how a noted CLAIM ended (R43): sent whole sets the settle deadline; given up returns the
record to WAITING. A record that no longer waits on the frame is unchanged. -/
def Part.claimNotice (tag : Nat) (sent : Bool) (p : Part) : Part :=
  p.forAll resourceIds fun k p =>
    p.updRes k fun r =>
      if r.state = .claiming ∧ r.note = some tag then
        if sent then { r with settle := some (later p.now p.cfg.period), note := none }
        else { r with state := .waiting, settle := none, note := none }
      else r

end Sys2Proof.Machine
end

