-- ==== Sys2Proof/Machine/FeederStates.lean ====
section
/-! DEFINITION. A feeder's state and outputs (R100, R101), found again where one of its terms changes, and the frozen
capacity of its burner (R64). -/

namespace Sys2Proof.Machine

open Sys2Proof.Config

/-- Whether the feeder's burner wants it (R100). -/
def Part.wanted (f : Fin 6) (p : Part) : Bool :=
  let x := p.feeders[f]
  let b := p.burners[x.cfg.burner]
  match b.state with
  | .igniting => b.cfg.feeder == f
  | .loading | .firing => decide (0 < x.mix) || decide (0 < x.setpoint)
  | .stopping => decide (0 < x.setpoint)
  | _ => false

/-- The speed command of a RUNNING feeder from its setpoint and trim (R109). -/
def Feeder.speedCommand (x : Feeder) : Nat :=
  (clampInt ((roundHalfUp (x.setpoint * 1000) x.cfg.maxRate : Nat) + x.trim) 0 1000).toNat

/-- The outputs of a feeder by its state (R101). -/
def Part.writeFeeder (f : Fin 6) (p : Part) : Part :=
  let x := p.feeders[f]
  p.updOutput fun o =>
    { o with speed := o.speed.set f (if x.state = .running then x.speedCommand else 0),
             run := o.run.set f (x.state == .running),
             remote := o.remote.set f (x.state == .running || x.state == .stopped) }

/-- A feeder in a new state: trim, ramp remainder and both timers start anew, outputs are written (R100, R110, R111). -/
def Part.feederTo (f : Fin 6) (s : FeederState) (sp : Nat) (p : Part) : Part :=
  (p.updFeeder f fun x =>
    { x with state := s, setpoint := sp, rampRem := 0, trim := 0, devTimer := none, noFlow := none }).writeFeeder f

/-- The state of a feeder whose local input is negated and valid, found again from whether it is wanted (R100). -/
def Part.settleFeeder (f : Fin 6) (p : Part) : Part :=
  let x := p.feeders[f]
  let sw := p.field.image.inLocal[f]
  if !p.started || !x.cfg.used || x.state == .inLocal || !sw.valid || sw.value then p
  else if p.wanted f then (if x.state = .running then p else p.feederTo f .running x.setpoint)
  else if x.state = .stopped then p
  else p.feederTo f .stopped 0

/-- Every feeder found again, at a control period (R107 step 3). -/
def Part.settleFeeders (p : Part) : Part := p.forAll feederIds Part.settleFeeder

/-- The feeders of a burner found again, after its state or their mix fractions have changed (R100). -/
def Part.settleFeedersOf (b : Fin 2) (p : Part) : Part := p.forAll (p.feedersOf b) Part.settleFeeder

/-- The frozen capacity of a burner follows its LOCAL feeders (R64): taken at the burner's delivered heat, kept while
one is LOCAL, removed with the last and when the burner leaves LOADING and FIRING. -/
def Part.freeze (b : Fin 2) (p : Part) : Part :=
  let fz :=
    if p.burners[b].state.fires && (p.feedersOf b).any (fun f => p.feeders[f].state == .inLocal) then
      p.alloc.frozen[b].or (some p.alloc.deliveredB[b])
    else none
  { p with alloc := { p.alloc with frozen := p.alloc.frozen.set b fz } }

def Part.freezeAll (p : Part) : Part := p.forAll burnerIds Part.freeze

end Sys2Proof.Machine
end

