-- ==== Sys2Proof/Machine/BurnerOps.lean ====
section
/-! DEFINITION. The burner's change of state as one operation, and what each entry sets (chapter 5); the end of a mix ramp
that goes with it (R118). -/

namespace Sys2Proof.Machine

open Sys2Proof.Config

/-- The fractions of a burner's feeders replaced together (R114, R116), and the feeders' states found again (R100). -/
def Part.replaceMix (b : Fin 2) (m : Vector Nat 6) (p : Part) : Part :=
  (p.forAll (p.feedersOf b) fun f => Part.updFeeder f fun x => { x with mix := m[f] }).settleFeedersOf b

/-- The present mix of a burner, 0 for feeders of another (R115). -/
def Part.presentMix (b : Fin 2) (p : Part) : Vector Nat 6 :=
  Vector.ofFn fun f => if (p.feedersOf b).contains f then p.feeders[f].mix else 0

/-- The mix-ramp record of a burner. -/
def Part.setRamp (b : Fin 2) (r : Option MixRamp) (p : Part) : Part := { p with ramps := p.ramps.set b r }

/-- A mix ramp ends early: the burner takes the target mix at once, the record is removed, MIX-CHANGE is withdrawn or
released (R118). -/
def Part.endRamp (b : Fin 2) (p : Part) : Part :=
  match p.ramps[b] with
  | some r => ((p.replaceMix b r.target).setRamp b none).withdraw 2 b.val
  | none => p

/-- The setpoints of a burner's feeders that are not LOCAL are set to 0 at once (R108). -/
def Part.zeroSetpoints (b : Fin 2) (p : Part) : Part :=
  p.forAll (p.feedersOf b) fun f =>
    Part.updFeeder f fun x => if x.state = .inLocal then x else { x with setpoint := 0, rampRem := 0 }

/-- The burner in a new state with every item of R77 removed. -/
def Burner.cleared (s : BurnerState) (x : Burner) : Burner :=
  { Burner.reset with cfg := x.cfg, state := s, flame := x.flame, flameSince := x.flameSince }

/-- The counts of R94 that an entry into a state adds. -/
def BurnerTotals.entered (s : BurnerState) (t : BurnerTotals) : BurnerTotals :=
  match s with
  | .igniting => { t with lightOffs := t.lightOffs + 1 }
  | .tripped => { t with trips := t.trips + 1 }
  | .held => { t with helds := t.helds + 1 }
  | _ => t

/-- LIGHT-OFF is given back in the event in which a burner leaves the states that hold or request it (R78); a mix ramp
ends when the burner leaves LOADING and FIRING (R118). DESIGN CHOICE (log 10): LIGHT-OFF goes before MIX-CHANGE, so their
RELEASE frames and RESOURCE events stand in that order. -/
def Part.leaveFor (b : Fin 2) (s : BurnerState) (p : Part) : Part :=
  let p := if s = .lightWait ∨ s = .igniting ∨ s = .loading then p else p.withdraw 0 b.val
  if s.fires then p else p.endRamp b

/-- A burner's change of state: LIGHT-OFF and mix ramp given up where the new state has none, items of R77 removed and
those of the new state set by `fix`, igniter output (R78), setpoints (R108), feeder states (R100), counts (R94) and
BURNER event (R93). DESIGN CHOICE (log 10): the RESOURCE event of a release stands before the BURNER event. -/
def Part.burnerTo (b : Fin 2) (s : BurnerState) (fix : Burner → Burner) (p : Part) (mark : Bool := false) : Part :=
  let p := (p.leaveFor b s).updBurner b fun x => fix (x.cleared s)
  let p := p.updOutput fun o => { o with igniter := o.igniter.set b (s == .igniting) }
  let p := (if s = .off ∨ s = .held ∨ s = .tripped then p.zeroSetpoints b else p).settleFeedersOf b
  let p := p.record (ShiftRec.updBurner b (BurnerTotals.entered s))
  p.offer .burner b.val s.code mark

/-- LIGHT_WAIT with its continuation and deadline, LIGHT-OFF requested (R81). -/
def Part.enterLightWait (b : Fin 2) (cont : BurnerState) (p : Part) : Part :=
  (p.burnerTo b .lightWait fun x => { x with cont := some cont, lightWait := some (later p.now lightWaitTime) }).request
    0 b.val

/-- IGNITING (R82). -/
def Part.enterIgniting (b : Fin 2) (p : Part) : Part :=
  p.burnerTo b .igniting fun x =>
    { x with ignition := some (later p.now (x.cfg.ignition * 1000)), proving := if x.flame then some p.now else none }

/-- LOADING (R83). -/
def Part.enterLoading (b : Fin 2) (p : Part) : Part :=
  p.burnerTo b .loading fun x =>
    { x with loading := some (later p.now (x.cfg.loading * 1000)), absent := if x.flame then none else some p.now }

/-- FIRING (R83, R92): the flame-absent start stays through the change from LOADING, and FLAME WEAK begins at entry if
the intensity is below then (R85). -/
def Part.enterFiring (b : Fin 2) (p : Part) : Part :=
  p.burnerTo b .firing fun x =>
    { x with absent := p.burners[b].absent, weak := if p.flameBelowWeak b then some ⟨p.now, false⟩ else none }

/-- OFF, every item removed. -/
def Part.enterOff (b : Fin 2) (p : Part) (mark : Bool := false) : Part := p.burnerTo b .off id mark

/-- STOPPING (R87). -/
def Part.enterStopping (b : Fin 2) (p : Part) : Part := p.burnerTo b .stopping id

/-- HELD on a permit loss or on a conflict (R90). -/
def Part.hold (b : Fin 2) (conflict : Bool) (p : Part) : Part :=
  p.burnerTo b .held fun x =>
    { x with heldStep := some p.burners[b].state, heldUntil := some (later p.now (x.cfg.held * 1000)),
             causePermit := !p.permitGood b, causeConflict := conflict }

/-- The point of BURNER HELD of a burner (R140). -/
def heldPoint (b : Fin 2) : Fin 62 := ⟨13 + 4 * b.val, by omega⟩

/-- A bound TRIP activation takes the burner to TRIPPED from every state but OFF and TRIPPED (R88). -/
def Part.tripBurner (b : Fin 2) (p : Part) : Part :=
  if !p.burners[b].cfg.used || p.burners[b].state == .off || p.burners[b].state == .tripped then p
  else p.burnerTo b .tripped id

/-- The route of a resume: FIRING, or LIGHT_WAIT with a continuation (R92). -/
def Burner.route (x : Burner) : Option BurnerState :=
  if x.flame then
    match x.heldStep with
    | some .firing => none
    | some .loading => some .loading
    | _ => some .igniting
  else some .igniting

/-- A resume made (R92). -/
def Part.resume (b : Fin 2) (p : Part) : Part :=
  match p.burners[b].route with
  | none => p.enterFiring b
  | some c => p.enterLightWait b c

/-- The hold causes follow their sources while the burner is HELD (R91). -/
def Part.followCauses (b : Fin 2) (p : Part) : Part :=
  p.updBurner b fun x =>
    if x.state = .held then
      { x with causePermit := !p.permitGood b, causeConflict := p.claims[(0 : Fin 3)].conflict.isSome }
    else x

/-- The terms of a resume without a command (R92). -/
def Part.mayAutoResume (b : Fin 2) (p : Part) : Bool :=
  let x := p.burners[b]
  x.cfg.used && x.state == .held && !x.causePermit && !x.causeConflict && x.cfg.autoResume && p.alarms.autoResume &&
    (x.route.isNone || !p.line.silent)

def Part.autoResume (b : Fin 2) (p : Part) : Part := if p.mayAutoResume b then p.resume b else p

/-- Hold causes followed and the auto-resume test made. DESIGN CHOICE (log 10): burner 0 before burner 1. -/
def Part.settleHolds (p : Part) : Part := p.forAll burnerIds fun b p => (p.followCauses b).autoResume b

/-- Every feeder of the burner that is not LOCAL has setpoint 0 (R87). -/
def Part.feedersStopped (b : Fin 2) (p : Part) : Bool :=
  (p.feedersOf b).all fun f => p.feeders[f].state == .inLocal || p.feeders[f].setpoint == 0

/-- The end of STOPPING (R87). -/
def Part.checkStopped (b : Fin 2) (p : Part) : Part :=
  if p.burners[b].state = .stopping ∧ p.feedersStopped b = true then p.enterOff b else p

end Sys2Proof.Machine
end

