-- ==== Sys2Proof/Machine/FeederOps.lean ====
section
/-! DEFINITION. The Feeder Controller's operations (chapter 6): takeover, pulses, buckets and totals, the setpoint ramp,
the trim, and the two timers. -/

namespace Sys2Proof.Machine

open Sys2Proof.Config

/-! ## Takeover (R110, R111) -/

/-- A feeder enters LOCAL (R110); its setpoint stands until the next control period. The capacity of its burner is
frozen if it is the first (R64). -/
def Part.enterLocal (f : Fin 6) (p : Part) : Part :=
  let b := p.feeders[f].cfg.burner
  (((p.feederTo f .inLocal p.feeders[f].setpoint).offer .feeder f.val 1).freeze b).checkStopped b

/-- A feeder leaves LOCAL, bumplessly when its burner wants it (R111): RUNNING even at rate 0, until a term of R100
changes. The frozen capacity of its burner goes with the last (R64). DESIGN CHOICE (log 10): the FEEDER event stands before
the BURNER event of an end of stopping. -/
def Part.leaveLocal (f : Fin 6) (p : Part) : Part :=
  let x := p.feeders[f]
  let p := (if p.wanted f then p.feederTo f .running (min x.rate x.cfg.maxRate) else p.feederTo f .stopped 0).offer
    .feeder f.val 0
  (p.freeze x.cfg.burner).checkStopped x.cfg.burner

/-- The local input of a feeder taken at a scan (R100, R110, R111); `before` is the channel as the scan found it. The
image changes only there. -/
def Part.takeLocal (before : Channel Bool) (f : Fin 6) (p : Part) : Part :=
  let x := p.feeders[f]
  let sw := p.field.image.inLocal[f]
  if !p.started || !x.cfg.used || !sw.valid then p
  else if sw.value then (if x.state = .inLocal then p else p.enterLocal f)
  else if x.state = .inLocal then p.leaveLocal f
  else if sw = before then p
  else p.settleFeeder f

/-! ## Pulses (R102 to R104) -/

/-- The measurement becomes BAD: held rate, no timers (R104). -/
def Feeder.spoil (x : Feeder) : Feeder :=
  { x with baseline := none, whole := false, measBad := true, devTimer := none, noFlow := none }

/-- One scan of the pulse count (R102); a delta above 0 removes the no-flow timer (R113). -/
def Feeder.scan (c : Channel Nat) (x : Feeder) : Feeder :=
  if c.valid then
    match x.baseline with
    | some base =>
      let delta := (c.value + 65536 - base) % 65536
      { x with baseline := some c.value, bucket := x.bucket + delta,
               noFlow := if 0 < delta then none else x.noFlow }
    | none => { x with baseline := some c.value }
  else x.spoil

/-- The measured rate formed from the ring (R103); 0 while the ring is empty. -/
def ringRate (ring : List Nat) (weight : Nat) : Nat :=
  if ring.isEmpty then 0
  else satAt 65000 (roundHalfUp (ring.sum * weight * 3600) (1000 * ring.length))

/-- The newest W entries of the ring, oldest first. -/
def joinRing (w p : Nat) (ring : List Nat) : List Nat :=
  let r := ring ++ [p]
  r.drop (r.length - w)

/-- The close of a bucket (R103, R104): a whole bucket joins the ring, the rate is formed anew and the measurement is
GOOD; the next bucket starts empty and can be whole. -/
def Feeder.closeBucket (x : Feeder) : Feeder :=
  let x :=
    if x.whole then
      let ring := joinRing x.cfg.window x.bucket x.ring
      { x with ring := ring, rate := ringRate ring x.cfg.weight, measBad := false }
    else x
  { x with bucket := 0, whole := true }

/-- The kg and kWh a bucket completes, with the remainders carried on (R105). -/
def Feeder.massOf (x : Feeder) : Nat := x.gramRem + x.bucket * x.cfg.weight

def Feeder.energyOf (cv : Nat) (x : Feeder) : Nat := x.energyRem + x.bucket * x.cfg.weight * cv

/-- The totals of one bucket added to the lifetime totals and to the open record (R105). -/
def Part.totalize (f : Fin 6) (p : Part) : Part :=
  let x := p.feeders[f]
  let g := x.massOf
  let e := x.energyOf (p.cvOf f)
  let kg : Count := BitVec.ofNat 32 (g / 1000)
  let kWh : Count := BitVec.ofNat 32 (e / 3600000)
  (p.updFeeder f fun x =>
    { x with gramRem := g % 1000, energyRem := e % 3600000, kg := x.kg + kg, kWh := x.kWh + kWh }).record
    (ShiftRec.updFeeder f fun t => { t with kg := t.kg + kg, kWh := t.kWh + kWh })

/-- One running second where the feeder is RUNNING, or LOCAL with its running bit asserted and valid (R106). -/
def Part.countRunning (f : Fin 6) (p : Part) : Part :=
  let x := p.feeders[f]
  let bit := p.field.image.running[f]
  if x.state = .running ∨ (x.state = .inLocal ∧ bit.valid = true ∧ bit.value = true) then
    (p.updFeeder f fun x => { x with seconds := x.seconds + 1 }).record
      (ShiftRec.updFeeder f fun t => { t with seconds := t.seconds + 1 })
  else p

/-- The second boundary of one used feeder: totals and running second, then the bucket closes. DESIGN CHOICE (log 33): step
1 of R107 names R103 and R105 only; the running second of R106 is counted there too, on the state that the feeder has before
step 3 finds it again. -/
def Part.secondOfFeeder (f : Fin 6) (p : Part) : Part :=
  if p.feeders[f].cfg.used then ((p.totalize f).countRunning f).updFeeder f Feeder.closeBucket else p

/-! ## Setpoint, trim, timers (R108, R109, R112, R113) -/

/-- One ramp step toward the mass target (R108). -/
def Feeder.ramp (target : Nat) (x : Feeder) : Feeder :=
  let r := x.rampRem + x.cfg.ramp
  let step := r / 5
  if (if x.setpoint ≤ target then target - x.setpoint else x.setpoint - target) ≤ step then
    { x with setpoint := target, rampRem := 0 }
  else if x.setpoint < target then { x with setpoint := x.setpoint + step, rampRem := r % 5 }
  else { x with setpoint := x.setpoint - step, rampRem := r % 5 }

/-- The setpoint of a control period by state (R108). -/
def Feeder.moveSetpoint (target : Nat) (x : Feeder) : Feeder :=
  match x.state with
  | .running => x.ramp target
  | .stopped => { x with setpoint := 0, rampRem := 0 }
  | .inLocal => { x with setpoint := x.rate }
  | .unused => x

/-- The trim of a RUNNING feeder at a control period (R109). -/
def Feeder.updateTrim (x : Feeder) : Feeder :=
  if x.state = .running ∧ x.measBad = false ∧ x.ring ≠ [] ∧ x.cfg.gain ≠ 0 then
    { x with trim := clampInt (x.trim +
        Int.tdiv (((x.setpoint : Int) - x.rate) * 1000 * x.cfg.gain) (x.cfg.maxRate * 100)) (-200) 200 }
  else x

/-- Setpoint and measured rate stand further apart than the deviation limit. -/
def Feeder.deviates (x : Feeder) : Bool :=
  decide (x.cfg.deviation < ((x.setpoint : Int) - x.rate).natAbs)

/-- The two timers tested at a control period, with the speed command just formed (R112, R113). -/
def Feeder.testTimers (now : Time) (speed : Nat) (x : Feeder) : Feeder :=
  if x.state = .running ∧ x.measBad = false then
    { x with devTimer := if x.deviates then x.devTimer.or (some ⟨now, false⟩) else none,
             noFlow := if 200 ≤ speed then x.noFlow.or (some ⟨now, false⟩) else none }
  else { x with devTimer := none, noFlow := none }

end Sys2Proof.Machine
end

