-- ==== Sys2Proof/Machine/Allocation.lean ====
section
/-! DEFINITION. The heat arithmetic of the Allocation Unit (chapter 4): one evaluation as a chain of its stages, and the
delivered heat of a feeder control period. -/

namespace Sys2Proof.Machine

open Sys2Proof.Config

/-! ## Stage 1: zone demand (R58) -/

def Part.stageDemand (p : Part) (a : Alloc) : Alloc :=
  match p.demandSource with
  | some q => { a with demand := p.offeredBy q, demandHeld := false }
  | none => { a with demandHeld := true }

/-! ## Stage 2: air ceiling and effective demand (R60 to R62) -/

/-- The allowance of contents for the destination of a zone. -/
def statAllowance (z : Zone) (c : List Byte) : Nat :=
  match z with
  | .kiln => statSecondary c
  | .calciner => statTertiary c
  | .none => 0

def statFans (z : Zone) (c : List Byte) : Nat :=
  match z with
  | .kiln => statFansSec c
  | .calciner => statFansTer c
  | .none => 0

/-- The own allowance and running fan count for the destination of a zone. -/
def Air.allowance (z : Zone) (a : Air) : Nat :=
  match z with
  | .kiln => a.secondary
  | .calciner => a.tertiary
  | .none => 0

def Air.fans (z : Zone) (a : Air) : Nat :=
  match z with
  | .kiln => a.fansSec
  | .calciner => a.fansTer
  | .none => 0

/-- The air sum A over the own station and every LIVE fresh peer of any zone (R60). -/
def Part.airSum (p : Part) : Nat :=
  satAt 65535 (p.air.allowance p.cfg.zone + sumOver stations fun q => ((p.fresh q).map (statAllowance p.cfg.zone)).getD 0)

/-- Air is known while some fan to the destination runs (R60). DESIGN CHOICE (log 34): the spec states no range for the
running fan counts of a STATUS, so a count above the 4 fans of a station is summed as received. -/
def Part.airKnown (p : Part) : Bool :=
  decide (0 < p.air.fans p.cfg.zone + sumOver stations fun q => ((p.fresh q).map (statFans p.cfg.zone)).getD 0)

/-- The table of R61, and the first evaluation at START STATION, whose state before is DISABLED (R73). -/
def Part.stageCeiling (p : Part) (a : Alloc) : Alloc :=
  if !p.cfg.airCeiling then { a with ceilState := .disabled, ceiling := none, holdDeadline := none }
  else if p.airKnown then
    { a with ceilState := .air, airSum := p.airSum, lastAir := p.airSum, ceiling := some p.airSum, holdDeadline := none }
  else
    match a.ceilState with
    | .air => { a with ceilState := .hold, airSum := p.airSum, holdDeadline := some (later p.now holdTime),
                       ceiling := some a.lastAir }
    | .hold => { a with airSum := p.airSum }
    | _ => { a with ceilState := .fallback, airSum := p.airSum, ceiling := some p.cfg.fallback, holdDeadline := none }

/-- D_eff = min(D, ceiling), and air-limited (R62). -/
def Alloc.stageEffective (a : Alloc) : Alloc :=
  let d := match a.ceiling with | some c => min a.demand c | none => a.demand
  { a with dEff := d, airLimited := decide (d < a.demand) }

/-! ## Stage 3: capacities (R63 to R65) -/

def Part.maxHeat (p : Part) (f : Fin 6) : Nat :=
  if p.feeders[f].cfg.used then satAt 65535 (roundHalfUp (p.feeders[f].cfg.maxRate * p.cvOf f) 36000) else 0

/-- The least of a list of limits, saturated at 65535. -/
def leastOf (l : List Nat) : Nat := l.foldl min 65535

/-- The capacity of a burner by its state (R64). -/
def Part.burnerCapacity (p : Part) (a : Alloc) (b : Fin 2) : Nat :=
  if p.burners[b].state.fires then
    match a.frozen[b] with
    | some c => c
    | none =>
      leastOf (((p.feedersOf b).filter fun f => decide (0 < p.feeders[f].mix)).map fun f =>
        a.maxHeat[f] * 1000 / p.feeders[f].mix)
  else 0

def Part.stageCapacity (p : Part) (a : Alloc) : Alloc :=
  let a := { a with maxHeat := Vector.ofFn p.maxHeat }
  let caps : Vector Nat 2 := Vector.ofFn (p.burnerCapacity a)
  let total := sumOver burnerIds fun b => caps[b]
  let c := satAt 65535 total
  { a with capB := caps, total := total,
           capacity := match p.mode with
             | .run => c
             | .heatUp => min c p.cfg.heatUpLimit
             | _ => 0 }

/-! ## Stage 4: the station target (R66) -/

/-- The capacity a station brings to the sums of its zone. -/
def Part.zoneCapacity (p : Part) (own : Nat) (q : Fin 16) : Nat :=
  if q = p.strapStation then own
  else match p.fresh q with
    | some c => if statZone c = some p.cfg.zone then statCapacity c else 0
    | none => 0

def Part.stageTarget (p : Part) (a : Alloc) : Alloc :=
  let s := sumOver stations (p.zoneCapacity a.capacity)
  let prev := sumOver (stations.filter (· < p.strapStation)) (p.zoneCapacity a.capacity)
  let pOwn := prev + a.capacity
  { a with sumS := s, pPrev := prev, pOwn := pOwn,
           target := if s = 0 then 0 else if s ≤ a.dEff then a.capacity else a.dEff * pOwn / s - a.dEff * prev / s,
           shortfall := if s = 0 then decide (0 < a.dEff) else decide (s < a.dEff) }

/-! ## Stages 5 to 7: burner, heat and mass targets (R67 to R69) -/

/-- The piece of a whole h that falls to a share between the cumulative points lo and hi of total t. -/
def share (h t lo hi : Nat) : Nat := h * hi / t - h * lo / t

def Alloc.burnerTarget (a : Alloc) (b : Fin 2) : Nat :=
  let prev := sumOver (burnerIds.filter (· < b)) fun c => a.capB[c]
  share a.target a.total prev (prev + a.capB[b])

def Part.heatTarget (p : Part) (a : Alloc) (f : Fin 6) : Nat :=
  let b := p.feeders[f].cfg.burner
  if p.feeders[f].cfg.used && p.burners[b].cfg.used then
    let prev := sumOver ((p.feedersOf b).filter (· < f)) fun g => p.feeders[g].mix
    share a.targetB[b] 1000 prev (prev + p.feeders[f].mix)
  else 0

/-- The mass target of a feeder by the state of its burner (R69). -/
def Part.massTarget (p : Part) (a : Alloc) (f : Fin 6) : Nat :=
  let x := p.feeders[f]
  let b := p.burners[x.cfg.burner]
  if !x.cfg.used then 0
  else match b.state with
    | .loading | .firing =>
      if x.mix = 0 then 0
      else if p.cvOf f = 0 then x.cfg.minRate
      else clampNat (roundHalfUp (a.heatF[f] * 36000) (p.cvOf f)) x.cfg.minRate x.cfg.maxRate
    | .igniting => if b.cfg.feeder = f then min b.cfg.rate x.cfg.maxRate else 0
    | _ => 0

def Part.stageSplit (p : Part) (a : Alloc) : Alloc :=
  let a := { a with targetB := Vector.ofFn a.burnerTarget }
  let a := { a with heatF := Vector.ofFn (p.heatTarget a) }
  { a with massF := Vector.ofFn (p.massTarget a) }

/-! ## The evaluation (R55, R56) -/

/-- The results of one evaluation, all together. -/
def Part.evaluated (p : Part) : Alloc :=
  p.stageSplit (p.stageTarget (p.stageCapacity (p.stageCeiling (p.stageDemand p.alloc)).stageEffective))

/-- One evaluation, while STARTED in zone KILN or CALCINER; the record's peak D_eff is raised to it (R71). -/
def Part.evaluate (p : Part) : Part :=
  if p.started && p.cfg.zone != .none then
    { p with alloc := p.evaluated }.record fun r => { r with peak := max r.peak p.evaluated.dEff }
  else p

/-! ## Delivered heat (R70) -/

def Part.deliveredOver (p : Part) (l : List (Fin 6)) : Nat :=
  satAt 65535 (roundHalfUp (sumOver l fun f => p.feeders[f].rate * p.cvOf f) 36000)

/-- Station and burner delivered heat computed from the measured or held rates. -/
def Part.deliverHeat (p : Part) : Part :=
  { p with alloc := { p.alloc with
      delivered := p.deliveredOver (feederIds.filter fun f => p.feeders[f].cfg.used),
      deliveredB := Vector.ofFn fun b => if p.burners[b].cfg.used then p.deliveredOver (p.feedersOf b) else 0 } }

end Sys2Proof.Machine
end

