-- ==== Sys2Proof/Machine/AlarmOps.lean ====
section
/-! DEFINITION. The Alarm Unit's moves of a point (R142), activation and trip (R145 to R147), the horn (R156), and the
settling of an event: every term that an event may have changed is found again (R42, R55, R91, R92, R141). -/

namespace Sys2Proof.Machine

open Sys2Proof.Config

/-- The horn state, written into the output image at each change (R156). -/
def Part.setHorn (on : Bool) (p : Part) : Part :=
  (p.updAlarms fun a => { a with horn := on }).updOutput fun o => { o with horn := on }

/-- Some point of class TRIP or ALARM stands in ACTIVE. -/
def Part.soundingPoint (p : Part) : Bool :=
  pointIds.any fun i => p.alarms.points[i].state == .active &&
    ((p.pointAttr i).cls == .trip || (p.pointAttr i).cls == .alarm)

/-- After an acknowledgement or a fall, the horn goes off when no TRIP or ALARM point stands in ACTIVE (R156). -/
def Part.hornCheck (p : Part) : Part := if p.soundingPoint then p else p.setHorn false

/-- The end of an event in which point i rose and fell: if the rise was an activation the point stands CLEARED, and the
horn it turned on sounds on, whatever other falls the event brought (R156; the order of those falls is log 10). -/
def Part.keepHorn (i : Fin 62) (p : Part) : Part := if p.alarms.points[i].state = .cleared then p.setHorn true else p

/-- A POINT event with the point's origin where it has one to report (R142, R157): LINE TRIP RECEIVED is point 2,
RESOURCE CONFLICT point 6. DESIGN CHOICE (log 37): a RESOURCE CONFLICT asserted again by a conflict with another peer carries
the point's origin (R142), the peer of its last activation, and not the peer that the mark names by then (R157). -/
def Part.offerPoint (i : Fin 62) (s : PointState) (p : Part) : Part :=
  let o := if i = 2 ∨ i = 6 then p.alarms.points[i].origin else none
  p.offer .point i.val s.code false ((o.map Origin.station).getD 0) (o.bind Origin.point)

/-- The origin an activation takes: the entry that raised LINE TRIP RECEIVED (R152), or the peer a conflict mark names
(R145). -/
def Part.activationOrigin (i : Fin 62) (p : Part) : Option Origin :=
  if i = 2 then
    let q := (p.alarms.raisedBy.filter fun q => p.alarms.peerTrips[q].isSome).or
      (stations.find? fun q => p.alarms.peerTrips[q].isSome)
    q.bind fun q => p.alarms.peerTrips[q].map fun t => ⟨q.val + 1, t.point, t.seq⟩
  else if i = 6 then
    (resourceIds.findSome? fun k => p.claims[k].conflict).map fun q => ⟨q.val + 1, none, none⟩
  else p.alarms.points[i].origin

def ClassFlags.set (c : AlarmClass) (f : ClassFlags) : ClassFlags :=
  match c with
  | .trip => { f with trip := true }
  | .alarm => { f with alarm := true }
  | .warning => { f with warning := true }
  | .notice => { f with notice := true }

/-- One activation counted in a record by class (R145). -/
def ShiftRec.activation (c : AlarmClass) (r : ShiftRec) : ShiftRec :=
  match c with
  | .trip => { r with actTrip := r.actTrip + 1 }
  | .alarm => { r with actAlarm := r.actAlarm + 1 }
  | .warning => { r with actWarning := r.actWarning + 1 }
  | .notice => { r with actNotice := r.actNotice + 1 }

/-- A TRIP activation in a record: first trip, and the trip list of 8 with the count beyond it (R146). -/
def ShiftRec.tripped (e : TripEntry) (r : ShiftRec) : ShiftRec :=
  let r := { r with firstTrip := r.firstTrip.or (some e) }
  if r.trips.length < tripListSize then { r with trips := r.trips ++ [e] } else { r with tripsBeyond := r.tripsBeyond + 1 }

/-- The first-out record filled, or its consequent count raised; TRIP NEW pending (R146, R154). -/
def Part.fillFirstOut (i : Fin 62) (o : Option Origin) (p : Part) : Part :=
  p.updAlarms fun a =>
    let r : FirstOut := match a.firstOut with
      | none => ⟨i, p.now, o, 0⟩
      | some r => { r with consequent := satAt 255 (r.consequent + 1) }
    { a with firstOut := some r, tripNew := true }

/-- A line-wide activation: the trip sequence rises and a TRIP frame is queued (R147). -/
def Part.tripLine (i : Fin 62) (p : Part) : Part :=
  (p.updAlarms fun a => { a with tripSeq := a.tripSeq + 1 }).queueFrame (.trip i (p.alarms.tripSeq + 1))

/-- The burners bound to a point are tripped, burner 0 before burner 1 (R146). -/
def Part.tripBound (b : Binding) (p : Part) : Part :=
  match b with
  | .none => p
  | .station => (p.tripBurner 0).tripBurner 1
  | .burner b => p.tripBurner b

/-- What an activation of a TRIP point does (R146); its origin is local but for LINE TRIP RECEIVED. -/
def Part.actTrip (i : Fin 62) (p : Part) : Part :=
  let a := p.pointAttr i
  let o := if i = 2 then p.alarms.points[i].origin else none
  let p := ((p.tripBound a.binding).fillFirstOut i o).record (ShiftRec.tripped ⟨i, p.now, o⟩)
  if a.lineWide then p.tripLine i else p

/-- An entry of a point into ACTIVE (R145). -/
def Part.activate (i : Fin 62) (p : Part) : Part :=
  let a := p.pointAttr i
  let o := p.activationOrigin i
  let p := (p.updPoint i fun x => { x with state := .active, lastActivation := some p.now, origin := o }).offerPoint i .active
  let p := p.updAlarms fun x => { x with seen := x.seen.set a.cls, autoResume := x.autoResume && !a.latching }
  let p := if a.cls = .trip ∨ a.cls = .alarm then p.setHorn true else p
  let p := p.record (ShiftRec.activation a.cls)
  if a.cls = .trip then p.actTrip i else p

/-- A point in a new state other than ACTIVE, with its POINT event (R142). -/
def Part.movePoint (i : Fin 62) (s : PointState) (p : Part) : Part :=
  (p.updPoint i fun x => { x with state := s }).offerPoint i s

/-- The effective condition rises (R142). -/
def Part.risePoint (i : Fin 62) (p : Part) : Part :=
  match p.alarms.points[i].state with
  | .normal | .cleared => p.activate i
  | .clearedAcked => p.movePoint i .activeAcked
  | _ => p

/-- The effective condition falls (R142). -/
def Part.fallPoint (i : Fin 62) (p : Part) : Part :=
  match p.alarms.points[i].state with
  | .active => p.movePoint i .cleared
  | .activeAcked => if (p.pointAttr i).latching then p.movePoint i .clearedAcked else p.movePoint i .normal
  | _ => p

/-- A fall from this state may turn the horn off (R156): it is a fall taken in a later event than the point's activation.
`sameEvent` says that the condition rose in the event of the fall. That rise was the activation of a point now ACTIVE; a
point now ACTIVE_ACKED it only asserted again, and its activation lies in an earlier event. -/
def PointState.quietedByFall (sameEvent : Bool) (s : PointState) : Bool :=
  s == .activeAcked || (s == .active && !sameEvent)

/-- A point's effective condition is found and its change moves the point; a shelved point is not moved (R141, R142).
With `sameEvent` the fall belongs to the event of the rise, and where that was an activation the horn stays (R156). -/
def Part.settlePoint (i : Fin 62) (p : Part) (sameEvent : Bool := false) : Part :=
  let e := p.effective i
  let x := p.alarms.points[i]
  if e = x.eff then p
  else
    let p := p.updPoint i fun x => { x with eff := e }
    if x.shelvedUntil.isSome then p
    else if e then p.risePoint i
    else if x.state.quietedByFall sameEvent then (p.fallPoint i).hornCheck
    else p.fallPoint i

def Part.settlePoints (l : List (Fin 62)) (p : Part) : Part := p.forAll l fun i p => p.settlePoint i

/-- The internal points that trip nothing: 3 to 9, FLAME WEAK and BURNER HELD of each burner, and 18 to 44. -/
def quietPoints : List (Fin 62) :=
  pointIds.filter fun i => (3 ≤ i.val && i.val ≤ 9) || (12 ≤ i.val && i.val ≤ 13) || (16 ≤ i.val && i.val ≤ 44)

/-- The end of an event that can move no TRIP point and no external point: service, frozen capacities, an evaluation,
and the conditions they leave. -/
def Part.settle (p : Part) : Part := (((p.serviceAll).freezeAll).evaluate).settlePoints quietPoints

/-- Every point but ZONE SHORTFALL, AIR CEILING ACTIVE and AIR FALLBACK, whose conditions are handed on when an
evaluation ends (R56). -/
def promptPoints : List (Fin 62) := pointIds.filter fun i => i.val < 7 || 9 < i.val

/-- The end of any other event: every point but 7 to 9 in ascending number, hold causes and auto-resume, then `settle`,
which finds points 7 to 9, and again those that the evaluation may have left otherwise. DESIGN CHOICE (log 1): a point
armed by a new mode is found against the evaluation that the event itself runs, so that SET MODE raises no ZONE SHORTFALL
that its step 4 takes away (R75). -/
def Part.settleAll (p : Part) : Part := ((p.settlePoints promptPoints).settleHolds).settle

end Sys2Proof.Machine
end

