-- ==== Sys2Proof/Machine/Users.lean ====
section
/-! DEFINITION. The cooler's fans and grate as users and drives (chapter 7), and what every user of a line resource does
when it is told: granted (R45), aborted (R47), refused (R51). -/

namespace Sys2Proof.Machine

open Sys2Proof.Config

/-! ## Fans (R123 to R128) -/

def FanTotals.entered (s : FanState) (t : FanTotals) : FanTotals :=
  match s with
  | .starting => { t with starts := t.starts + 1 }
  | .tripped => { t with trips := t.trips + 1 }
  | _ => t

/-- The fan in a new state with its timers, held flow and conditions removed; configuration, SP and the contribution of
the last cooling period stay. -/
def Fan.cleared (s : FanState) (x : Fan) : Fan :=
  { Fan.reset with cfg := x.cfg, state := s, sp := x.sp, contribution := x.contribution }

/-- The outputs a fan's state sets (R123); in RUNNING the speed command is left to the flow control. -/
def OutputImage.fanTo (n : Fin 4) (s : FanState) (o : OutputImage) : OutputImage :=
  match s with
  | .starting => { o with fanRun := o.fanRun.set n true, fanSpeed := o.fanSpeed.set n 200 }
  | .running => { o with fanRun := o.fanRun.set n true }
  | _ => { o with fanRun := o.fanRun.set n false, fanSpeed := o.fanSpeed.set n 0 }

/-- A fan's change of state: HEAVY-START given back where the new state has none, outputs, counts (R136), FAN event.
DESIGN CHOICE (log 10): the RESOURCE event of a release stands before the FAN event. -/
def Part.fanTo (n : Fin 4) (s : FanState) (p : Part) : Part :=
  let p := if s = .startWait ∨ s = .starting then p else p.withdraw 1 n.val
  let p := (p.updFan n fun x => x.cleared s).updOutput (OutputImage.fanTo n s)
  let p := p.record (ShiftRec.updFan n (FanTotals.entered s))
  p.offer .fan n.val s.code

/-- STARTING on the grant, with its start deadline (R125). -/
def Part.enterStarting (n : Fin 4) (p : Part) : Part :=
  (p.fanTo n .starting).updFan n fun x => { x with startUntil := some (later p.now (x.cfg.startTime * 1000)) }

/-- The run feedback of a fan is present (R123). -/
def Part.fanFeedback (n : Fin 4) (p : Part) : Bool :=
  p.field.image.fanRun[n].valid && p.field.image.fanRun[n].value

/-- The point of FAN TRIP of a fan (R140). -/
def fanTripPoint (n : Fin 4) : Fin 62 := ⟨36 + 2 * n.val, by omega⟩

/-- The point of FAN START FAIL of a fan (R140). -/
def fanFailPoint (n : Fin 4) : Fin 62 := ⟨37 + 2 * n.val, by omega⟩

/-- The start of a fan fails (R125): FAN START FAIL rises, the fan enters TRIPPED, the condition falls, in one event.
DEDUCED (log 10): the FAN event stands before the POINT event of the fall, as the change of state ends the condition. -/
def Part.failStart (n : Fin 4) (p : Part) : Part :=
  let p := (p.updFan n fun x => { x with startFail := true }).settlePoint (fanFailPoint n)
  (p.fanTo n .tripped).settlePoint (fanFailPoint n) true

/-- The end of an event that may have aborted a start (R47): the horn of a FAN START FAIL that rose and fell in it sounds
on; `before` are the fans as the event found them. -/
def Part.keepAborted (before : Vector Fan 4) (p : Part) : Part :=
  p.forAll fanIds fun n p =>
    if before[n].state = .starting ∧ p.fans[n].state = .tripped then p.keepHorn (fanFailPoint n) else p

/-- The run feedback of a RUNNING fan has been absent for 2 s (R126). -/
def Part.loseFan (n : Fin 4) (p : Part) : Part :=
  let p := (p.updFan n fun x => { x with tripCond := true }).settlePoint (fanTripPoint n)
  (p.fanTo n .tripped).settlePoint (fanTripPoint n) true

/-! ## Grate (R133) -/

/-- The grate in a new state: outputs set, feedback-loss timer and fault removed, GRATE event offered. -/
def Part.grateTo (s : GrateState) (p : Part) : Part :=
  let p := p.updGrate fun g => { g with state := s, fbLoss := none, fault := false }
  let p := p.updOutput fun o =>
    if s = .running then { o with grateRun := true, grateSpeed := p.grate.cfg.minSpeed }
    else { o with grateRun := false, grateSpeed := 0 }
  p.offer .grate 0 s.code

/-- The run feedback of the grate is present. -/
def Part.grateFeedback (p : Part) : Bool := p.field.image.grateRun.valid && p.field.image.grateRun.value

/-- GRATE DRIVE FAULT rises, the grate enters STOPPED, the condition falls, in one event (R133). DESIGN CHOICE (log 10): the
BURNER events of the trip stand before the GRATE event. -/
def Part.faultGrate (p : Part) : Part :=
  let p := (p.updGrate fun g => { g with fault := true }).settlePoint 45
  (p.grateTo .stopped).settlePoint 45 true

/-! ## Mix ramps (R116) -/

/-- RAMPING on the grant: e = 0, the first step at the next second boundary. -/
def Part.startRamp (b : Fin 2) (p : Part) : Part :=
  p.setRamp b (p.ramps[b].map fun r =>
    { r with ramping := true, elapsed := 0, nextStep := nextMultiple p.now second })

/-! ## Users told (R45, R47, R51) -/

/-- The user of k is told that k is granted. -/
def Part.tellGranted (k : Fin 3) (u : Nat) (p : Part) : Part :=
  if k = 1 then p.enterStarting (Fin.ofNat 4 u)
  else if k = 2 then p.startRamp (Fin.ofNat 2 u)
  else
    let b := Fin.ofNat 2 u
    if p.burners[b].cont = some .loading then p.enterLoading b else p.enterIgniting b

/-- A conflict holds burner b (R90): BURNER HELD is found at once, so that a trip later in the same event makes it rise and
fall (R142). -/
def Part.holdOnConflict (b : Fin 2) (p : Part) : Part := (p.hold b true).settlePoint (heldPoint b)

/-- The user of k is told that it has been aborted by a conflict. -/
def Part.tellAborted (k : Fin 3) (u : Nat) (p : Part) : Part :=
  if k = 1 then p.failStart (Fin.ofNat 4 u)
  else if k = 2 then p.endRamp (Fin.ofNat 2 u)
  else p.holdOnConflict (Fin.ofNat 2 u)

/-- A waiting user of k is told NO LINE. -/
def Part.tellRefused (k : Fin 3) (u : Nat) (p : Part) : Part :=
  if k = 1 then p.fanTo (Fin.ofNat 4 u) .stopped
  else if k = 2 then p.endRamp (Fin.ofNat 2 u)
  else p.enterOff (Fin.ofNat 2 u)

/-- k is granted to the record's user (R45): HELD, the user out of the list and told, an immediate STATUS, an event. DESIGN
CHOICE (log 10): the user's own report stands before the RESOURCE event. -/
def Part.grant (k : Fin 3) (p : Part) : Part :=
  match p.claims[k].user with
  | some u =>
    let p := p.updRes k fun r =>
      { r with state := .held, settle := none, note := none, waitList := r.waitList.erase u }
    ((p.tellGranted k u).queueFrame .status).offer .resource k.val 0
  | none => p

/-- A conflict over k with peer q (R47): the station gives k up at once. DESIGN CHOICE (log 10): the aborted user's own
reports stand before the RESOURCE event. -/
def Part.conflict (k : Fin 3) (q : Fin 16) (p : Part) : Part :=
  match p.claims[k].user with
  | some u =>
    let p := ((p.updRes k Resource.toIdle).tellAborted k u).beginReclaim k
    (p.offer .resource k.val 2 false (q.val + 1)).updRes k fun r => { r with conflict := some q }
  | none => p

/-- The station has become SILENT: every waiting and claiming user of k is refused (R51). DESIGN CHOICE (log 10): the users
are refused in the order of the wait list. -/
def Part.refuseSilent (k : Fin 3) (p : Part) : Part :=
  let users := p.claims[k].waitList
  let p := p.updRes k fun r => if r.state = .held then { r with waitList := [] } else { r.toIdle with waitList := [] }
  p.forAll users (Part.tellRefused k)

/-- The attempt in hand, with the break that may end it (log 21), runs to its end without a retry, the rest of the queue is
emptied, the STATUS schedule stops (R19, R24). -/
def Line.emptyQueue (l : Line) : Line :=
  { l with queue := if l.phase = .idle then [] else l.queue.take 1, lastTry := l.phase != .idle, statusDue := none }

/-- SILENT is set (R19), and the Claim Unit refuses its waiting users (R51). DESIGN CHOICE (log 10): resources in ascending
k. -/
def Part.setSilent (p : Part) : Part :=
  (p.updLine fun l => { l.emptyQueue with silent := true }).forAll resourceIds Part.refuseSilent

end Sys2Proof.Machine
end

