-- ==== Sys2Proof/Machine/ShiftOps.lean ====
section
/-! DEFINITION. Closing and opening shift records, the store, and shift numbers taken from peers (chapter 9). -/

namespace Sys2Proof.Machine

open Sys2Proof.Config

/-- A record at its opening: counts 0, first trip and note absent, trip list empty, peak D_eff the present one, and
ENGINEERING OPENED set if the window is OPEN (R164, R71, R190). -/
def Part.newRecord (number : Nat) (origin : OpenOrigin) (incomplete gap : Bool) (p : Part) : ShiftRec :=
  { number := number, origin := origin, openTime := p.now, closeTime := none, incomplete := incomplete, gap := gap,
    calibration := false, engineering := p.host.window.isSome, restarted := false, unreadLost := p.shift.pendingLoss,
    note := none, feeders := .replicate 6 ⟨0, 0, 0⟩, burners := .replicate 2 ⟨0, 0, 0, 0⟩, fans := .replicate 4 ⟨0, 0, 0⟩,
    grateRunning := 0, bedHigh := 0, peak := p.alloc.dEff, airLimited := 0, shortfall := 0, demandHeld := 0,
    accepted := 0, framesLost := 0, bad := 0, retries := 0, failures := 0, actTrip := 0, actAlarm := 0, actWarning := 0,
    actNotice := 0, firstTrip := none, trips := [], tripsBeyond := 0 }

/-- A closed record enters the store at index 0, unread; a ninth record drops, and an unread one counts as a pending
loss (R171). -/
def Shift.keep (r : ShiftRec) (s : Shift) : Shift :=
  let full := (r, false) :: s.store
  let lostUnread := (full.drop storeSize).any fun e => !e.2
  { s with store := full.take storeSize,
           pendingLoss := if lostUnread then satAt 255 (s.pendingLoss + 1) else s.pendingLoss }

/-- The open record takes its close time and enters the store; SHIFT CLOSED becomes pending (R165 steps 1 and 4, R170). -/
def Part.closeRecord (restarted : Bool) (p : Part) : Part :=
  match p.shift.current with
  | some r =>
    let kept := p.shift.keep { r with closeTime := some p.now, restarted := restarted }
    { p with shift := { kept with current := none, closedCause := true } }
  | none => p

/-- A record opens; its unread-lost count takes the pending-loss count, which returns to 0 (R165 step 2, R169 step 3). -/
def Part.openRecord (number : Nat) (origin : OpenOrigin) (incomplete gap : Bool) (p : Part) : Part :=
  { p with shift := { p.shift with current := some (p.newRecord number origin incomplete gap), number := number,
                                   pendingLoss := 0 } }

/-- Close and opening in one event (R165): from N to M, reported with the peer's station number or 0. -/
def Part.changeShift (m : Nat) (origin : OpenOrigin) (station : Nat) (p : Part) : Part :=
  let n := p.shift.number
  (((p.closeRecord false).openRecord m origin false (decide (n + 1 < m))).offer .shift n 1 false station).offer .shift m 0
    false station

/-- A station at shift 0 renumbers its open record without closing it (R168). -/
def Part.renumber (m : Nat) (station : Nat) (p : Part) : Part :=
  let renumbered := p.shift.current.map fun r => { r with number := m, origin := .renumbered station }
  ({ p with shift := { p.shift with number := m, current := renumbered } }).offer .shift m 2 false station

/-- A shift number heard from a peer (R167). -/
def Part.hearShift (m : Nat) (station : Nat) (p : Part) : Part :=
  if !p.started || m ≤ p.shift.number then p
  else if p.shift.number = 0 then p.renumber m station
  else p.changeShift m (.peer station) station

/-- The highest shift number in the fresh contents of LIVE peers (R169 step 1). -/
def Part.highestShift (p : Part) : Nat := (stations.map fun q => ((p.fresh q).map statShift).getD 0).foldl max 0

/-- The first record of a run opens at START STATION (R169). -/
def Part.openAtStart (p : Part) : Part :=
  let kept := p.shift.number
  let h := p.highestShift
  let n := max h kept
  let station :=
    if kept < h then stationNumber (stations.find? fun q => (p.fresh q).any fun c => statShift c == h) else 0
  (p.openRecord n .start true (decide (kept ≠ 0 ∧ kept + 1 < n))).offer .shift n 0 false station

end Sys2Proof.Machine
end

