-- ==== Sys2Proof/Machine/Reception.lean ====
section
/-! DEFINITION. What the station makes of the characters it receives (R13 to R18): the tests of a frame, the Peer Table's
renewal of the sender (chapter 2), and the hand-on to the blocks by kind. -/

namespace Sys2Proof.Machine

open Sys2Proof.Config

/-! ## Counting (R14) -/

/-- A discard: one bad frame, in R22 and in the open record. -/
def Part.badFrame (p : Part) : Part :=
  (p.updLine fun l => { l with counts := { l.counts with bad := l.counts.bad + 1 } }).record fun r =>
    { r with bad := r.bad + 1 }

/-- The partial frame is discarded, and the receiver goes on as `r`. -/
def Part.discardPartial (r : Receiver) (p : Part) : Part :=
  (p.badFrame).updLine fun l => { l with assembly := [], receiver := r }

/-- The receiver takes characters in (R13): it is ready, or behind a whole frame, where they are a partial frame. -/
def Receiver.takesIn : Receiver → Bool
  | .ready | .behind => true
  | .waiting | .deaf => false

/-- A partial frame stands when an event of R14 comes: characters taken in and not yet discarded or whole. `chars` are those
heard before the event and not yet taken in. DESIGN CHOICE (log 39): they are no more than a partial frame, so that characters
which would make those assembled a whole frame are not tested as one (R13, R15). -/
def Part.partialStands (chars : List Byte) (p : Part) : Bool :=
  p.line.receiver.takesIn && !(p.line.assembly.isEmpty && chars.isEmpty)

/-- The line has idled for more than 2 character times (R13): a partial frame is discarded by its gap (R14), whatever
characters it has (DESIGN CHOICE, log 39), and the next character begins a new frame. -/
def Part.lineIdled (chars : List Byte) (p : Part) : Part :=
  if p.partialStands chars then p.discardPartial .ready else p.updLine fun l => { l with receiver := .ready }

/-- Characters reach the receiver: not in LOOPBACK (R3), and not while the station sends or breaks, when every
character is read-back (R10). -/
def Part.listening (p : Part) : Bool := !p.loopback && p.line.phase == .idle

/-! ## The tests of a frame (R4, R15) -/

/-- The LENGTH of each kind, none for a byte that is no KIND (R4). -/
def kindLength (kind : Byte) : Option Nat :=
  if kind = 0x51 then some 25
  else if kind = 0x62 then some 2
  else if kind = 0x63 then some 1
  else if kind = 0x74 then some 3
  else if kind = 0x85 then some 2
  else none

/-- The header tests that the characters received so far allow: SOURCE, KIND and LENGTH, each as it arrives. -/
def headerGood (l : List Byte) : Bool :=
  (l.isEmpty || (1 ≤ byteAt l 0 && byteAt l 0 ≤ 16)) &&
  (l.length < 2 || (kindLength (l.getD 1 0)).isSome) &&
  (l.length < 3 || kindLength (l.getD 1 0) == some (byteAt l 2))

/-- How many characters the frame of a good header has. -/
def frameSize (l : List Byte) : Nat := 6 + byteAt l 2

/-- The CHECK received equals the CRC computed over the bytes before it. -/
def checkGood (l : List Byte) : Bool :=
  crc (l.take (l.length - 2)) == BitVec.ofNat 16 (wordAt l (l.length - 2))

/-! ## Peer Table (R26 to R30) -/

/-- The SEQUENCE gap of a frame against the last one held (R27). -/
def seqGap (last new : Byte) : Nat := if new = last then 0 else (new - last - 1).toNat

/-- The change flags that new contents set against old ones (R29). -/
def ChangeFlags.compare (old new : List Byte) (f : ChangeFlags) : ChangeFlags :=
  { f with mode := f.mode || byteAt old 1 != byteAt new 1,
           trip := f.trip || statLineTrip old != statLineTrip new,
           demand := f.demand || statOffer old != statOffer new || statOffered old != statOffered new,
           joined := f.joined || byteAt old 0 != byteAt new 0 }

/-- The sender's entry renewed: liveness, gap, time and SEQUENCE (R26, R27). -/
def Peer.renew (now : Time) (seq : Byte) (e : Peer) : Peer :=
  let live := e.state = .live
  { e with state := .live,
           flags := if live then e.flags else { e.flags with joined := true },
           lost := if live then satAt 65535 (e.lost + (e.lastSeq.map (seqGap · seq)).getD 0) else e.lost,
           stale := e.stale || (e.state == .lost && e.contents.isSome),
           lastTime := some now, lastSeq := some seq }

/-- STATUS contents taken into an entry (R28, R29). -/
def Peer.take (c : List Byte) (e : Peer) : Peer :=
  { e with contents := some c, stale := false,
           flags := match e.contents with | some old => e.flags.compare old c | none => e.flags }

/-- Step 1 of the hand-on: the Peer Table (R26); a counted gap also goes to the open record. -/
def Part.renewPeer (q : Fin 16) (seq : Byte) (p : Part) : Part :=
  let e := p.peers[q]
  let gap := if e.state = .live then (e.lastSeq.map (seqGap · seq)).getD 0 else 0
  (p.updPeer q (Peer.renew p.now seq)).record fun r => { r with framesLost := r.framesLost + BitVec.ofNat 32 gap }

/-- A LIVE entry's deadline passes (R30): LOST, LOST flag, contents stale; it is claimant of nothing (R40). -/
def Part.losePeer (q : Fin 16) (p : Part) : Part :=
  let p := p.updPeer q fun e =>
    { e with state := .lost, flags := { e.flags with lost := true }, stale := e.stale || e.contents.isSome }
  p.forAll resourceIds fun k => Part.dropClaimant k q

/-! ## Claim Unit (R39, R40, R44, R46) -/

/-- An accepted CLAIM of peer q for k (R40, R44, R46). -/
def Part.hearClaim (k : Fin 3) (user : Nat) (q : Fin 16) (p : Part) : Part :=
  if userCount k ≤ user then p
  else
    let p := p.seeClaim k q (some user)
    let p := if q < p.strapStation then p.yieldClaim k else p
    if p.claims[k].state = .held then p.queueFrame .status else p

/-- An accepted RELEASE of peer q for k: a release note, and no claimant (R39, R40). -/
def Part.hearRelease (k : Fin 3) (q : Fin 16) (p : Part) : Part :=
  (p.updRes k fun r => { r with released := r.released.set q true }).dropClaimant k q

/-- The line view of k as a STATUS taken from peer q shows it: its release note ends, and it is claimant or not (R39, R40).
DESIGN CHOICE (log 24): k shown both claiming and held is taken as held only, and never recorded as a claim. -/
def Part.hearView (c : List Byte) (q : Fin 16) (k : Fin 3) (p : Part) : Part :=
  let p := p.updRes k fun r => { r with released := r.released.set q false }
  if statClaiming c k && !statHeld c k then p.seeClaim k q none else p.dropClaimant k q

/-- A CLAIMING record of k yields to that STATUS (R44). -/
def Part.hearYield (c : List Byte) (q : Fin 16) (k : Fin 3) (p : Part) : Part :=
  if (decide (q < p.strapStation) && statClaiming c k) || statHeld c k then p.yieldClaim k else p

/-- A HELD record of k meets a conflict in it (R46, R47). -/
def Part.hearConflict (c : List Byte) (q : Fin 16) (k : Fin 3) (p : Part) : Part :=
  if decide (q < p.strapStation) && statHeld c k && p.claims[k].state == .held then p.conflict k q else p

/-- A STATUS taken from peer q, as the Claim Unit reads its sets. The views of all three resources are found from it before
anything acts on one of them (R39): what a conflict leaves, a service tried again among it, meets no view of an older
STATUS. DESIGN CHOICE (log 10): views, then yields, then conflicts, each in ascending k. -/
def Part.hearSets (c : List Byte) (q : Fin 16) (p : Part) : Part :=
  ((p.forAll resourceIds (Part.hearView c q)).forAll resourceIds (Part.hearYield c q)).forAll resourceIds
    (Part.hearConflict c q)

/-! ## Alarm Unit (R151) -/

/-- An entry of the peer trip set is set; the one that makes the set non-empty is noted for the origin (R151, R152). -/
def Part.setPeerTrip (q : Fin 16) (t : PeerTrip) (p : Part) : Part :=
  p.updAlarms fun a =>
    { a with peerTrips := a.peerTrips.set q (some t),
             raisedBy := if a.peerTrips.toList.any (·.isSome) then a.raisedBy else some q }

/-- An entry of the peer trip set is removed. -/
def Part.removePeerTrip (q : Fin 16) (p : Part) : Part :=
  p.updAlarms fun a => { a with peerTrips := a.peerTrips.set q none }

/-- The peer trip entry that a STATUS with the line-trip-active flag set leaves, `old` being the entry before it: the
line-trip origin, with the trip sequence kept for the same point (R151). An origin outside 0–61 is ignored (R28, R199).
DESIGN CHOICE (log 31): what then stands is the entry as it stood, or one without a point where there was none. -/
def peerTripFrom (c : List Byte) (old : Option PeerTrip) : PeerTrip :=
  if statTripPoint c < 62 then
    ⟨some (statTripPoint c), (old.filter fun t => t.point == some (statTripPoint c)).bind PeerTrip.seq⟩
  else old.getD ⟨none, none⟩

/-- A STATUS taken from peer q, as the Alarm Unit reads it (R151). -/
def Part.hearTripFlag (c : List Byte) (q : Fin 16) (p : Part) : Part :=
  if statLineTrip c then p.setPeerTrip q (peerTripFrom c p.alarms.peerTrips[q]) else p.removePeerTrip q

/-! ## Hand-on (R16) -/

/-- Step 2 for a STATUS that is taken: contents, then Claim Unit, Alarm Unit and Shift Recorder; the Allocation Unit and
the Cooler Controller find their values again when the event settles (R31). DESIGN CHOICE (log 25): a shift record that
this STATUS opens begins with the D_eff of the evaluation before it as its peak (R71); it is open before the points that the
event settles are found, so that a RESOURCE CONFLICT or another point they raise is counted in it (R145), and LINE TRIP
RECEIVED, found before, in the record that it closes. -/
def Part.takeStatus (q : Fin 16) (c : List Byte) (p : Part) : Part :=
  if statusTakeable c then
    let p := p.updPeer q (Peer.take c)
    let p := ((p.hearSets c q).hearTripFlag c q).settlePoint 2
    p.hearShift (statShift c) (q.val + 1)
  else p

/-- Step 2 of the hand-on by KIND, with the payload of a valid frame. -/
def Part.handOn (q : Fin 16) (kind : Byte) (c : List Byte) (p : Part) : Part :=
  if kind = 0x51 then p.takeStatus q c
  else if kind = 0x62 then
    match finOf 3 (byteAt c 0) with
    | some k => p.hearClaim k (byteAt c 1) q
    | none => p
  else if kind = 0x63 then
    match finOf 3 (byteAt c 0) with
    | some k => p.hearRelease k q
    | none => p
  else if kind = 0x74 then
    if byteAt c 2 = AlarmClass.trip.code ∧ byteAt c 0 < 62 then p.setPeerTrip q ⟨some (byteAt c 0), some (c.getD 1 0)⟩ else p
  else p.hearShift (wordAt c 0) (q.val + 1)

/-- An accepted frame: counted, renewed at the Peer Table, handed on by kind (R16). -/
def Part.acceptFrame (q : Fin 16) (l : List Byte) (p : Part) : Part :=
  let p := (p.updLine fun x => { x with counts := { x.counts with accepted := x.counts.accepted + 1 } }).record fun r =>
    { r with accepted := r.accepted + 1 }
  let p := p.renewPeer q (l.getD 3 0)
  (p.handOn q (l.getD 1 0) ((l.drop 4).take (byteAt l 2))).refreshMarks

/-- A valid frame with the own SOURCE (R18): counted, the deadline set; while STARTED the point moves and trips first,
then the station becomes SILENT (R19). -/
def Part.duplicateFrame (p : Part) : Part :=
  let p := p.updLine fun l =>
    { l with counts := { l.counts with duplicates := l.counts.duplicates + 1 },
             dupDeadline := some (later p.now p.agingTime) }
  if p.started then
    let p := p.settlePoint 1
    if p.line.silent then p else p.setSilent
  else p

/-- A whole frame with a good header: its CHECK, then duplicate or accepted; a valid frame clears line stuck (R17). -/
def Part.wholeFrame (l : List Byte) (p : Part) : Part :=
  if checkGood l then
    let p := p.updLine fun x => { x with stuck := false }
    match stationIndex (byteAt l 0) with
    | some q => if q = p.strapStation then p.duplicateFrame else p.acceptFrame q l
    | none => p
  else p.badFrame

/-- Characters taken in by a receiver that is ready, behind those assembled (R13): a header that fails its test discards
at once, a frame not yet whole stays assembled, a whole frame is tested, and characters behind it are a partial frame. -/
def Part.assemble (chars : List Byte) (p : Part) : Part :=
  let l := p.line.assembly ++ chars
  let n := frameSize l
  if !headerGood l then p.discardPartial .deaf
  else if l.length < 3 ∨ l.length < n then p.updLine fun x => { x with assembly := l }
  else
    let p := (p.updLine fun x => { x with assembly := [], receiver := .behind }).wholeFrame (l.take n)
    if n < l.length then p.discardPartial .deaf else p

/-- Characters reach the receiver (R13, R14): one that waits for idle or is deaf takes none in, and behind a whole frame they
are one partial frame. DEDUCED (log 30): after a pin reset or an own attempt, characters without an error are no partial frame
and are not counted. -/
def Part.takeChars (chars : List Byte) (p : Part) : Part :=
  match p.line.receiver with
  | .ready => p.assemble chars
  | .behind => if chars = [] then p else p.discardPartial .deaf
  | .waiting | .deaf => p

end Sys2Proof.Machine
end

