-- ==== Sys2Proof/Machine/ResourceRows.lean ====
section
/-! DEFINITION. The rows of the Claim Unit (chapter 3): its four timers and READ RESOURCES. -/

namespace Sys2Proof.Machine

/-- The stagger of a WAITING record ends (R42). -/
def Part.endStagger (k : Fin 3) (p : Part) : Part :=
  if p.viewFree k then p.enterClaiming k else p.updRes k fun r => { r with stagger := none }

/-- R42, R43. -/
def execStaggerEnd (k : Fin 3) (s : State) : Host.Outcome State Fault Refusal :=
  s.act fun p =>
    if p.claims[k].state = .waiting then p.whenDue p.claims[k].stagger fun p => (p.endStagger k).settle else p

/-- R45. -/
def execSettleDeadline (k : Fin 3) (s : State) : Host.Outcome State Fault Refusal :=
  s.act fun p =>
    if p.claims[k].state = .claiming then p.whenDue p.claims[k].settle fun p => (p.grant k).settleAll else p

/-- R40. -/
def execClaimantExpiry (k : Fin 3) (s : State) : Host.Outcome State Fault Refusal :=
  s.act fun p =>
    p.whenDue (p.claims[k].claimant.map Claimant.expiry) fun p =>
      (p.updRes k fun r => { r with claimant := none }).settle

/-- R48. -/
def execReclaimDelayEnd (k : Fin 3) (s : State) : Host.Outcome State Fault Refusal :=
  s.act fun p => p.whenDue p.claims[k].reclaim fun p => (p.updRes k fun r => { r with reclaim := none }).settle

/-- The time left on a timer that may be absent, 0 then. -/
def leftOrZero (now : Time) (t : Option Time) : Nat := (t.map (tenthsLeft now)).getD 0

/-- The data of one resource in READ RESOURCES (R52). DESIGN CHOICE (log 12): the time left to the claimant's expiry is 4 bytes
with no presence byte, 0 where no claimant is recorded. -/
def Part.resourceData (p : Part) (k : Fin 3) : List Byte :=
  let r := p.claims[k]
  [byteOf r.state.code] ++ optBytes 1 (fun u => [byteOf u]) r.user ++
  optBytes 4 (fun t => be32 (tenthsLeft p.now t)) r.settle ++
  [boolByte r.stagger.isSome] ++ be32 (leftOrZero p.now r.stagger) ++ be32 (leftOrZero p.now r.reclaim) ++
  [byteOf r.waitList.length] ++ r.waitList.map byteOf ++ [byteOf (stationNumber (p.holder k))] ++
  [byteOf (stationNumber (r.claimant.map Claimant.peer))] ++ be32 (leftOrZero p.now (r.claimant.map Claimant.expiry)) ++
  optBytes 1 (fun u => [byteOf u]) (r.claimant.bind Claimant.purpose) ++
  optBytes 1 (fun q => [byteOf (q.val + 1)]) r.conflict

/-- The data of READ RESOURCES. -/
def Part.resourcesData (p : Part) : List Byte := resourceIds.flatMap p.resourceData

/-- R52. -/
def execReadResources (s : State) : Host.Outcome State Fault Refusal :=
  s.act fun p => p.reply 0x1B .done p.resourcesData

end Sys2Proof.Machine
end

