-- ==== Sys2Proof/Machine/BurnerRows.lean ====
section
/-! DEFINITION. The rows of the Burner Sequencer (chapter 5): plant mode, burner commands, and the burner's timers. -/

namespace Sys2Proof.Machine

open Sys2Proof.Config

/-! ## Plant mode (R74, R75) -/

/-- Every used burner is OFF or TRIPPED. -/
def Part.burnersOut (p : Part) : Bool :=
  burnerIds.all fun b => !p.burners[b].cfg.used || p.burners[b].state == .off || p.burners[b].state == .tripped

/-- The pairs of present and new mode that are taken, and change the mode (R74). -/
def Part.modeAllowed (m : PlantMode) (p : Part) : Bool :=
  match p.mode, m with
  | .stop, .heatUp => true
  | .heatUp, .run => true
  | .heatUp, .coolDown => true
  | .run, .heatUp => true
  | .run, .coolDown => true
  | .coolDown, .heatUp => true
  | .coolDown, .stop => p.burnersOut
  | _, _ => false

/-- What an entry to COOL-DOWN makes of a burner (R75). -/
def Part.coolBurner (b : Fin 2) (p : Part) : Part :=
  if !p.burners[b].cfg.used then p
  else
    match p.burners[b].state with
    | .lightWait | .igniting | .held => p.enterOff b
    | .loading | .firing => p.enterStopping b
    | _ => p

/-- A change of plant mode (R75). DESIGN CHOICE (log 10): step 3 names the MODE event and the BURNER events of the burners
moved on entry to COOL-DOWN without an order between them; the BURNER events are stored first, as the burners move in step
2, burner 0 before burner 1, and the MODE event behind them. -/
def Part.changeMode (m : PlantMode) (p : Part) : Part :=
  let p := { p with mode := m }
  let p := if m = .coolDown then p.forAll burnerIds Part.coolBurner else p
  (p.offer .mode 0 m.code).settleAll

/-- R74, R75. -/
def execSetMode (mode : Nat) (s : State) : Host.Outcome State Fault Refusal :=
  s.act fun p =>
    if !p.started then p.reply 0x28 .wrongLifecycle
    else
      match PlantMode.ofCode mode with
      | none => p.reply 0x28 .badOperand
      | some m =>
        if m = p.mode then p.reply 0x28 .done
        else if p.modeAllowed m then (p.changeMode m).reply 0x28 .done
        else p.reply 0x28 .wrongState

/-! ## Burner commands -/

/-- The items of CONFIGURE BURNER within their ranges (R76). -/
def burnerItems (used feeder rate ignition proving loading flameFail threshold held autoResume : Nat) :
    Option BurnerCfg :=
  match boolOf used, finOf 6 feeder, boolOf autoResume with
  | some u, some f, some a =>
    if rate ≤ 65000 ∧ 5 ≤ ignition ∧ ignition ≤ 60 ∧ 1 ≤ proving ∧ proving ≤ 10 ∧ 30 ≤ loading ∧ loading ≤ 600 ∧
        1 ≤ flameFail ∧ flameFail ≤ 5 ∧ 20 ≤ threshold ∧ threshold ≤ 235 ∧ 60 ≤ held ∧ held ≤ 3600 then
      some { used := u, feeder := f, rate := rate, ignition := ignition, proving := proving, loading := loading,
             flameFail := flameFail, threshold := threshold, held := held, autoResume := a }
    else none
  | _, _, _ => none

/-- R76. -/
def execConfigureBurner (burner used feeder rate ignition proving loading flameFail threshold held autoResume : Nat)
    (s : State) : Host.Outcome State Fault Refusal :=
  s.act fun p =>
    if p.started then p.reply 0x29 .wrongLifecycle
    else
      match finOf 2 burner,
          burnerItems used feeder rate ignition proving loading flameFail threshold held autoResume with
      | some b, some c => (p.updBurner b fun x => { x with cfg := c }).reply 0x29 .done
      | _, _ => p.reply 0x29 .badOperand

/-- The checks that every burner command begins with: lifecycle, number, used. -/
def Part.burnerCommand (cmd n : Nat) (f : Fin 2 → Part → Part) (p : Part) : Part :=
  if !p.started then p.reply cmd .wrongLifecycle
  else
    match finOf 2 n with
    | none => p.reply cmd .badOperand
    | some b => if p.burners[b].cfg.used then f b p else p.reply cmd .unusedObject

/-- Permissive 4 of R80: every feeder with mix above 0, and the light-off feeder, has a fuel whose CV is not 0. -/
def Part.fuelsSet (b : Fin 2) (p : Part) : Bool :=
  ((p.feedersOf b).all fun f => p.feeders[f].mix == 0 || p.cvOf f != 0) && p.cvOf p.burners[b].cfg.feeder != 0

/-- The four permissives of START BURNER (R80). -/
def Part.startPermitted (b : Fin 2) (p : Part) : Bool :=
  (p.mode == .heatUp || p.mode == .run) && p.permitGood b && !p.tripStands b && p.fuelsSet b

/-- R80, R81. -/
def execStartBurner (burner : Nat) (s : State) : Host.Outcome State Fault Refusal :=
  s.act (Part.burnerCommand 0x2A burner fun b p =>
    if p.burners[b].state ≠ .off then p.reply 0x2A .wrongState
    else if p.line.silent then p.reply 0x2A .noLine
    else if !p.startPermitted b then p.reply 0x2A .permissive
    else ((p.enterLightWait b .igniting).settle).reply 0x2A .done)

/-- R86. -/
def execStopBurner (burner : Nat) (s : State) : Host.Outcome State Fault Refusal :=
  s.act (Part.burnerCommand 0x2B burner fun b p =>
    match p.burners[b].state with
    | .lightWait | .igniting | .held => ((p.enterOff b).settle).reply 0x2B .done
    | .loading | .firing => ((p.enterStopping b).settle).reply 0x2B .done
    | _ => p.reply 0x2B .wrongState)

/-- R92, by command. -/
def execResumeBurner (burner : Nat) (s : State) : Host.Outcome State Fault Refusal :=
  s.act (Part.burnerCommand 0x2C burner fun b p =>
    let x := p.burners[b]
    if x.state ≠ .held then p.reply 0x2C .wrongState
    else if x.causePermit || x.causeConflict then p.reply 0x2C .permissive
    else if x.route.isSome && p.line.silent then p.reply 0x2C .noLine
    else ((p.resume b).settle).reply 0x2C .done)

/-- R89. -/
def execResetTripBurner (burner : Nat) (s : State) : Host.Outcome State Fault Refusal :=
  s.act (Part.burnerCommand 0x2D burner fun b p =>
    if p.burners[b].state ≠ .tripped then p.reply 0x2D .wrongState
    else if p.tripStands b then p.reply 0x2D .permissive
    else ((p.enterOff b).settle).reply 0x2D .done)

/-- The four conditions of R93 of a burner: LIGHT-OFF FAIL, FLAME FAIL, FLAME WEAK, BURNER HELD. -/
def Burner.conditions (x : Burner) : List Bool :=
  [x.lightOffFail, x.flameFail, x.weak.any (·.passed), x.state == .held]

/-- A deadline that may be absent, read as its time left. -/
def optLeft (now : Time) (t : Option Time) : List Byte := optBytes 4 (fun t => be32 (tenthsLeft now t)) t

/-- The held step and whether it was complete (R90). -/
def heldBytes (s : BurnerState) : List Byte := [byteOf s.code, boolByte (s == .firing)]

/-- The data of READ BURNER (R95). DESIGN CHOICE (log 12): the permit input and its validity, the flame's validity and its
presence take a byte each; the hold causes are one flag byte, PERMIT at bit 0 and CONFLICT at bit 1; the two auto-resume
items are one, and the four conditions one. -/
def Part.burnerData (p : Part) (b : Fin 2) : List Byte :=
  let x := p.burners[b]
  let flame := p.field.image.flame[b]
  let permit := p.field.image.permit[b]
  [byteOf p.mode.code, boolByte x.cfg.used, byteOf x.state.code] ++
  optBytes 1 (fun c : BurnerState => [byteOf c.code]) x.cont ++
  optLeft p.now x.lightWait ++ optLeft p.now x.ignition ++ optLeft p.now x.loading ++ optLeft p.now x.heldUntil ++
  be32 (tenthsRun p.now x.flameSince) ++ [byteOf flame.value, boolByte flame.valid, boolByte x.flame] ++
  [boolByte permit.value, boolByte permit.valid] ++ optBytes 2 heldBytes x.heldStep ++
  optBytes 1 (fun l => [flagByte l]) (if x.state = .held then some [x.causePermit, x.causeConflict] else none) ++
  be16 p.alloc.targetB[b] ++ be16 p.alloc.deliveredB[b] ++ be16 p.alloc.capB[b] ++
  [flagByte [x.cfg.autoResume, p.alarms.autoResume], flagByte x.conditions]

/-- R95. -/
def execReadBurner (burner : Nat) (s : State) : Host.Outcome State Fault Refusal :=
  s.act fun p =>
    match finOf 2 burner with
    | none => p.reply 0x2E .badOperand
    | some b => p.reply 0x2E .done (p.burnerData b)

/-! ## Timers (R77) -/

/-- When the flame will have been present for the proving time (R82). -/
def Part.provenDue (b : Fin 2) (p : Part) : Option Time :=
  if p.burners[b].state = .igniting then p.burners[b].proving.map (later · (p.burners[b].cfg.proving * 1000)) else none

/-- When the flame will have been absent for the flame-fail time (R84). -/
def Part.flameFailDue (b : Fin 2) (p : Part) : Option Time :=
  if p.burners[b].state.fires && !p.burners[b].flameFail then
    p.burners[b].absent.map (later · (p.burners[b].cfg.flameFail * 1000))
  else none

/-- When a condition timer of d milliseconds ends, while it has not ended. -/
def timerDue (d : Nat) (t : Option Timer) : Option Time :=
  (t.filter fun t => !t.passed).map fun t => later t.start d

/-- A condition timer whose time has passed. -/
def Timer.pass (t : Timer) : Timer := { t with passed := true }

/-- When the weak condition will have held for 5 s (R85). -/
def Part.weakDue (b : Fin 2) (p : Part) : Option Time :=
  if p.burners[b].state = .firing then timerDue 5000 p.burners[b].weak else none

/-- The points of FLAME FAIL and LIGHT-OFF FAIL of a burner (R140). -/
def flameFailPoint (b : Fin 2) : Fin 62 := ⟨10 + 4 * b.val, by omega⟩

def lightOffFailPoint (b : Fin 2) : Fin 62 := ⟨11 + 4 * b.val, by omega⟩

/-- R81. -/
def execLightWaitExpiry (b : Fin 2) (s : State) : Host.Outcome State Fault Refusal :=
  s.act fun p =>
    if p.burners[b].state = .lightWait then p.whenDue p.burners[b].lightWait fun p => (p.enterOff b true).settle
    else p

/-- R82, R83. -/
def execFlameProven (b : Fin 2) (s : State) : Host.Outcome State Fault Refusal :=
  s.act fun p => p.whenDue (p.provenDue b) fun p => (p.enterLoading b).settle

/-- LIGHT-OFF FAIL rises, trips the burner, and falls in one event (R82). -/
def Part.failLightOff (b : Fin 2) (p : Part) : Part :=
  ((p.updBurner b fun x => { x with lightOffFail := true }).settlePoint (lightOffFailPoint b)).settlePoint
    (lightOffFailPoint b) true

/-- R82, R88. -/
def execIgnitionDeadline (b : Fin 2) (s : State) : Host.Outcome State Fault Refusal :=
  s.act fun p =>
    if p.burners[b].state = .igniting then p.whenDue p.burners[b].ignition fun p => ((p.failLightOff b).settleAll).keepHorn (lightOffFailPoint b)
    else p

/-- R83: the loading deadline passes; LIGHT-OFF is released. -/
def execLoadingDeadline (b : Fin 2) (s : State) : Host.Outcome State Fault Refusal :=
  s.act fun p =>
    if p.burners[b].state = .loading then p.whenDue p.burners[b].loading fun p => (p.enterFiring b).settle else p

/-- FLAME FAIL rises, trips the burner, and falls in one event (R84). -/
def Part.failFlame (b : Fin 2) (p : Part) : Part :=
  ((p.updBurner b fun x => { x with flameFail := true }).settlePoint (flameFailPoint b)).settlePoint (flameFailPoint b)
    true

/-- R84, R88. -/
def execFlameFailTime (b : Fin 2) (s : State) : Host.Outcome State Fault Refusal :=
  s.act fun p => p.whenDue (p.flameFailDue b) fun p => ((p.failFlame b).settleAll).keepHorn (flameFailPoint b)

/-- R85. -/
def execFlameWeakTime (b : Fin 2) (s : State) : Host.Outcome State Fault Refusal :=
  s.act fun p =>
    p.whenDue (p.weakDue b) fun p => (p.updBurner b fun x => { x with weak := x.weak.map Timer.pass }).settle

/-- R91. -/
def execHeldDeadline (b : Fin 2) (s : State) : Host.Outcome State Fault Refusal :=
  s.act fun p =>
    if p.burners[b].state = .held then p.whenDue p.burners[b].heldUntil fun p => (p.enterOff b).settle else p

end Sys2Proof.Machine
end

