-- ==== Sys2Proof/Machine/AlarmRows.lean ====
section
/-! DEFINITION. The rows of the Alarm Unit (chapter 8): acknowledgement, resets, shelving, external points, peer trips,
first-out, summary, horn and read-out. -/

namespace Sys2Proof.Machine

/-! ## Acknowledgement and reset (R143, R144) -/

/-- The state an acknowledgement takes a point to, if it takes it. -/
def PointState.acked (latching : Bool) : PointState → Option PointState
  | .active => some .activeAcked
  | .cleared => some (if latching then .clearedAcked else .normal)
  | _ => none

/-- A point in a new state with no event. -/
def Part.putPoint (i : Fin 62) (st : PointState) (p : Part) : Part := p.updPoint i fun x => { x with state := st }

/-- The point acknowledged if it is ACTIVE or CLEARED. -/
def Part.ackPoint (i : Fin 62) (p : Part) : Part :=
  match p.alarms.points[i].state.acked (p.pointAttr i).latching with
  | some st => p.putPoint i st
  | none => p

/-- The checks that a command naming a point begins with: lifecycle, number. -/
def Part.pointCommand (cmd n : Nat) (f : Fin 62 → Part → Part) (p : Part) : Part :=
  if !p.started then p.reply cmd .wrongLifecycle
  else
    match finOf 62 n with
    | none => p.reply cmd .badOperand
    | some i => f i p

/-- R143. -/
def execAcknowledge (point : Nat) (s : State) : Host.Outcome State Fault Refusal :=
  s.act (Part.pointCommand 0x48 point fun i p =>
    if p.alarms.points[i].state.unacked then ((p.ackPoint i).hornCheck).reply 0x48 .done else p.reply 0x48 .wrongState)

/-- R143. -/
def execAcknowledgeAll (s : State) : Host.Outcome State Fault Refusal :=
  s.act fun p =>
    if p.started then ((p.forAll pointIds Part.ackPoint).hornCheck).reply 0x49 .done else p.reply 0x49 .wrongLifecycle

/-- A reset of a point of the right class (R144): CLEARED_ACKED to NORMAL, with no event. -/
def Part.resetPoint (cmd : Nat) (i : Fin 62) (right : Bool) (p : Part) : Part :=
  if !right then p.reply cmd .badOperand
  else if p.alarms.points[i].state = .clearedAcked then (p.putPoint i .normal).reply cmd .done
  else p.reply cmd .wrongState

/-- R144. -/
def execResetTripPoint (point : Nat) (s : State) : Host.Outcome State Fault Refusal :=
  s.act (Part.pointCommand 0x2D point fun i p => p.resetPoint 0x2D i ((p.pointAttr i).cls == .trip))

/-- R144. -/
def execResetAlarm (point : Nat) (s : State) : Host.Outcome State Fault Refusal :=
  s.act (Part.pointCommand 0x4A point fun i p =>
    p.resetPoint 0x4A i ((p.pointAttr i).cls != .trip && (p.pointAttr i).latching))

/-! ## Shelving (R148) -/

/-- R148: forced to NORMAL with no event, shelved for the minutes given. -/
def execShelve (point minutes : Nat) (s : State) : Host.Outcome State Fault Refusal :=
  s.act (Part.engineering 0x4B (Part.pointCommand 0x4B point fun i p =>
    let c := (p.pointAttr i).cls
    if c = .trip ∨ c = .alarm ∨ minutes = 0 ∨ 480 < minutes then p.reply 0x4B .badOperand
    else
      (p.updPoint i fun x =>
        { x with state := .normal, shelvedUntil := some (later p.now (minutes * 60000)) }).engineeringDone 0x4B))

/-- The end of a shelving by UNSHELVE or expiry: an active effective condition activates the point. -/
def Part.endShelving (i : Fin 62) (p : Part) : Part :=
  let q := p.updPoint i fun x => { x with shelvedUntil := none }
  if p.alarms.points[i].eff then q.activate i else q

/-- R148. -/
def execUnshelve (point : Nat) (s : State) : Host.Outcome State Fault Refusal :=
  s.act (Part.engineering 0x4C (Part.pointCommand 0x4C point fun i p =>
    if p.alarms.points[i].shelvedUntil.isSome then ((p.endShelving i).settleAll).engineeringDone 0x4C
    else p.reply 0x4C .wrongState))

/-- R148: the shelved-until passes. -/
def execShelvingExpiry (point : Fin 62) (s : State) : Host.Outcome State Fault Refusal :=
  s.act fun p => p.whenDue p.alarms.points[point].shelvedUntil fun p => (p.endShelving point).settleAll

/-! ## External points (R149, R150) -/

/-- The fixed part an external point may be given: line-wide only for TRIP; TRIP latching and bound; others unbound. -/
def PointAttr.allowed (a : PointAttr) : Bool :=
  if a.cls = .trip then a.latching && a.binding != .none else !a.lineWide && a.binding == .none

/-- The items of CONFIGURE EXTERNAL POINT within their ranges (R149). Its condition begins inactive (log 13). -/
def externalItems (used cls latching binding lineWide mask source : Nat) : Option Ext :=
  match boolOf used, AlarmClass.ofCode cls, boolOf latching, Binding.ofCode binding, boolOf lineWide,
      ExtSource.ofCode source with
  | some u, some c, some l, some b, some w, some src =>
    let a : PointAttr := { cls := c, latching := l, binding := b, lineWide := w, mask := BitVec.ofNat 4 mask }
    if mask < 16 ∧ a.allowed = true then some { used := u, attr := a, source := src, cond := false } else none
  | _, _, _, _, _, _ => none

def Part.setExt (n : Fin 16) (x : Ext) (p : Part) : Part := p.updAlarms fun a => { a with ext := a.ext.set n x }

/-- R149. -/
def execConfigureExternalPoint (n used cls latching binding lineWide mask source : Nat) (s : State) :
    Host.Outcome State Fault Refusal :=
  s.act fun p =>
    if p.started then p.reply 0x4D .wrongLifecycle
    else
      match finOf 16 n, externalItems used cls latching binding lineWide mask source with
      | some i, some x => (p.setExt i x).reply 0x4D .done
      | _, _ => p.reply 0x4D .badOperand

/-- A HOST-sourced condition set or cleared (R150). -/
def Part.hostCondition (cmd n : Nat) (on : Bool) (p : Part) : Part :=
  if !p.started then p.reply cmd .wrongLifecycle
  else
    match finOf 16 n with
    | none => p.reply cmd .badOperand
    | some i =>
      let x := p.alarms.ext[i]
      if !x.used then p.reply cmd .unusedObject
      else if x.source = .field then p.reply cmd .wrongState
      else ((p.setExt i { x with cond := on }).settleAll).reply cmd .done

/-- R150. -/
def execRaiseExternal (n : Nat) (s : State) : Host.Outcome State Fault Refusal := s.act (Part.hostCondition 0x4E n true)

/-- R150. -/
def execClearExternal (n : Nat) (s : State) : Host.Outcome State Fault Refusal := s.act (Part.hostCondition 0x4F n false)

/-! ## Peer trips, first-out, summary, horn (R153 to R156) -/

/-- R153. -/
def execDiscardPeerTrip (station : Nat) (s : State) : Host.Outcome State Fault Refusal :=
  s.act (Part.engineering 0x50 fun p =>
    match (stationIndex station).filter (· ≠ p.strapStation) with
    | none => p.reply 0x50 .badOperand
    | some q =>
      if p.alarms.peerTrips[q].isNone || (p.fresh q).isSome then p.reply 0x50 .wrongState
      else ((p.removePeerTrip q).settleAll).engineeringDone 0x50)

/-- An origin as it is read: station, 0 for local; point and trip sequence where known (R154). DESIGN CHOICE (log 12): R201
lays out no origin; it goes out as the station byte, with no presence byte of its own, then the point and the trip sequence
as optional fields, 5 bytes in all. -/
def originBytes (o : Option Origin) : List Byte :=
  [byteOf ((o.map Origin.station).getD 0)] ++ optBytes 1 (fun n => [byteOf n]) (o.bind Origin.point) ++
    optBytes 1 (fun q => [q]) (o.bind Origin.seq)

def FirstOut.data (r : FirstOut) : List Byte :=
  [byteOf r.point.val] ++ be32 (tenths r.time) ++ originBytes r.origin ++ [byteOf r.consequent]

/-- R154: reading clears TRIP NEW. -/
def execReadFirstOut (s : State) : Host.Outcome State Fault Refusal :=
  s.act fun p =>
    (p.updAlarms fun a => { a with tripNew := false }).reply 0x51 .done (optBytes 11 FirstOut.data p.alarms.firstOut)

/-- Some TRIP point is not NORMAL. -/
def Part.anyTripStands (p : Part) : Bool :=
  pointIds.any fun i => (p.pointAttr i).cls == .trip && p.alarms.points[i].state != .normal

/-- R154. -/
def execResetFirstOut (s : State) : Host.Outcome State Fault Refusal :=
  s.act fun p =>
    if !p.started then p.reply 0x52 .wrongLifecycle
    else if p.anyTripStands then p.reply 0x52 .permissive
    else (p.updAlarms fun a => { a with firstOut := none, tripNew := false }).reply 0x52 .done

/-- The number of points in a state. -/
def Part.pointsIn (st : PointState) (p : Part) : Nat := (pointIds.filter fun i => p.alarms.points[i].state == st).length

/-- The data of READ SUMMARY. -/
def Part.summaryData (p : Part) : List Byte :=
  let a := p.alarms
  [flagByte [a.seen.trip, a.seen.alarm, a.seen.warning, a.seen.notice, a.autoResume], boolByte a.horn] ++
  [PointState.normal, .active, .activeAcked, .cleared, .clearedAcked].map (fun st => byteOf (p.pointsIn st)) ++
  [byteOf p.unackedCount, byteOf a.events.length, byteOf a.lost]

/-- R155. -/
def execReadSummary (s : State) : Host.Outcome State Fault Refusal :=
  s.act fun p => p.reply 0x53 .done p.summaryData

/-- R155: the class flags are cleared, AUTO-RESUME set, and the auto-resume test made (R92). -/
def execClearSummary (s : State) : Host.Outcome State Fault Refusal :=
  s.act fun p =>
    if p.started then
      ((p.updAlarms fun a => { a with seen := ⟨false, false, false, false⟩, autoResume := true }).settleAll).reply 0x54 .done
    else p.reply 0x54 .wrongLifecycle

/-- R156. -/
def execSilenceHorn (s : State) : Host.Outcome State Fault Refusal :=
  s.act fun p => if p.started then (p.setHorn false).reply 0x55 .done else p.reply 0x55 .wrongLifecycle

/-! ## Read-out (R160) -/

/-- The peer trip set in order of station number, with its length. DESIGN CHOICE (log 31): the point of an entry without one
reads FFh. -/
def Part.peerTripData (p : Part) : List Byte :=
  let set := stations.filter fun q => p.alarms.peerTrips[q].isSome
  byteOf set.length :: set.flatMap fun q =>
    match p.alarms.peerTrips[q] with
    | some t => [byteOf (q.val + 1), byteOf (t.point.getD 255)] ++ optBytes 1 (fun n => [n]) t.seq
    | none => []

/-- The data of READ POINT (R139, R160). DESIGN CHOICE (log 12): an origin the point has not is a presence byte 0 and the 5
bytes of an origin, all 0. -/
def Part.pointData (p : Part) (i : Fin 62) : List Byte :=
  let a := p.pointAttr i
  let x := p.alarms.points[i]
  [byteOf i.val, byteOf a.cls.code, boolByte a.latching, byteOf a.binding.code, boolByte a.lineWide,
   byteOf a.mask.toNat, byteOf x.state.code] ++
  optBytes 4 (fun t => be32 (tenths t)) x.shelvedUntil ++ optBytes 4 (fun t => be32 (tenths t)) x.lastActivation ++
  optBytes 5 (fun o => originBytes (some o)) x.origin ++ [flagByte [p.condition i, p.effective i, p.pointArmed i]] ++
  be32 ((x.shelvedUntil.map (tenthsLeft p.now)).getD 0) ++ (if i = 2 then p.peerTripData else [])

/-- R160. -/
def execReadPoint (point : Nat) (s : State) : Host.Outcome State Fault Refusal :=
  s.act fun p =>
    match finOf 62 point with
    | none => p.reply 0x56 .badOperand
    | some i => p.reply 0x56 .done (p.pointData i)

/-- The data of READ POINT STATES. -/
def Part.pointStatesData (p : Part) : List Byte :=
  pointIds.flatMap fun i => [byteOf p.alarms.points[i].state.code, boolByte p.alarms.points[i].shelvedUntil.isSome]

/-- R160. -/
def execReadPointStates (s : State) : Host.Outcome State Fault Refusal :=
  s.act fun p => p.reply 0x57 .done p.pointStatesData

end Sys2Proof.Machine
end

