-- ==== Sys2Proof/Machine/AllocationRows.lean ====
section
/-! DEFINITION. The rows of the Allocation Unit (chapter 4): the own offer, the air hold and READ ALLOCATION. -/

namespace Sys2Proof.Machine

/-- A new own offer (R59): if the flag or the value changes, a STATUS is requested and an evaluation runs. -/
def Part.setOffer (flag : Bool) (value : Nat) (p : Part) : Part :=
  if p.alloc.offered = flag ∧ p.alloc.offer = value then p
  else (({ p with alloc := { p.alloc with offered := flag, offer := value } }).queueFrame .status).settle

/-- The checks of R59, then the offer. -/
def Part.offerCommand (cmd : Nat) (flag : Bool) (value : Nat) (p : Part) : Part :=
  if !p.started then p.reply cmd .wrongLifecycle
  else if p.cfg.zone = .none then p.reply cmd .wrongState
  else (p.setOffer flag value).reply cmd .done

/-- R59. -/
def execOfferDemand (heat : Nat) (s : State) : Host.Outcome State Fault Refusal :=
  s.act (Part.offerCommand 0x20 true heat)

/-- R59: the flag is cleared and the value kept. -/
def execWithdrawDemand (s : State) : Host.Outcome State Fault Refusal :=
  s.act fun p => p.offerCommand 0x21 false p.alloc.offer

/-- R61: the hold deadline passes in HOLD. -/
def execAirHoldExpiry (s : State) : Host.Outcome State Fault Refusal :=
  s.act fun p =>
    if p.alloc.ceilState = .hold then
      p.whenDue p.alloc.holdDeadline fun p =>
        ({ p with alloc := { p.alloc with
            ceilState := .fallback, ceiling := some p.cfg.fallback, holdDeadline := none } }).settle
    else p

/-- The data of READ ALLOCATION (R72). -/
def Part.allocationData (p : Part) : List Byte :=
  let a := p.alloc
  [boolByte a.offered] ++ be16 a.offer ++ [byteOf (stationNumber p.demandSource)] ++ be16 a.demand ++
  [boolByte a.demandHeld, byteOf a.ceilState.code] ++ be16 a.airSum ++ be16 a.lastAir ++ optBytes 2 be16 a.ceiling ++
  be32 (leftOrZero p.now a.holdDeadline) ++ be16 a.dEff ++ [flagByte [a.airLimited, a.shortfall]] ++
  (feederIds.flatMap fun f => be16 a.maxHeat[f]) ++
  (burnerIds.flatMap fun b => be16 a.capB[b] ++ optBytes 2 be16 a.frozen[b]) ++
  be16 a.capacity ++ be32 a.total ++ be32 a.sumS ++ be32 a.pPrev ++ be32 a.pOwn ++ be16 a.target ++
  (burnerIds.flatMap fun b => be16 a.targetB[b]) ++ (feederIds.flatMap fun f => be16 a.heatF[f]) ++
  (feederIds.flatMap fun f => be16 a.massF[f]) ++ be16 a.delivered ++
  (burnerIds.flatMap fun b => be16 a.deliveredB[b])

/-- R72. -/
def execReadAllocation (s : State) : Host.Outcome State Fault Refusal :=
  s.act fun p => p.reply 0x22 .done p.allocationData

end Sys2Proof.Machine
end

