-- ==== Sys2Proof/Machine/CoolerRows.lean ====
section
/-! DEFINITION. The rows of the Cooler Controller (chapter 7): fans, grate, the cooling period and READ COOLER. -/

namespace Sys2Proof.Machine

open Sys2Proof.Config

/-! ## Fan commands (R122 to R128) -/

/-- The items of CONFIGURE FAN within their ranges (R122). -/
def fanItems (used destination base apf minFlow maxFlow airFactor gain startTime : Nat) : Option FanCfg :=
  match boolOf used, Destination.ofCode destination with
  | some u, some d =>
    if base ≤ 65535 ∧ apf ≤ 255 ∧ minFlow ≤ 65535 ∧ maxFlow ≤ 65535 ∧ minFlow ≤ maxFlow ∧ airFactor ≤ 255 ∧
        gain ≤ 255 ∧ 5 ≤ startTime ∧ startTime ≤ 120 then
      some { used := u, destination := d, base := base, apf := apf, minFlow := minFlow, maxFlow := maxFlow,
             airFactor := airFactor, gain := gain, startTime := startTime }
    else none
  | _, _ => none

/-- A fan configured: STOPPED when used (R123). -/
def Fan.configure (c : FanCfg) (x : Fan) : Fan :=
  { x with cfg := c, state := if c.used then .stopped else .unused }

/-- A fan configured, with the FAN event of a change between UNUSED and STOPPED (R122, R123, R136). -/
def Part.configureFan (n : Fin 4) (c : FanCfg) (p : Part) : Part :=
  let x := p.fans[n].configure c
  let q := p.updFan n fun _ => x
  if x.state = p.fans[n].state then q else q.offer .fan n.val x.state.code

/-- R122. -/
def execConfigureFan (fan used destination base apf minFlow maxFlow airFactor gain startTime : Nat) (s : State) :
    Host.Outcome State Fault Refusal :=
  s.act fun p =>
    if p.started then p.reply 0x38 .wrongLifecycle
    else
      match finOf 4 fan, fanItems used destination base apf minFlow maxFlow airFactor gain startTime with
      | some n, some c => (p.configureFan n c).reply 0x38 .done
      | _, _ => p.reply 0x38 .badOperand

/-- The checks that every fan command begins with: lifecycle, number, used. -/
def Part.fanCommand (cmd k : Nat) (f : Fin 4 → Part → Part) (p : Part) : Part :=
  if !p.started then p.reply cmd .wrongLifecycle
  else
    match finOf 4 k with
    | none => p.reply cmd .badOperand
    | some n => if p.fans[n].cfg.used then f n p else p.reply cmd .unusedObject

/-- R124: START_WAIT, and HEAVY-START requested. -/
def execStartFan (fan : Nat) (s : State) : Host.Outcome State Fault Refusal :=
  s.act (Part.fanCommand 0x39 fan fun n p =>
    if p.fans[n].state ≠ .stopped then p.reply 0x39 .wrongState
    else if p.line.silent then p.reply 0x39 .noLine
    else ((((p.fanTo n .startWait).request 1 n.val)).settle).reply 0x39 .done)

/-- R127. -/
def execStopFan (fan : Nat) (s : State) : Host.Outcome State Fault Refusal :=
  s.act (Part.fanCommand 0x3A fan fun n p =>
    match p.fans[n].state with
    | .startWait | .starting | .running => ((p.fanTo n .stopped).settle).reply 0x3A .done
    | _ => p.reply 0x3A .wrongState)

/-- R128: the run feedback must be seen negated and valid. -/
def execResetFan (fan : Nat) (s : State) : Host.Outcome State Fault Refusal :=
  s.act (Part.fanCommand 0x3B fan fun n p =>
    let bit := p.field.image.fanRun[n]
    if p.fans[n].state ≠ .tripped then p.reply 0x3B .wrongState
    else if bit.value || !bit.valid then p.reply 0x3B .permissive
    else ((p.fanTo n .stopped).settle).reply 0x3B .done)

/-! ## Fan timers -/

/-- When a feedback-loss timer will have run 2 s (R126, R133). -/
def lossDue (t : Option Time) : Option Time := t.map (later · 2000)

/-- R125. -/
def execFanStartDeadline (n : Fin 4) (s : State) : Host.Outcome State Fault Refusal :=
  s.act fun p =>
    if p.fans[n].state = .starting then
      p.whenDue p.fans[n].startUntil fun p => ((p.failStart n).settleAll).keepHorn (fanFailPoint n)
    else p

/-- R126. -/
def execFanFeedbackLoss (n : Fin 4) (s : State) : Host.Outcome State Fault Refusal :=
  s.act fun p =>
    if p.fans[n].state = .running then
      p.whenDue (lossDue p.fans[n].fbLoss) fun p => ((p.loseFan n).settleAll).keepHorn (fanTripPoint n)
    else p

/-- R131: the held flow is removed, and not armed again while the flow stays BAD (DEDUCED, log 27). -/
def execHeldFlowExpiry (n : Fin 4) (s : State) : Host.Outcome State Fault Refusal :=
  s.act fun p =>
    p.whenDue p.fans[n].holdUntil fun p =>
      p.updFan n fun x => { x with heldFlow := none, holdUntil := none, holdSpent := true }

/-! ## Grate commands (R132 to R134) -/

/-- The items of CONFIGURE GRATE within their ranges (R132). -/
def grateItems (used minSpeed maxSpeed gain low high initial highLimit : Nat) : Option GrateCfg :=
  match boolOf used with
  | some u =>
    if minSpeed ≤ 1000 ∧ maxSpeed ≤ 1000 ∧ minSpeed ≤ maxSpeed ∧ gain ≤ 255 ∧ low ≤ 20000 ∧ high ≤ 20000 ∧ low ≤ high ∧
        low ≤ initial ∧ initial ≤ high ∧ highLimit ≤ 20000 then
      some { used := u, minSpeed := minSpeed, maxSpeed := maxSpeed, gain := gain, low := low, high := high,
             initial := initial, highLimit := highLimit }
    else none
  | none => none

/-- The grate configured: STOPPED when used, and the setpoint at the initial one (R132, R133). -/
def Grate.configure (c : GrateCfg) (g : Grate) : Grate :=
  { g with cfg := c, psp := c.initial, state := if c.used then .stopped else .unused }

/-- The grate configured, with the GRATE event of a change between UNUSED and STOPPED (R132, R133, R136). -/
def Part.configureGrate (c : GrateCfg) (p : Part) : Part :=
  let g := p.grate.configure c
  let q := p.updGrate fun _ => g
  if g.state = p.grate.state then q else q.offer .grate 0 g.state.code

/-- R132. -/
def execConfigureGrate (used minSpeed maxSpeed gain low high initial highLimit : Nat) (s : State) :
    Host.Outcome State Fault Refusal :=
  s.act fun p =>
    if p.started then p.reply 0x3C .wrongLifecycle
    else
      match grateItems used minSpeed maxSpeed gain low high initial highLimit with
      | some c => (p.configureGrate c).reply 0x3C .done
      | none => p.reply 0x3C .badOperand

/-- The checks that every grate command begins with: lifecycle, used. -/
def Part.grateCommand (cmd : Nat) (f : Part → Part) (p : Part) : Part :=
  if !p.started then p.reply cmd .wrongLifecycle
  else if p.grate.cfg.used then f p
  else p.reply cmd .unusedObject

/-- R133. -/
def execStartGrate (s : State) : Host.Outcome State Fault Refusal :=
  s.act (Part.grateCommand 0x3D fun p =>
    if p.grate.state = .stopped then ((p.grateTo .running).settle).reply 0x3D .done else p.reply 0x3D .wrongState)

/-- R133. -/
def execStopGrate (s : State) : Host.Outcome State Fault Refusal :=
  s.act (Part.grateCommand 0x3E fun p =>
    if p.grate.state = .running then ((p.grateTo .stopped).settle).reply 0x3E .done else p.reply 0x3E .wrongState)

/-- R134: the setpoint is held to the limits, CLAMPED. -/
def execSetBedPressure (pressure : Nat) (s : State) : Host.Outcome State Fault Refusal :=
  s.act (Part.grateCommand 0x3F fun p =>
    let c := p.grate.cfg
    let sp := clampNat pressure c.low c.high
    if 20000 < pressure then p.reply 0x3F .badOperand
    else (p.updGrate fun g => { g with psp := sp }).reply 0x3F (if sp = pressure then .done else .clamped))

/-! ## Grate timers -/

/-- R133. -/
def execGrateFeedbackLoss (s : State) : Host.Outcome State Fault Refusal :=
  s.act fun p =>
    if p.grate.state = .running then
      p.whenDue (lossDue p.grate.fbLoss) fun p => ((p.faultGrate).settleAll).keepHorn 45
    else p

/-- R135. -/
def execBedPressureHighTime (s : State) : Host.Outcome State Fault Refusal :=
  s.act fun p =>
    p.whenDue (timerDue 10000 p.grate.bedHigh) fun p =>
      (p.updGrate fun g => { g with bedHigh := g.bedHigh.map Timer.pass }).settle

/-! ## The cooling period (R130, R131, R134, R136) -/

/-- SP = clamp(base flow + floor(reference heat x apf / 100), minimum flow, maximum flow) (R130). -/
def FanCfg.setpoint (heat : Nat) (c : FanCfg) : Nat := clampNat (c.base + heat * c.apf / 100) c.minFlow c.maxFlow

/-- The speed command of a RUNNING fan with valid flow q (R130). -/
def FanCfg.speed (sp q speed : Nat) (c : FanCfg) : Nat :=
  (clampInt (speed + clampInt (Int.tdiv (((sp : Int) - q) * c.gain) 1000) (-20) 20) 100 1000).toNat

/-- The flow control of one fan. -/
def Part.controlFan (n : Fin 4) (p : Part) : Part :=
  let x := p.fans[n]
  if x.state = .running then
    let q := p.field.image.flow[n]
    let sp := x.cfg.setpoint (p.referenceHeat x.cfg.destination)
    let p := p.updFan n fun x => { x with sp := sp }
    if q.valid then
      p.updOutput fun o => { o with fanSpeed := o.fanSpeed.set n (x.cfg.speed sp q.value o.fanSpeed[n]) }
    else p
  else p

/-- The speed command of the RUNNING grate with valid pressure P (R134). -/
def GrateCfg.speed (psp pressure speed : Nat) (c : GrateCfg) : Nat :=
  (clampInt (speed + clampInt (Int.tdiv (((pressure : Int) - psp) * c.gain) 1000) (-10) 10) c.minSpeed c.maxSpeed).toNat

def Part.controlGrate (p : Part) : Part :=
  if p.grate.state = .running ∧ p.field.image.bed.valid = true then
    p.updOutput fun o =>
      { o with grateSpeed := p.grate.cfg.speed p.grate.psp p.field.image.bed.value o.grateSpeed }
  else p

/-- The flow a RUNNING fan counts with, if any (R131). -/
def Fan.countedFlow (q : Channel Nat) (x : Fan) : Option Nat :=
  if x.state = .running then (if q.valid then some q.value else x.heldFlow) else none

/-- The contribution of a fan, held in the range of a heat rate. -/
def Fan.contributes (q : Channel Nat) (x : Fan) : Nat :=
  match x.countedFlow q with
  | some f => satAt 65535 (f * x.cfg.airFactor / 100)
  | none => 0

/-- The fans counted as running to a destination. -/
def Part.fansTo (d : Destination) (p : Part) : List (Fin 4) :=
  fanIds.filter fun n => p.fans[n].cfg.destination == d && (p.fans[n].countedFlow p.field.image.flow[n]).isSome

def Part.allowanceTo (d : Destination) (p : Part) : Nat :=
  satAt 65535 (sumOver (p.fansTo d) fun n => p.fans[n].contributes p.field.image.flow[n])

/-- Contributions, allowances and running fan counts formed (R131). -/
def Part.formAir (p : Part) : Part :=
  let p := p.forAll fanIds fun n p =>
    p.updFan n fun x =>
      { x with contribution := if x.cfg.destination = .exhaust then 0 else x.contributes p.field.image.flow[n] }
  { p with air := { secondary := p.allowanceTo .secondary, tertiary := p.allowanceTo .tertiary,
                    fansSec := (p.fansTo .secondary).length, fansTer := (p.fansTo .tertiary).length } }

/-- The running second of a fan (R136). -/
def Part.fanSecond (n : Fin 4) (p : Part) : Part :=
  if p.fans[n].state = .starting ∨ p.fans[n].state = .running then
    p.record (ShiftRec.updFan n fun t => { t with running := t.running + 1 })
  else p

/-- P is valid and above the high pressure limit of a used grate. -/
def Part.bedAbove (p : Part) : Bool :=
  p.grate.cfg.used && p.field.image.bed.valid && decide (p.grate.cfg.highLimit < p.field.image.bed.value)

def Part.grateSecond (p : Part) : Part :=
  p.record fun r =>
    { r with grateRunning := if p.grate.state = .running then r.grateRunning + 1 else r.grateRunning,
             bedHigh := if p.bedAbove then r.bedHigh + 1 else r.bedHigh }

/-- One cooling period due at t. -/
def Part.coolingPeriod (t : Time) (p : Part) : Part :=
  let p := { p with nextCool := nextMultiple t second }
  let p := (((p.forAll fanIds Part.controlFan).controlGrate).formAir).forAll fanIds Part.fanSecond
  (p.grateSecond).settle

/-- R130. -/
def execCoolingPeriod (s : State) : Host.Outcome State Fault Refusal :=
  s.act fun p => if p.started then p.whenDue (some p.nextCool) (Part.coolingPeriod p.nextCool) else p

/-! ## Read-out (R137) -/

def FanCfg.data (c : FanCfg) : List Byte :=
  [boolByte c.used, byteOf c.destination.code] ++ be16 c.base ++ [byteOf c.apf] ++ be16 c.minFlow ++ be16 c.maxFlow ++
  [byteOf c.airFactor, byteOf c.gain, byteOf c.startTime]

/-- A timer that may be absent, read as the time it has run. DESIGN CHOICE (log 12): R201 names no width for a time run; it
has the 4 bytes of a time left. -/
def optRun (now : Time) (t : Option Time) : List Byte := optBytes 4 (fun t => be32 (tenthsRun now t)) t

/-- The data of one fan in READ COOLER. DESIGN CHOICE (log 12): the held flow and its time left share a presence byte, and
a run bit and its validity take a byte each. -/
def Part.fanData (p : Part) (n : Fin 4) : List Byte :=
  let x := p.fans[n]
  let q := p.field.image.flow[n]
  let bit := p.field.image.fanRun[n]
  x.cfg.data ++ [byteOf x.state.code] ++ be16 p.field.output.fanSpeed[n] ++ [boolByte p.field.output.fanRun[n]] ++
  be16 x.sp ++ be16 q.value ++ [boolByte q.valid, boolByte bit.value, boolByte bit.valid] ++
  optBytes 2 be16 x.lastGood ++ optBytes 6 (fun h => be16 h ++ be32 (leftOrZero p.now x.holdUntil)) x.heldFlow ++
  be16 x.contribution ++ optLeft p.now x.startUntil ++ optRun p.now x.fbLoss ++ [flagByte [x.tripCond, x.startFail]]

def GrateCfg.data (c : GrateCfg) : List Byte :=
  [boolByte c.used] ++ be16 c.minSpeed ++ be16 c.maxSpeed ++ [byteOf c.gain] ++ be16 c.low ++ be16 c.high ++
  be16 c.initial ++ be16 c.highLimit

def Part.grateData (p : Part) : List Byte :=
  let g := p.grate
  let i := p.field.image
  g.cfg.data ++ [byteOf g.state.code] ++ be16 p.field.output.grateSpeed ++ [boolByte p.field.output.grateRun] ++
  be16 g.psp ++ be16 i.bed.value ++ [boolByte i.bed.valid, boolByte i.grateRun.value, boolByte i.grateRun.valid] ++
  optRun p.now g.fbLoss ++ optRun p.now (g.bedHigh.map Timer.start) ++
  [flagByte [p.bedHighActive, g.fault]]

/-- The data of READ COOLER. -/
def Part.coolerData (p : Part) : List Byte :=
  (fanIds.flatMap p.fanData) ++ be16 (p.zoneHeat .kiln) ++ be16 (p.zoneHeat .calciner) ++ be16 p.air.secondary ++
  be16 p.air.tertiary ++ [byteOf p.air.fansSec, byteOf p.air.fansTer] ++ p.grateData

/-- R137. -/
def execReadCooler (s : State) : Host.Outcome State Fault Refusal :=
  s.act fun p => p.reply 0x40 .done p.coolerData

end Sys2Proof.Machine
end

