-- ==== Sys2Proof/Machine/FeederRows.lean ====
section
/-! DEFINITION. The rows of the Feeder Controller (chapter 6): fuel table, configuration, the control period, mix and mix
ramp, calibration and read-out. -/

namespace Sys2Proof.Machine

open Sys2Proof.Config

/-! ## Fuel table (R97, R98) -/

/-- A CV in its range: 0 for unset, or 5000 to 50000 kJ/kg. -/
def cvGood (cv : Nat) : Bool := cv == 0 || (5000 ≤ cv && cv ≤ 50000)

def Part.setFuel (i : Fin 8) (cv : Nat) (p : Part) : Part := { p with fuel := p.fuel.set i cv }

/-- R97. -/
def execConfigureFuel (index cv : Nat) (s : State) : Host.Outcome State Fault Refusal :=
  s.act fun p =>
    if p.started then p.reply 0x30 .wrongLifecycle
    else
      match finOf 8 index with
      | none => p.reply 0x30 .badOperand
      | some i => if cvGood cv then (p.setFuel i cv).reply 0x30 .done else p.reply 0x30 .badOperand

/-- CALIBRATION CHANGED of the open record (R98, R119). -/
def ShiftRec.calibrated (r : ShiftRec) : ShiftRec := { r with calibration := true }

/-- R98. -/
def execWriteFuel (index cv : Nat) (s : State) : Host.Outcome State Fault Refusal :=
  s.act (Part.engineering 0x31 fun p =>
    match finOf 8 index with
    | none => p.reply 0x31 .badOperand
    | some i =>
      if cvGood cv then (((p.setFuel i cv).record ShiftRec.calibrated).settle).engineeringDone 0x31
      else p.reply 0x31 .badOperand)

/-- The data of READ FUEL TABLE. -/
def Part.fuelData (p : Part) : List Byte := (List.finRange 8).flatMap fun i => be16 p.fuel[i]

/-- R120. -/
def execReadFuelTable (s : State) : Host.Outcome State Fault Refusal :=
  s.act fun p => p.reply 0x32 .done p.fuelData

/-! ## Configuration (R99) -/

/-- The items of CONFIGURE FEEDER within their ranges. -/
def feederItems (used burner fuel minRate maxRate ramp window gain deviation mix weight : Nat) : Option FeederCfg :=
  match boolOf used, finOf 2 burner, finOf 8 fuel with
  | some u, some b, some i =>
    if minRate ≤ 65000 ∧ 1 ≤ maxRate ∧ maxRate ≤ 65000 ∧ minRate ≤ maxRate ∧ 1 ≤ ramp ∧ ramp ≤ 5000 ∧ 2 ≤ window ∧
        window ≤ 10 ∧ gain ≤ 100 ∧ deviation ≤ 65000 ∧ mix ≤ 1000 ∧ 1 ≤ weight ∧ weight ≤ 10000 then
      some { used := u, burner := b, fuel := i, minRate := minRate, maxRate := maxRate, ramp := ramp, window := window,
             gain := gain, deviation := deviation, mix := mix, weight := weight }
    else none
  | _, _, _ => none

/-- A feeder configured: the mix fraction takes the initial mix, and the state follows the used item (R99, R100). -/
def Feeder.configure (c : FeederCfg) (x : Feeder) : Feeder :=
  { x with cfg := c, mix := c.mix, state := if c.used then .stopped else .unused }

/-- R99. -/
def execConfigureFeeder (feeder used burner fuel minRate maxRate ramp window gain deviation mix weight : Nat)
    (s : State) : Host.Outcome State Fault Refusal :=
  s.act fun p =>
    if p.started then p.reply 0x33 .wrongLifecycle
    else
      match finOf 6 feeder, feederItems used burner fuel minRate maxRate ramp window gain deviation mix weight with
      | some f, some c => (p.updFeeder f (Feeder.configure c)).reply 0x33 .done
      | _, _ => p.reply 0x33 .badOperand

/-! ## The control period (R107) -/

/-- The used feeders, in feeder order. -/
def Part.usedFeeders (p : Part) : List (Fin 6) := feederIds.filter fun f => p.feeders[f].cfg.used

/-- A count raised by one while a flag is set. -/
def countIf (b : Bool) (c : Count) : Count := if b then c + 1 else c

/-- The zone seconds of the open record (R71). -/
def Part.zoneSecond (p : Part) : Part :=
  if p.started && p.cfg.zone != .none then
    p.record fun r =>
      { r with airLimited := countIf p.alloc.airLimited r.airLimited, shortfall := countIf p.alloc.shortfall r.shortfall,
               demandHeld := countIf p.alloc.demandHeld r.demandHeld }
  else p

/-- The firing second of a burner (R94). -/
def Part.firingSecond (b : Fin 2) (p : Part) : Part :=
  if p.burners[b].cfg.used && p.burners[b].state.fires then
    p.record (ShiftRec.updBurner b fun t => { t with firing := t.firing + 1 })
  else p

/-- A station-second boundary at a control period: counts of seconds, then totals and buckets of each feeder. -/
def Part.stationSecond (p : Part) : Part :=
  ((p.zoneSecond).forAll burnerIds Part.firingSecond).forAll feederIds Part.secondOfFeeder

/-- Steps 2 to 5 of R107. -/
def Part.dose (p : Part) : Part :=
  let p := p.forAll p.usedFeeders fun f p => p.updFeeder f (Feeder.moveSetpoint p.alloc.massF[f])
  let p := p.settleFeeders
  let p := p.forAll p.usedFeeders fun f p => (p.updFeeder f Feeder.updateTrim).writeFeeder f
  p.forAll p.usedFeeders fun f p => p.updFeeder f (Feeder.testTimers p.now p.field.output.speed[f])

/-- The end of loading (R83). -/
def Part.checkLoaded (b : Fin 2) (p : Part) : Part :=
  if p.burners[b].state = .loading ∧ p.alloc.targetB[b] * 9 ≤ p.alloc.deliveredB[b] * 10 then p.enterFiring b else p

/-- One feeder control period due at t. DESIGN CHOICE (log 10): the end of loading is compared for both burners before the
end of stopping for either (R107 step 6 names the two comparisons in that order, and no order of the burners). -/
def Part.controlPeriod (t : Time) (p : Part) : Part :=
  let p := { p with nextFeeder := nextMultiple t feederPeriod }
  let p := if t % second = 0 then p.stationSecond else p
  let p := (p.dose).deliverHeat
  ((p.forAll burnerIds Part.checkLoaded).forAll burnerIds Part.checkStopped).settle

/-- R107. -/
def execFeederControlPeriod (s : State) : Host.Outcome State Fault Refusal :=
  s.act fun p => if p.started then p.whenDue (some p.nextFeeder) (Part.controlPeriod p.nextFeeder) else p

/-- R112. -/
def execDeviationTime (f : Fin 6) (s : State) : Host.Outcome State Fault Refusal :=
  s.act fun p =>
    p.whenDue (timerDue 20000 p.feeders[f].devTimer) fun p =>
      (p.updFeeder f fun x => { x with devTimer := x.devTimer.map Timer.pass }).settle

/-- R113. -/
def execNoFlowTime (f : Fin 6) (s : State) : Host.Outcome State Fault Refusal :=
  s.act fun p =>
    p.whenDue (timerDue 10000 p.feeders[f].noFlow) fun p =>
      (p.updFeeder f fun x => { x with noFlow := x.noFlow.map Timer.pass }).settle

/-! ## Mix (R114 to R117) -/

/-- The fourth check of R114: fractions within 1000, 0 for feeders that are not of the burner, 1000 over those that are. -/
def Part.mixGood (b : Fin 2) (m : Vector Nat 6) (p : Part) : Bool :=
  feederIds.all (fun f => decide (m[f] ≤ 1000) && (m[f] == 0 || (p.feedersOf b).contains f)) &&
    sumOver (p.feedersOf b) (fun f => m[f]) == 1000

/-- A mix-ramp record is made and MIX-CHANGE requested (R115). -/
def Part.makeRamp (b : Fin 2) (m : Vector Nat 6) (p : Part) : Part :=
  (p.setRamp b (some { ramping := false, old := p.presentMix b, target := m, time := p.cfg.mixTime, elapsed := 0,
                       nextStep := 0 })).request 2 b.val

/-- SET MIX on a burner with a mix-ramp record (R117). -/
def Part.retarget (b : Fin 2) (m : Vector Nat 6) (r : MixRamp) (p : Part) : Part :=
  if m = p.presentMix b then (p.setRamp b none).withdraw 2 b.val
  else
    p.setRamp b (some { r with target := m, old := p.presentMix b, elapsed := 0, nextStep := nextMultiple p.now second })

/-- The effect of a SET MIX that is taken (R114). -/
def Part.setMix (b : Fin 2) (m : Vector Nat 6) (p : Part) : Part :=
  match p.ramps[b] with
  | some r => p.retarget b m r
  | none =>
    if !p.burners[b].state.fires then p.replaceMix b m
    else if m = p.presentMix b then p
    else p.makeRamp b m

/-- R114. -/
def execSetMix (burner m0 m1 m2 m3 m4 m5 : Nat) (s : State) : Host.Outcome State Fault Refusal :=
  s.act (Part.burnerCommand 0x34 burner fun b p =>
    let m : Vector Nat 6 := #v[m0, m1, m2, m3, m4, m5]
    if !p.mixGood b m then p.reply 0x34 .badOperand
    else if p.burners[b].state.fires && p.ramps[b].isNone && p.line.silent then p.reply 0x34 .noLine
    else ((p.setMix b m).settle).reply 0x34 .done)

/-- The cumulative mix of a feeder at a step (R116). -/
def cumulative (old target time elapsed : Nat) : Nat := (old * (time - elapsed) + target * elapsed) / time

/-- The fractions of a burner at a step: each cumulative less the one before it. -/
def Part.steppedMix (b : Fin 2) (r : MixRamp) (p : Part) : Vector Nat 6 :=
  Vector.ofFn fun f =>
    let upTo := (p.feedersOf b).filter (· ≤ f)
    let below := (p.feedersOf b).filter (· < f)
    if (p.feedersOf b).contains f then
      cumulative (sumOver upTo fun g => r.old[g]) (sumOver upTo fun g => r.target[g]) r.time r.elapsed -
        cumulative (sumOver below fun g => r.old[g]) (sumOver below fun g => r.target[g]) r.time r.elapsed
    else 0

/-- One step of a RAMPING record (R116). -/
def Part.rampStep (b : Fin 2) (r : MixRamp) (p : Part) : Part :=
  let r := { r with elapsed := r.elapsed + 1, nextStep := nextMultiple r.nextStep second }
  let p := p.replaceMix b (p.steppedMix b r)
  if r.time ≤ r.elapsed then (p.setRamp b none).withdraw 2 b.val else p.setRamp b (some r)

/-- R116. -/
def execMixRampStep (b : Fin 2) (s : State) : Host.Outcome State Fault Refusal :=
  s.act fun p =>
    match p.ramps[b] with
    | some r => if r.ramping then p.whenDue (some r.nextStep) fun p => (p.rampStep b r).settle else p
    | none => p

/-! ## Calibration (R119) -/

/-- A new pulse weight; while STARTED the rate is formed anew from the ring, unless the measurement is BAD or the ring
is empty. -/
def Feeder.weigh (started : Bool) (w : Nat) (x : Feeder) : Feeder :=
  { x with cfg := { x.cfg with weight := w },
           rate := if started && !x.measBad && !x.ring.isEmpty then ringRate x.ring w else x.rate }

/-- R119. -/
def execWritePulseWeight (feeder weight : Nat) (s : State) : Host.Outcome State Fault Refusal :=
  s.act (Part.engineering 0x35 fun p =>
    match finOf 6 feeder with
    | none => p.reply 0x35 .badOperand
    | some f =>
      if !p.feeders[f].cfg.used then p.reply 0x35 .unusedObject
      else if weight = 0 ∨ 10000 < weight then p.reply 0x35 .badOperand
      else ((p.updFeeder f (Feeder.weigh p.started weight)).record ShiftRec.calibrated).engineeringDone 0x35)

/-! ## Read-out (R120) -/

def FeederCfg.data (c : FeederCfg) : List Byte :=
  [boolByte c.used, byteOf c.burner.val, byteOf c.fuel.val] ++ be16 c.minRate ++ be16 c.maxRate ++ be16 c.ramp ++
  [byteOf c.window, byteOf c.gain] ++ be16 c.deviation ++ be16 c.mix ++ be16 c.weight

/-- A mix-ramp record as it is read: its state, old and target mix, T and e. DESIGN CHOICE (log 12): the state, to which 12.2
gives no code, is WAITING 0, RAMPING 1; each mix is six fractions in feeder order, 0 for a feeder of the other burner. -/
def MixRamp.data (r : MixRamp) : List Byte :=
  [boolByte r.ramping] ++ (feederIds.flatMap fun f => be16 r.old[f]) ++ (feederIds.flatMap fun f => be16 r.target[f]) ++
  be16 r.time ++ be16 r.elapsed

/-- A signed quantity in two bytes, two's complement (DESIGN CHOICE, log 12). -/
def int16 (i : Int) : List Byte := be16 (BitVec.ofInt 16 i).toNat

/-- The data of READ FEEDER (R120). DESIGN CHOICE (log 12): the measurement state, to which 12.2 gives no code, is GOOD 0,
BAD 1; pulse count, local input and running bit are each followed by a validity byte; run command and remote enable are one
flag byte, and the three conditions one; a time run has 4 bytes. -/
def Part.feederData (p : Part) (f : Fin 6) : List Byte :=
  let x := p.feeders[f]
  let o := p.field.output
  let i := p.field.image
  x.cfg.data ++ [byteOf x.state.code] ++ be16 x.mix ++ optBytes 29 MixRamp.data p.ramps[x.cfg.burner] ++
  be16 p.alloc.massF[f] ++ be16 x.setpoint ++ [byteOf x.rampRem] ++ int16 x.trim ++
  be16 o.speed[f] ++ [flagByte [o.run[f], o.remote[f]]] ++ be16 x.rate ++ [boolByte x.measBad] ++
  [byteOf x.ring.length] ++ x.ring.flatMap be32 ++ be32 x.bucket ++
  be16 i.pulses[f].value ++ [boolByte i.pulses[f].valid] ++ [boolByte i.inLocal[f].value, boolByte i.inLocal[f].valid] ++
  [boolByte i.running[f].value, boolByte i.running[f].valid] ++
  be32 x.kg.toNat ++ be32 x.kWh.toNat ++ be32 x.seconds.toNat ++ be16 x.gramRem ++ be32 x.energyRem ++
  [flagByte [x.devTimer.any (·.passed), x.noFlow.any (·.passed), x.cfg.used && p.started && x.measBad]] ++
  optBytes 4 (fun t : Timer => be32 (tenthsRun p.now t.start)) x.devTimer ++
  optBytes 4 (fun t : Timer => be32 (tenthsRun p.now t.start)) x.noFlow

/-- R120. -/
def execReadFeeder (feeder : Nat) (s : State) : Host.Outcome State Fault Refusal :=
  s.act fun p =>
    match finOf 6 feeder with
    | none => p.reply 0x36 .badOperand
    | some f => p.reply 0x36 .done (p.feederData f)

end Sys2Proof.Machine
end

