-- ==== Sys2Proof/Machine/FieldRows.lean ====
section
/-! DEFINITION. The rows of the Field Scanner (chapter 10): scan start, scan completion with its hand-on, and READ FIELD. -/

namespace Sys2Proof.Machine

open Sys2Proof.Config

/-! ## The blocks (12.4, R200) -/

/-- The 26 bytes of an output image; bits without a field are 0. -/
def OutputImage.bytes (o : OutputImage) : List Byte :=
  (feederIds.flatMap fun f => be16 o.speed[f]) ++
  [flagByte (feederIds.map fun f => o.run[f]), flagByte (feederIds.map fun f => o.remote[f]),
   flagByte [o.igniter[(0 : Fin 2)], o.igniter[(1 : Fin 2)], false, false, false, false, false, o.horn]] ++
  (fanIds.flatMap fun n => be16 o.fanSpeed[n]) ++
  [flagByte ((fanIds.map fun n => o.fanRun[n]) ++ [o.grateRun])] ++ be16 o.grateSpeed

/-- The output block taken at a scan start: all off while UNSTARTED (R178). -/
def Part.outputBlock (p : Part) : List Byte :=
  withCrc (if p.started then p.field.output.bytes else OutputImage.off.bytes)

/-- The validity mark of channel c in an input block. -/
def marked (l : List Byte) (c : Nat) : Bool := bitAt l (31 + c / 8) (c % 8)

/-- A channel of one bit. -/
def bitChannel (l : List Byte) (byte bit c : Nat) : Channel Bool := ⟨bitAt l byte bit, marked l c⟩

/-- The image that a good scan brings in (R177); only the bed pressure can lie outside its range. -/
def InputImage.ofBlock (l : List Byte) : InputImage where
  pulses := Vector.ofFn fun f => ⟨wordAt l (1 + 2 * f.val), marked l f.val⟩
  inLocal := Vector.ofFn fun f => bitChannel l 13 f.val (6 + f.val)
  running := Vector.ofFn fun f => bitChannel l 14 f.val (12 + f.val)
  flame := Vector.ofFn fun b => ⟨byteAt l (15 + b.val), marked l (18 + b.val)⟩
  permit := Vector.ofFn fun b => bitChannel l 17 b.val (20 + b.val)
  flow := Vector.ofFn fun n => ⟨wordAt l (18 + 2 * n.val), marked l (22 + n.val)⟩
  fanRun := Vector.ofFn fun n => bitChannel l 26 n.val (26 + n.val)
  bed := ⟨wordAt l 27, marked l 30 && decide (wordAt l 27 ≤ 20000)⟩
  grateRun := bitChannel l 26 4 31
  discrete := Vector.ofFn fun n => ⟨(wordAt l 29).testBit n.val, marked l (32 + n.val)⟩

/-- A channel made BAD, its value kept. -/
def Channel.spoil (c : Channel α) : Channel α := { c with valid := false }

/-- Every channel BAD, values kept (R179). -/
def InputImage.spoil (i : InputImage) : InputImage where
  pulses := Vector.ofFn fun f => i.pulses[f].spoil
  inLocal := Vector.ofFn fun f => i.inLocal[f].spoil
  running := Vector.ofFn fun f => i.running[f].spoil
  flame := Vector.ofFn fun b => i.flame[b].spoil
  permit := Vector.ofFn fun b => i.permit[b].spoil
  flow := Vector.ofFn fun n => i.flow[n].spoil
  fanRun := Vector.ofFn fun n => i.fanRun[n].spoil
  bed := i.bed.spoil
  grateRun := i.grateRun.spoil
  discrete := Vector.ofFn fun n => i.discrete[n].spoil

/-! ## The scan state (R179) -/

def blockCrcGood (l : List Byte) : Bool := crc (l.take 37) == BitVec.ofNat 16 (wordAt l 37)

def blockReady (l : List Byte) : Bool := bitAt l 0 0

/-- The table of R179. -/
def Field.move (good : Bool) (l : List Byte) (f : Field) : Field :=
  match f.state, good with
  | .good, true => { f with image := .ofBlock l }
  | .good, false => { f with state := .holding, badRun := 1 }
  | .holding, true => { f with state := .good, image := .ofBlock l, badRun := 0 }
  | .holding, false =>
    if f.badRun < 3 then { f with badRun := f.badRun + 1 }
    else { f with state := .failed, image := f.image.spoil, badRun := 4, goodRun := 0, failures := f.failures + 1 }
  | .failed, true =>
    if f.goodRun < 2 then { f with image := f.image.spoil, goodRun := f.goodRun + 1 }
    else { f with state := .good, image := .ofBlock l, badRun := 0, goodRun := 0 }
  | .failed, false => { f with image := f.image.spoil, goodRun := 0 }

/-- The counts and the time of the last good scan (R179). -/
def Field.count (now : Time) (l : List Byte) (f : Field) : Field :=
  let good := blockCrcGood l && blockReady l
  { f with scans := f.scans + 1,
           crcErrors := if blockCrcGood l then f.crcErrors else f.crcErrors + 1,
           notReady := if blockCrcGood l && !blockReady l then f.notReady + 1 else f.notReady,
           lastGood := if good then some now else f.lastGood }

/-- A scan begins: the output block is taken (R175, R178). DESIGN CHOICE (log 35): from here READ FIELD shows it as the
block sent at the last scan, before this scan completes (R181). -/
def Part.startScan (t : Time) (p : Part) : Part :=
  let block := p.outputBlock
  { p with field := { p.field with sentBlock := block, inFlight := true, nextScan := nextMultiple t scanPeriod } }

/-- R175. -/
def execFieldScanStart (s : State) : Host.Outcome State Fault Refusal :=
  s.act fun p => p.whenDue (some p.field.nextScan) (Part.startScan p.field.nextScan)

/-! ## Hand-on (R180) -/

/-- Pulses and local input of a used feeder while STARTED (R102, R100); `before` are the local inputs as the scan found
them. -/
def Part.scanFeeder (before : Vector (Channel Bool) 6) (f : Fin 6) (p : Part) : Part :=
  if p.started && p.feeders[f].cfg.used then
    (p.updFeeder f (Feeder.scan p.field.image.pulses[f])).takeLocal before[f] f
  else p

/-- The flame of a used burner as this scan shows it (R79), with the items of R77 and R85 that follow it. -/
def Burner.seeFlame (now : Time) (present below : Bool) (x : Burner) : Burner :=
  { x with flame := present, flameSince := if present = x.flame then x.flameSince else now,
           proving := if x.state = .igniting ∧ present = true then x.proving.or (some now) else none,
           absent := if x.state.fires = true ∧ present = false then x.absent.or (some now) else none,
           weak := if x.state = .firing ∧ below = true then x.weak.or (some ⟨now, false⟩) else none }

/-- R79, of used burners only. DESIGN CHOICE (log 32): for a burner not used, flame presence and the time it was last decided
stay as they were (their reset values at first), and READ BURNER shows them so. -/
def Part.scanFlame (b : Fin 2) (p : Part) : Part :=
  if p.burners[b].cfg.used then
    let c := p.field.image.flame[b]
    p.updBurner b (Burner.seeFlame p.now (c.valid && decide (p.burners[b].cfg.threshold ≤ c.value)) (p.flameBelowWeak b))
  else p

/-- A permit that is negated or BAD (R81, R90). -/
def Part.scanPermit (b : Fin 2) (p : Part) : Part :=
  if !p.burners[b].cfg.used || p.permitGood b then p
  else
    match p.burners[b].state with
    | .lightWait => p.enterOff b
    | .igniting | .loading | .firing => p.hold b false
    | _ => p

/-- The held flow of a RUNNING fan (R131); one spell of BAD flow arms it once (DEDUCED, log 27). -/
def Fan.seeFlow (now : Time) (q : Channel Nat) (x : Fan) : Fan :=
  if x.state = .running then
    if q.valid then { x with lastGood := some q.value, heldFlow := none, holdUntil := none, holdSpent := false }
    else if x.heldFlow.isNone && x.lastGood.isSome && !x.holdSpent then
      { x with heldFlow := x.lastGood, holdUntil := some (later now holdTime) }
    else x
  else x

/-- A feedback-loss timer at a scan: begun or kept while the feedback of a RUNNING drive is absent, removed else (R126,
R133). A held image starts none (R179). -/
def lossTimer (now : Time) (running present held : Bool) (t : Option Time) : Option Time :=
  if running && !present then (if held then t else t.or (some now)) else none

/-- The feedback-loss timer of a RUNNING fan (R126). -/
def Fan.seeFeedback (now : Time) (present held : Bool) (x : Fan) : Fan :=
  { x with fbLoss := lossTimer now (x.state == .running) present held x.fbLoss }

/-- The image handed on is the held one (R179). -/
def Part.imageHeld (p : Part) : Bool := p.field.state == .holding

/-- The start of a STARTING fan is complete at this scan (R125). -/
def Part.startComplete (n : Fin 4) (p : Part) : Bool :=
  let q := p.field.image.flow[n]
  p.fans[n].state == .starting && p.fanFeedback n && q.valid && decide (p.fans[n].cfg.minFlow ≤ q.value)

def Part.scanFan (n : Fin 4) (p : Part) : Part :=
  let p := if p.startComplete n then p.fanTo n .running else p
  p.updFan n fun x => (x.seeFlow p.now p.field.image.flow[n]).seeFeedback p.now (p.fanFeedback n) p.imageHeld

/-- The timers of the grate (R133, R135); the bed-high timer runs while UNSTARTED too. -/
def Part.scanGrate (p : Part) : Part :=
  p.updGrate fun g =>
    { g with fbLoss := lossTimer p.now (g.state == .running) p.grateFeedback p.imageHeld g.fbLoss,
             bedHigh := if p.bedAbove then g.bedHigh.or (some ⟨p.now, false⟩) else none }

/-- The condition of a FIELD-sourced external point (R150). -/
def Part.scanExternal (n : Fin 16) (p : Part) : Part :=
  let d := p.field.image.discrete[n]
  p.updAlarms fun a =>
    { a with ext := a.ext.set n (if a.ext[n].source = .field ∧ d.valid = true then { a.ext[n] with cond := d.value }
                                 else a.ext[n]) }

/-- The new or held image handed to every block that reads it, FIELD SCAN FAIL first (log 10); `before` are the local
inputs as the scan found them. -/
def Part.handScan (before : Vector (Channel Bool) 6) (p : Part) : Part :=
  let p := (p.settlePoint 0).forAll feederIds (Part.scanFeeder before)
  let p := (p.forAll burnerIds Part.scanFlame).forAll burnerIds Part.scanPermit
  let p := ((p.forAll fanIds Part.scanFan).scanGrate).forAll (List.finRange 16) Part.scanExternal
  p.settleAll

/-- A scan is complete (R179, R180). -/
def Part.completeScan (l : List Byte) (p : Part) : Part :=
  let f := (p.field.count p.now l).move (blockCrcGood l && blockReady l) l
  Part.handScan p.field.image.inLocal { p with field := { f with inFlight := false } }

/-- R179, R180: the bits that FDI brought make the input block, each byte from its most significant bit (R198). A completion
with no scan in flight counts its own start first (DESIGN CHOICE, log 16). -/
def execFieldScanComplete (fdi : List Bool) (s : State) : Host.Outcome State Fault Refusal :=
  s.act fun p => (if p.field.inFlight then p else p.startScan p.now).completeScan (fieldBytes fdi)

/-! ## READ FIELD (R181) -/

def Channel.data (f : α → List Byte) (c : Channel α) : List Byte := f c.value ++ [boolByte c.valid]

/-- The 48 channels in the order of R176. DESIGN CHOICE (log 12): each channel's value is followed by a validity byte of its
own, and a bit channel is two bytes. -/
def InputImage.data (i : InputImage) : List Byte :=
  let bit := Channel.data fun b => [boolByte b]
  (feederIds.flatMap fun f => i.pulses[f].data be16) ++ (feederIds.flatMap fun f => bit i.inLocal[f]) ++
  (feederIds.flatMap fun f => bit i.running[f]) ++ (burnerIds.flatMap fun b => i.flame[b].data fun v => [byteOf v]) ++
  (burnerIds.flatMap fun b => bit i.permit[b]) ++ (fanIds.flatMap fun n => i.flow[n].data be16) ++
  (fanIds.flatMap fun n => bit i.fanRun[n]) ++ i.bed.data be16 ++ bit i.grateRun ++
  ((List.finRange 16).flatMap fun n => bit i.discrete[n])

/-- The data of READ FIELD. DESIGN CHOICE (log 12): the output image goes out as the first 26 bytes of the output block it
makes (12.4), without CRC. -/
def Field.data (f : Field) : List Byte :=
  [byteOf f.state.code, byteOf f.badRun, byteOf f.goodRun] ++ be32 f.scans.toNat ++ be32 f.crcErrors.toNat ++
  be32 f.notReady.toNat ++ be32 f.failures.toNat ++ optBytes 4 (fun t => be32 (tenths t)) f.lastGood ++ f.image.data ++
  f.output.bytes ++ f.sentBlock

/-- R181. -/
def execReadField (s : State) : Host.Outcome State Fault Refusal :=
  s.act fun p => p.reply 0x60 .done p.field.data

end Sys2Proof.Machine
end

