-- ==== Sys2Proof/Machine/LineRows.lean ====
section
/-! DEFINITION. The rows of the firing line (chapter 1): sending, reception, the duplicate and line-stuck conditions, the
STATUS schedule and READ LINE STATUS. -/

namespace Sys2Proof.Machine

open Sys2Proof.Config

/-- An attempt at the head begins: it takes its SEQUENCE if it has none (R5), and its characters are fixed (R6, R10).
DEDUCED (log 5): the own characters are no idle line, so the receiver waits for one after them. -/
def Part.beginAttempt (p : Part) : Part :=
  match p.line.queue with
  | h :: t =>
    let seq := h.seq.getD p.line.sequence
    p.updLine fun l =>
      { l with queue := { h with seq := some seq } :: t, phase := .sending, lastTry := false, receiver := .waiting,
               sequence := if h.seq.isSome then l.sequence else l.sequence + 1, wire := p.frameBytes h.body seq }
  | [] => p

/-- R9, R5, R6. The idle time is given in whole character times; more than 2 of them end a partial frame (R13, R14). -/
def execAccessGapReached (idle : Nat) (s : State) : Host.Outcome State Fault Refusal :=
  s.act fun p =>
    let p := if p.listening && decide (2 < idle) then p.lineIdled [] else p
    match p.line.phase, p.line.queue with
    | .idle, h :: _ => if p.accessGap h ≤ idle then p.beginAttempt else p
    | _, _ => p

/-- The head sent whole leaves the queue (R10); transmit-fail clears (R12). -/
def Part.sentWhole (h : TxFrame) (p : Part) : Part :=
  (p.updLine fun l =>
    { l with queue := l.queue.tail, counts := { l.counts with sent := l.counts.sent + 1 }, txFail := false,
             lastSent := some (p.now, h.seq.getD 0), phase := .idle, lastTry := false }).claimNotice h.tag true

/-- The first character of the attempt in hand that is read back and not good (R10). -/
def Line.mismatch (back : List ReadBack) (l : Line) : Option Nat := mismatchFrom 0 l.wire back

/-- Every character of the attempt in hand is read back good (R10). -/
def Line.readsBack (back : List ReadBack) (l : Line) : Bool := back.length == l.wire.length && (l.mismatch back).isNone

/-- The transmitter's own output over an attempt, as a receiver takes it that hears nothing else: each character as it is
sent, its stop bit in the last of its 11 bit times (R1, R10). -/
def Line.output (l : Line) : List ReadBack := l.wire.mapIdx fun n b => .heard (charOf b) (11 * n + 10)

/-- What the receiver takes back while the station sends: in LOOPBACK the part's own transmitter output, with LRX ignored (R3);
else what the row brings from the line (R10). -/
def Part.takesBack (back : List ReadBack) (p : Part) : List ReadBack := if p.loopback then p.line.output else back

/-- R10, R12, R43: what is read back is compared with what was sent; in LOOPBACK it is the own output, whatever LRX brings
(R3). DESIGN CHOICE (log 5): where it is not the whole frame, or not good, the row changes nothing. -/
def execFrameSentWhole (back : List ReadBack) (s : State) : Host.Outcome State Fault Refusal :=
  s.act fun p =>
    match p.line.phase, p.line.queue with
    | .sending, h :: _ => if p.line.readsBack (p.takesBack back) then (p.sentWhole h).settleAll else p
    | _, _ => p

/-- The head's attempt has failed (R11, R12, R19, R24): removed without a count on a last try, retried, or given up. -/
def Part.failAttempt (h : TxFrame) (t : List TxFrame) (p : Part) : Part :=
  if p.line.lastTry then p.updLine fun l => { l with queue := t, lastTry := false }
  else if h.attempts + 1 < 8 then
    (p.updLine fun l =>
      { l with queue := orderQueue ({ h with attempts := h.attempts + 1 } :: t),
               counts := { l.counts with retries := l.counts.retries + 1 } }).record
      fun r => { r with retries := r.retries + 1 }
  else ((p.updLine fun l => { l with queue := t }).transmitFailure).claimNotice h.tag false

/-- R10, R11: what is read back is compared with what was sent, and at the first mismatch the station sends no further
character and breaks; the frame stands at the head until its break ends (DESIGN CHOICE, log 21). DESIGN CHOICE (log 5): where
nothing read back is a mismatch, the row changes nothing; in LOOPBACK nothing ever is (R3). -/
def execReadBackMismatch (back : List ReadBack) (s : State) : Host.Outcome State Fault Refusal :=
  s.act fun p =>
    match p.line.phase, p.line.mismatch (p.takesBack back) with
    | .sending, some n => p.updLine fun l => { l with phase := .breaking, wire := l.wire.take (n + 1) }
    | _, _ => p

/-- The break has lasted its 2 character times, and the driver is released (R11). DEDUCED (log 30): it is a break on the
station's own line, so the receiver takes no further character in until the line has idled (R14). -/
def Part.endBreak (p : Part) : Part := p.updLine fun l => { l with phase := .idle, receiver := .deaf }

/-- R11, R12: the break ends, and then the attempt counts: the frame is retried, given up or removed. -/
def execBreakEnded (s : State) : Host.Outcome State Fault Refusal :=
  s.act fun p =>
    match p.line.phase, p.line.queue with
    | .breaking, h :: t => ((p.endBreak).failAttempt h t).settleAll
    | .breaking, [] => p.endBreak
    | _, _ => p

/-- R20: a STATUS is requested, and the timer begins again. -/
def execStatusPeriodExpiry (s : State) : Host.Outcome State Fault Refusal :=
  s.act fun p =>
    p.whenDue p.line.statusDue fun p =>
      ((p.updLine fun l => { l with statusDue := l.statusDue.map (later · p.cfg.period) }).queueFrame .status).settle

/-- R15, R16, R18. -/
def execFrameReceived (chars : List Byte) (s : State) : Host.Outcome State Fault Refusal :=
  s.act fun p => if p.listening then ((p.takeChars chars).settleAll).keepAborted p.fans else p

/-- R15: SOURCE, KIND or LENGTH fails its test as it arrives. -/
def execBadHeaderDiscard (chars : List Byte) (s : State) : Host.Outcome State Fault Refusal :=
  s.act fun p => if p.listening then ((p.takeChars chars).settleAll).keepAborted p.fans else p

/-- R14: a character with an error or a break. With no partial frame, a bad character counts as one, also while the receiver
waits for idle after a pin reset or an own attempt, and a break discards nothing. After either no character is taken in until
the line has idled, and none is counted. DESIGN CHOICE (log 5): a character that passes the tests of R1 is no such event, and
the row changes nothing. DESIGN CHOICE (log 39): characters given with the event are one partial frame with those assembled,
also where they would have made it whole. -/
def execPartialFrameDiscard (cause : Disturbance) (chars : List Byte) (s : State) : Host.Outcome State Fault Refusal :=
  s.act fun p =>
    if !p.listening || p.line.receiver == .deaf || !disturbs cause then p
    else if !p.partialStands chars && spellsBreak cause then p.updLine fun l => { l with receiver := .deaf }
    else p.discardPartial .deaf

/-- R14: a gap of more than 2 character times; the next character begins a new frame. Characters given with it that would
have made a whole frame are discarded untested (DESIGN CHOICE, log 39). -/
def execInterCharacterGap (chars : List Byte) (s : State) : Host.Outcome State Fault Refusal :=
  s.act fun p => if p.listening then p.lineIdled chars else p

/-- R18: the duplicate deadline passes. -/
def execDuplicateDeadlineExpiry (s : State) : Host.Outcome State Fault Refusal :=
  s.act fun p =>
    p.whenDue p.line.dupDeadline fun p => (p.updLine fun l => { l with dupDeadline := none }).settleAll

/-- R17: the line has been spacing for 100 ms; the LRX input is ignored in LOOPBACK (R3). -/
def execLineStuckSet (s : State) : Host.Outcome State Fault Refusal :=
  s.act fun p => if p.loopback then p else (p.updLine fun l => { l with stuck := true }).settleAll

/-- R17: the line has returned to marking for one character time. -/
def execLineStuckCleared (s : State) : Host.Outcome State Fault Refusal :=
  s.act fun p => if p.loopback then p else (p.updLine fun l => { l with stuck := false }).settleAll

/-- The data of READ LINE STATUS (R22). -/
def Part.lineStatusData (p : Part) : List Byte :=
  let c := p.line.counts
  be32 c.sent.toNat ++ be32 c.accepted.toNat ++ be32 c.bad.toNat ++ be32 c.retries.toNat ++ be32 c.failures.toNat ++
  be32 c.duplicates.toNat ++
  [byteOf p.line.queue.length, p.line.sequence, byteOf p.strapRate.val, byteOf p.own, boolByte p.line.silent,
   flagByte [p.line.dupDeadline.isSome, p.line.txFail, p.line.stuck]]

/-- R22. -/
def execReadLineStatus (s : State) : Host.Outcome State Fault Refusal :=
  s.act fun p => p.reply 0x18 .done p.lineStatusData

end Sys2Proof.Machine
end

