-- ==== Sys2Proof/Machine/PeerRows.lean ====
section
/-! DEFINITION. The rows of the Peer Table (chapter 2): aging and the two reads. -/

namespace Sys2Proof.Machine

/-- R30, R31: the aging deadline of a LIVE entry passes; the own entry takes no part (R35). -/
def execPeerAgingExpiry (peer : Fin 16) (s : State) : Host.Outcome State Fault Refusal :=
  s.act fun p =>
    if peer = p.strapStation then p
    else p.whenDue (p.agingDeadline peer) fun p => ((p.losePeer peer).refreshMarks).settleAll

/-- The set of peers in a state, the own station in it by its lifecycle (R32, R35). -/
def Part.peersIn (st : PeerState) (own : Bool) (p : Part) : List Bool :=
  stations.map fun q => if q = p.strapStation then own else p.peers[q].state == st

/-- The data of READ PEER CHANGES (R32). -/
def Part.peerChangesData (p : Part) : List Byte :=
  be16 (setWord p.changeSummary) ++ be16 (setWord (p.peersIn .live p.started)) ++
  be16 (setWord (p.peersIn .lost false)) ++ [byteOf (stationNumber p.demandSource)]

/-- R32. -/
def execReadPeerChanges (s : State) : Host.Outcome State Fault Refusal :=
  s.act fun p => p.reply 0x19 .done p.peerChangesData

/-- The own entry as it reads (R35). -/
def Part.ownEntry (p : Part) : Peer :=
  { Peer.reset with state := if p.started then .live else .absent,
                    contents := if p.started then some p.statusPayload else none,
                    lastTime := p.line.lastSent.map Prod.fst, lastSeq := p.line.lastSent.map Prod.snd }

def ChangeFlags.toByte (f : ChangeFlags) : Byte := flagByte [f.joined, f.lost, f.mode, f.trip, f.demand]

/-- The snapshot of an entry (R33). DESIGN CHOICE (log 12): the stale mark, which R25 has present with the contents only, is
a plain byte ahead of their presence byte, 0 without contents, and has no presence byte of its own (R201). -/
def Peer.data (e : Peer) : List Byte :=
  [byteOf e.state.code, boolByte e.stale] ++ optBytes 25 id e.contents ++
  optBytes 4 (fun t => be32 (tenths t)) e.lastTime ++ optBytes 1 (fun q => [q]) e.lastSeq ++
  be16 e.lost ++ [e.flags.toByte]

/-- R33: the flags a snapshot shows are cleared; the own entry has none. -/
def execReadPeerEntry (station : Nat) (s : State) : Host.Outcome State Fault Refusal :=
  s.act fun p =>
    match stationIndex station with
    | none => p.reply 0x1A .badOperand
    | some q =>
      if q = p.strapStation then p.reply 0x1A .done p.ownEntry.data
      else (p.reply 0x1A .done p.peers[q].data).updPeer q fun e => { e with flags := .clear }

end Sys2Proof.Machine
end

