-- ==== Sys2Proof/WellFormed.lean ====
section
/-! DEFINITION. Which rows can be spelled at a pin of the KF-412: every operand within the width R201 gives it.

A well-formed command may still be refused (a burner number 7 fits its byte and is answered BAD OPERAND). -/

namespace Sys2Proof

/-- Every number listed fits in one byte. -/
def bytesFit (l : List Nat) : Bool := l.all (· < 256)

/-- Every number listed fits in two bytes. -/
def wordsFit (l : List Nat) : Bool := l.all (· < 65536)

/-- A character taken back from the line begins with its spacing start bit (R1). -/
def ReadBack.begins : ReadBack → Bool
  | .heard c _ => !c.getLsbD 0
  | .nothing => true

/-- A row whose operands are within their widths (R201, R200, R4, R2). -/
def Instr.wellFormed : Instr → Bool
  | .pinReset straps rate _ => straps < 16 && rate < 4
  | .configureStation z a fb hu per mt => bytesFit [z, a] && wordsFit [fb, hu, per, mt]
  | .readPeerEntry s => bytesFit [s]
  | .offerDemand h => wordsFit [h]
  | .setMode m => bytesFit [m]
  | .configureBurner b u f r ig pr ld ff th hl ar => bytesFit [b, u, f, ig, pr, ff, th, ar] && wordsFit [r, ld, hl]
  | .startBurner b => bytesFit [b]
  | .stopBurner b => bytesFit [b]
  | .resumeBurner b => bytesFit [b]
  | .resetTripPoint p => bytesFit [p]
  | .resetTripBurner b => bytesFit [b]
  | .readBurner b => bytesFit [b]
  | .configureFuel i cv => bytesFit [i] && wordsFit [cv]
  | .writeFuel i cv => bytesFit [i] && wordsFit [cv]
  | .configureFeeder f u b fu mn mx rr w kt dl im pw =>
      bytesFit [f, u, b, fu, w, kt] && wordsFit [mn, mx, rr, dl, im, pw]
  | .setMix b m0 m1 m2 m3 m4 m5 => bytesFit [b] && wordsFit [m0, m1, m2, m3, m4, m5]
  | .writePulseWeight f w => bytesFit [f] && wordsFit [w]
  | .readFeeder f => bytesFit [f]
  | .configureFan n u d bf ap mn mx af kf st => bytesFit [n, u, d, ap, af, kf, st] && wordsFit [bf, mn, mx]
  | .startFan n => bytesFit [n]
  | .stopFan n => bytesFit [n]
  | .resetFan n => bytesFit [n]
  | .configureGrate u mn mx kg lo hi ini hp => bytesFit [u, kg] && wordsFit [mn, mx, lo, hi, ini, hp]
  | .setBedPressure p => wordsFit [p]
  | .acknowledge p => bytesFit [p]
  | .resetAlarm p => bytesFit [p]
  | .shelve p m => bytesFit [p] && wordsFit [m]
  | .unshelve p => bytesFit [p]
  | .configureExternalPoint n u c l b lw m s => bytesFit [n, u, c, l, b, lw, m, s]
  | .raiseExternal n => bytesFit [n]
  | .clearExternal n => bytesFit [n]
  | .discardPeerTrip s => bytesFit [s]
  | .readPoint p => bytesFit [p]
  | .closeShift n => wordsFit [n]
  | .readShiftRecord i s => bytesFit [i, s]
  | .writeShiftNote n => wordsFit [n]
  | .fieldScanComplete fdi => fdi.length == 312
  | .frameReceived chars => !chars.isEmpty
  | .badHeaderDiscard chars => !chars.isEmpty && chars.length ≤ 3
  | .commandByteWrite _ => true
  | .submit => true
  | .responseByteRead => true
  | .interruptEnablesWrite _ => true
  | .eventWindowRead => true
  | .eventWindowWrite _ => true
  | .startStation => true
  | .restartStation => true
  | .readStation => true
  | .openEngineering _ => true
  | .closeEngineering => true
  | .engineeringDeadline => true
  | .engNegated => true
  | .readLineStatus => true
  | .readPeerChanges => true
  | .readResources => true
  | .withdrawDemand => true
  | .readAllocation => true
  | .readFuelTable => true
  | .startGrate => true
  | .stopGrate => true
  | .readCooler => true
  | .acknowledgeAll => true
  | .shelvingExpiry _ => true
  | .readFirstOut => true
  | .resetFirstOut => true
  | .readSummary => true
  | .clearSummary => true
  | .silenceHorn => true
  | .readPointStates => true
  | .readField => true
  | .accessGapReached _ => true
  | .frameSentWhole back => !back.isEmpty && back.all ReadBack.begins
  | .readBackMismatch back => !back.isEmpty && back.all ReadBack.begins
  | .breakEnded => true
  | .statusPeriodExpiry => true
  | .partialFrameDiscard (.badCharacter c) _ => !c.getLsbD 0
  | .partialFrameDiscard .lineBreak _ => true
  | .interCharacterGap _ => true
  | .duplicateDeadlineExpiry => true
  | .lineStuckSet => true
  | .lineStuckCleared => true
  | .peerAgingExpiry _ => true
  | .staggerEnd _ => true
  | .settleDeadline _ => true
  | .claimantExpiry _ => true
  | .reclaimDelayEnd _ => true
  | .airHoldExpiry => true
  | .feederControlPeriod => true
  | .mixRampStep _ => true
  | .deviationTime _ => true
  | .noFlowTime _ => true
  | .lightWaitExpiry _ => true
  | .flameProven _ => true
  | .ignitionDeadline _ => true
  | .loadingDeadline _ => true
  | .flameFailTime _ => true
  | .flameWeakTime _ => true
  | .heldDeadline _ => true
  | .fieldScanStart => true
  | .fanStartDeadline _ => true
  | .fanFeedbackLoss _ => true
  | .heldFlowExpiry _ => true
  | .coolingPeriod => true
  | .grateFeedbackLoss => true
  | .bedPressureHighTime => true

end Sys2Proof
end

