-- ==== Sys2Proof/Decode.lean ====
section
/-! DEFINITION. Reading a command from the bytes a host has submitted (R184, R201, 11.7), the bytes of each command, and
the host's question about table words: no row of the table gives any bits, so no word spells a row. -/

namespace Sys2Proof

/-- The row a word of the table spells: the table gives no row any bits. -/
def decodeTableWord (_nbits _w : Nat) : Option Instr := none

namespace Machine

/-- The operand count of each command code of 11.7; none for a byte that is no command code. -/
def operandCount (code : Nat) : Option Nat :=
  match code with
  | 0x10 => some 10 | 0x11 => some 0 | 0x12 => some 0 | 0x13 => some 0 | 0x14 => some 0 | 0x15 => some 0
  | 0x18 => some 0 | 0x19 => some 0 | 0x1A => some 1 | 0x1B => some 0
  | 0x20 => some 2 | 0x21 => some 0 | 0x22 => some 0
  | 0x28 => some 1 | 0x29 => some 14 | 0x2A => some 1 | 0x2B => some 1 | 0x2C => some 1 | 0x2D => some 2 | 0x2E => some 1
  | 0x30 => some 3 | 0x31 => some 3 | 0x32 => some 0 | 0x33 => some 18 | 0x34 => some 13 | 0x35 => some 3 | 0x36 => some 1
  | 0x38 => some 13 | 0x39 => some 1 | 0x3A => some 1 | 0x3B => some 1 | 0x3C => some 14 | 0x3D => some 0 | 0x3E => some 0
  | 0x3F => some 2 | 0x40 => some 0
  | 0x48 => some 1 | 0x49 => some 0 | 0x4A => some 1 | 0x4B => some 3 | 0x4C => some 1 | 0x4D => some 8 | 0x4E => some 1
  | 0x4F => some 1 | 0x50 => some 1 | 0x51 => some 0 | 0x52 => some 0 | 0x53 => some 0 | 0x54 => some 0 | 0x55 => some 0
  | 0x56 => some 1 | 0x57 => some 0
  | 0x58 => some 2 | 0x59 => some 2 | 0x5A => some 2
  | 0x60 => some 0
  | _ => none

/-- The row of a command whose form is good: its items in the order of its rule (R201). The ENG level found goes with
OPEN ENGINEERING (R190); the first operand of RESET TRIP selects a point (0) or a burner (1), and any other selector is
handed on as a point number out of range, to be refused with BAD OPERAND. -/
def hostCommand (eng : Bool) (bytes : List Byte) : Option Instr :=
  let o := bytes.tail
  let b := byteAt o
  let w := wordAt o
  match byteAt bytes 0 with
  | 0x10 => some (.configureStation (b 0) (b 1) (w 2) (w 4) (w 6) (w 8))
  | 0x11 => some .startStation
  | 0x12 => some .restartStation
  | 0x13 => some .readStation
  | 0x14 => some (.openEngineering eng)
  | 0x15 => some .closeEngineering
  | 0x18 => some .readLineStatus
  | 0x19 => some .readPeerChanges
  | 0x1A => some (.readPeerEntry (b 0))
  | 0x1B => some .readResources
  | 0x20 => some (.offerDemand (w 0))
  | 0x21 => some .withdrawDemand
  | 0x22 => some .readAllocation
  | 0x28 => some (.setMode (b 0))
  | 0x29 => some (.configureBurner (b 0) (b 1) (b 2) (w 3) (b 5) (b 6) (w 7) (b 9) (b 10) (w 11) (b 13))
  | 0x2A => some (.startBurner (b 0))
  | 0x2B => some (.stopBurner (b 0))
  | 0x2C => some (.resumeBurner (b 0))
  | 0x2D =>
    match b 0 with
    | 0 => some (.resetTripPoint (b 1))
    | 1 => some (.resetTripBurner (b 1))
    | _ => some (.resetTripPoint 255)
  | 0x2E => some (.readBurner (b 0))
  | 0x30 => some (.configureFuel (b 0) (w 1))
  | 0x31 => some (.writeFuel (b 0) (w 1))
  | 0x32 => some .readFuelTable
  | 0x33 => some (.configureFeeder (b 0) (b 1) (b 2) (b 3) (w 4) (w 6) (w 8) (b 10) (b 11) (w 12) (w 14) (w 16))
  | 0x34 => some (.setMix (b 0) (w 1) (w 3) (w 5) (w 7) (w 9) (w 11))
  | 0x35 => some (.writePulseWeight (b 0) (w 1))
  | 0x36 => some (.readFeeder (b 0))
  | 0x38 => some (.configureFan (b 0) (b 1) (b 2) (w 3) (b 5) (w 6) (w 8) (b 10) (b 11) (b 12))
  | 0x39 => some (.startFan (b 0))
  | 0x3A => some (.stopFan (b 0))
  | 0x3B => some (.resetFan (b 0))
  | 0x3C => some (.configureGrate (b 0) (w 1) (w 3) (b 5) (w 6) (w 8) (w 10) (w 12))
  | 0x3D => some .startGrate
  | 0x3E => some .stopGrate
  | 0x3F => some (.setBedPressure (w 0))
  | 0x40 => some .readCooler
  | 0x48 => some (.acknowledge (b 0))
  | 0x49 => some .acknowledgeAll
  | 0x4A => some (.resetAlarm (b 0))
  | 0x4B => some (.shelve (b 0) (w 1))
  | 0x4C => some (.unshelve (b 0))
  | 0x4D => some (.configureExternalPoint (b 0) (b 1) (b 2) (b 3) (b 4) (b 5) (b 6) (b 7))
  | 0x4E => some (.raiseExternal (b 0))
  | 0x4F => some (.clearExternal (b 0))
  | 0x50 => some (.discardPeerTrip (b 0))
  | 0x51 => some .readFirstOut
  | 0x52 => some .resetFirstOut
  | 0x53 => some .readSummary
  | 0x54 => some .clearSummary
  | 0x55 => some .silenceHorn
  | 0x56 => some (.readPoint (b 0))
  | 0x57 => some .readPointStates
  | 0x58 => some (.closeShift (w 0))
  | 0x59 => some (.readShiftRecord (b 0) (b 1))
  | 0x5A => some (.writeShiftNote (w 0))
  | 0x60 => some .readField
  | _ => none

end Machine

open Machine

/-! ## The bytes of a command (R201) -/

/-- The ENG level that goes with a row: OPEN ENGINEERING carries the level found (R190). -/
def Instr.engLevel : Instr → Bool
  | .openEngineering eng => eng
  | _ => false

/-- The code byte and operand bytes of a command, items in the order of its rule, two-byte items high byte first; none
for a row that is no host command. -/
def Instr.spelling : Instr → Option (List Byte)
  | .pinReset _ _ _ => none
  | .commandByteWrite _ => none
  | .submit => none
  | .responseByteRead => none
  | .interruptEnablesWrite _ => none
  | .eventWindowRead => none
  | .eventWindowWrite _ => none
  | .configureStation zone airCeiling fallback heatUp period mixTime =>
    some ([0x10, byteOf zone, byteOf airCeiling] ++ be16 fallback ++ be16 heatUp ++ be16 period ++ be16 mixTime)
  | .startStation => some [0x11]
  | .restartStation => some [0x12]
  | .readStation => some [0x13]
  | .openEngineering _ => some [0x14]
  | .closeEngineering => some [0x15]
  | .engineeringDeadline => none
  | .engNegated => none
  | .readLineStatus => some [0x18]
  | .readPeerChanges => some [0x19]
  | .readPeerEntry station => some [0x1A, byteOf station]
  | .readResources => some [0x1B]
  | .offerDemand heat => some ([0x20] ++ be16 heat)
  | .withdrawDemand => some [0x21]
  | .readAllocation => some [0x22]
  | .setMode mode => some [0x28, byteOf mode]
  | .configureBurner burner used feeder rate ignition proving loading flameFail threshold held autoResume =>
    some ([0x29, byteOf burner, byteOf used, byteOf feeder] ++ be16 rate ++ [byteOf ignition, byteOf proving] ++ be16 loading ++ [byteOf flameFail, byteOf threshold] ++ be16 held ++ [byteOf autoResume])
  | .startBurner burner => some [0x2A, byteOf burner]
  | .stopBurner burner => some [0x2B, byteOf burner]
  | .resumeBurner burner => some [0x2C, byteOf burner]
  | .resetTripPoint point => some [0x2D, 0, byteOf point]
  | .resetTripBurner burner => some [0x2D, 1, byteOf burner]
  | .readBurner burner => some [0x2E, byteOf burner]
  | .configureFuel index cv => some ([0x30, byteOf index] ++ be16 cv)
  | .writeFuel index cv => some ([0x31, byteOf index] ++ be16 cv)
  | .readFuelTable => some [0x32]
  | .configureFeeder feeder used burner fuel minRate maxRate ramp window gain deviation mix weight =>
    some ([0x33, byteOf feeder, byteOf used, byteOf burner, byteOf fuel] ++ be16 minRate ++ be16 maxRate ++ be16 ramp ++ [byteOf window, byteOf gain] ++ be16 deviation ++ be16 mix ++ be16 weight)
  | .setMix burner m0 m1 m2 m3 m4 m5 =>
    some ([0x34, byteOf burner] ++ be16 m0 ++ be16 m1 ++ be16 m2 ++ be16 m3 ++ be16 m4 ++ be16 m5)
  | .writePulseWeight feeder weight => some ([0x35, byteOf feeder] ++ be16 weight)
  | .readFeeder feeder => some [0x36, byteOf feeder]
  | .configureFan fan used destination base apf minFlow maxFlow airFactor gain startTime =>
    some ([0x38, byteOf fan, byteOf used, byteOf destination] ++ be16 base ++ [byteOf apf] ++ be16 minFlow ++ be16 maxFlow ++ [byteOf airFactor, byteOf gain, byteOf startTime])
  | .startFan fan => some [0x39, byteOf fan]
  | .stopFan fan => some [0x3A, byteOf fan]
  | .resetFan fan => some [0x3B, byteOf fan]
  | .configureGrate used minSpeed maxSpeed gain low high initial highLimit =>
    some ([0x3C, byteOf used] ++ be16 minSpeed ++ be16 maxSpeed ++ [byteOf gain] ++ be16 low ++ be16 high ++ be16 initial ++ be16 highLimit)
  | .startGrate => some [0x3D]
  | .stopGrate => some [0x3E]
  | .setBedPressure pressure => some ([0x3F] ++ be16 pressure)
  | .readCooler => some [0x40]
  | .acknowledge point => some [0x48, byteOf point]
  | .acknowledgeAll => some [0x49]
  | .resetAlarm point => some [0x4A, byteOf point]
  | .shelve point minutes => some ([0x4B, byteOf point] ++ be16 minutes)
  | .unshelve point => some [0x4C, byteOf point]
  | .shelvingExpiry _ => none
  | .configureExternalPoint n used cls latching binding lineWide mask source =>
    some [0x4D, byteOf n, byteOf used, byteOf cls, byteOf latching, byteOf binding, byteOf lineWide, byteOf mask, byteOf source]
  | .raiseExternal n => some [0x4E, byteOf n]
  | .clearExternal n => some [0x4F, byteOf n]
  | .discardPeerTrip station => some [0x50, byteOf station]
  | .readFirstOut => some [0x51]
  | .resetFirstOut => some [0x52]
  | .readSummary => some [0x53]
  | .clearSummary => some [0x54]
  | .silenceHorn => some [0x55]
  | .readPoint point => some [0x56, byteOf point]
  | .readPointStates => some [0x57]
  | .closeShift number => some ([0x58] ++ be16 number)
  | .readShiftRecord index sect => some [0x59, byteOf index, byteOf sect]
  | .writeShiftNote note => some ([0x5A] ++ be16 note)
  | .readField => some [0x60]
  | .accessGapReached _ => none
  | .frameSentWhole _ => none
  | .readBackMismatch _ => none
  | .breakEnded => none
  | .statusPeriodExpiry => none
  | .frameReceived _ => none
  | .badHeaderDiscard _ => none
  | .partialFrameDiscard _ _ => none
  | .interCharacterGap _ => none
  | .duplicateDeadlineExpiry => none
  | .lineStuckSet => none
  | .lineStuckCleared => none
  | .peerAgingExpiry _ => none
  | .staggerEnd _ => none
  | .settleDeadline _ => none
  | .claimantExpiry _ => none
  | .reclaimDelayEnd _ => none
  | .airHoldExpiry => none
  | .feederControlPeriod => none
  | .mixRampStep _ => none
  | .deviationTime _ => none
  | .noFlowTime _ => none
  | .lightWaitExpiry _ => none
  | .flameProven _ => none
  | .ignitionDeadline _ => none
  | .loadingDeadline _ => none
  | .flameFailTime _ => none
  | .flameWeakTime _ => none
  | .heldDeadline _ => none
  | .fieldScanStart => none
  | .fieldScanComplete _ => none
  | .fanStartDeadline _ => none
  | .fanFeedbackLoss _ => none
  | .heldFlowExpiry _ => none
  | .coolingPeriod => none
  | .grateFeedbackLoss => none
  | .bedPressureHighTime => none

end Sys2Proof
end

