-- ==== Sys2Proof/Machine/PortRows.lean ====
section
/-! DEFINITION. The rows of the host port's locations (R183 to R186, R189, R159). Reads of locations 1 and 2 are
`Part.portStatus` and `Part.identification`: they change nothing and are no rows. -/

namespace Sys2Proof.Machine

open Sys2Proof.Config

/-- R184: a byte is stored at the write position, or the over-long mark is set when 64 are stored. -/
def execCommandByteWrite (b : Byte) (s : State) : Host.Outcome State Fault Refusal :=
  s.act fun p =>
    p.updHost fun h =>
      if h.buffer.length < bufferSize then { h with buffer := h.buffer ++ [b] } else { h with overLong := true }

/-- The form check of a submitted command (R184). -/
def formCode (overLong : Bool) (bytes : List Byte) : Option Code :=
  match bytes, operandCount (byteAt bytes 0) with
  | [], _ => some .unknown
  | _, none => some .unknown
  | _ :: operands, some n => if overLong || operands.length != n then some .badLength else none

/-- R184, R185: the buffer is taken as the command and checked, or the submit is discarded with the overrun mark set. -/
def execSubmit (s : State) : Host.Outcome State Fault Refusal :=
  s.act fun p =>
    if p.host.inProgress.isSome then p.updHost fun h => { h with overrun := true }
    else
      let bytes := p.host.buffer
      let p' := p.updHost fun h => { h with buffer := [], overLong := false }
      match formCode p.host.overLong bytes with
      | some code => p'.reply (byteAt bytes 0) code
      | none => p'.updHost fun h => { h with inProgress := some bytes }

/-- R186: the byte at the read position, and the position advances; 00h while a command is in progress (R185) and where
no byte is to be had. -/
def HostPort.readByte (h : HostPort) : HostPort :=
  match h.inProgress, h.run[h.readPos]? with
  | none, some b => { h with dataOut := b, readPos := h.readPos + 1, ready := h.ready && decide (h.readPos ≠ 0) }
  | _, _ => { h with dataOut := 0 }

/-- R186. -/
def execResponseByteRead (s : State) : Host.Outcome State Fault Refusal := s.act fun p => p.updHost HostPort.readByte

/-- R189: bits 5 to 7 are ignored. -/
def execInterruptEnablesWrite (b : Byte) (s : State) : Host.Outcome State Fault Refusal :=
  s.act fun p => p.updHost fun h => { h with enables := b.truncate 5 }

/-! ## The event window (R158, R159, 12.6) -/

def EventKind.code : EventKind → Nat
  | .point => 1 | .burner => 2 | .feeder => 3 | .fan => 4 | .grate => 5
  | .resource => 6 | .shift => 7 | .mode => 8 | .overflow => 9

/-- An entry as it stands at the event window, 11 bytes. -/
def Event.bytes (e : Event) : List Byte :=
  [byteOf e.kind.code] ++ be16 e.subject ++ [byteOf e.value, flagByte [e.lightWaitExpired]] ++ be32 (tenths e.time) ++
    [byteOf e.station, byteOf (e.originPoint.getD 255)]

/-- The entry a read presents is the EMPTY one: decided when it is begun, and kept to its end. -/
def Alarms.showsEmpty (a : Alarms) : Bool := if a.readPos = 0 then a.events.isEmpty else a.readEmpty

/-- The byte that the next read of location 3 returns. -/
def Alarms.windowByte (a : Alarms) : Byte :=
  match a.events with
  | e :: _ => if a.showsEmpty then 0 else e.bytes.getD a.readPos 0
  | [] => 0

/-- The removal of the oldest entry; lost events leave an OVERFLOW entry at the end (R158). -/
def Alarms.removeOldest (now : Time) (a : Alarms) : Alarms :=
  if 0 < a.lost then
    { a with events := a.events.tail ++ [⟨.overflow, 0, a.lost, false, now, 0, none⟩], lost := 0 }
  else { a with events := a.events.tail }

/-- One read of location 3. -/
def Alarms.readWindow (now : Time) (a : Alarms) : Alarms :=
  if a.readPos < 10 then { a with readPos := a.readPos + 1, readEmpty := a.showsEmpty }
  else { (if a.showsEmpty then a else a.removeOldest now) with readPos := 0, readEmpty := false }

/-- R159. -/
def execEventWindowRead (s : State) : Host.Outcome State Fault Refusal :=
  s.act fun p =>
    (p.updHost fun h => { h with dataOut := p.alarms.windowByte }).updAlarms (Alarms.readWindow p.now)

/-- R159: writes to location 3 are ignored. -/
def execEventWindowWrite (_b : Byte) (s : State) : Host.Outcome State Fault Refusal := s.act fun p => p

end Sys2Proof.Machine
end

