-- ==== Sys2Proof/Machine/ShiftRows.lean ====
section
/-! DEFINITION. The rows of the Shift Recorder (chapter 9): CLOSE SHIFT, READ SHIFT RECORD and WRITE SHIFT NOTE. -/

namespace Sys2Proof.Machine

/-- R166. -/
def execCloseShift (number : Nat) (s : State) : Host.Outcome State Fault Refusal :=
  s.act fun p =>
    if !p.started then p.reply 0x58 .wrongLifecycle
    else if number ≤ p.shift.number then p.reply 0x58 .badOperand
    else (((p.changeShift number .command 0).queueFrame (.shift number)).settle).reply 0x58 .done

/-- R173. -/
def execWriteShiftNote (note : Nat) (s : State) : Host.Outcome State Fault Refusal :=
  s.act fun p =>
    if p.started then (p.record fun r => { r with note := some note }).reply 0x5A .done
    else p.reply 0x5A .wrongLifecycle

/-! ## Sections (R163, R172, 12.6) -/

/-- An opening origin: its code, then the peer, 0 for none. -/
def OpenOrigin.data : OpenOrigin → List Byte
  | .start => [0, 0]
  | .command => [1, 0]
  | .peer s => [2, byteOf s]
  | .renumbered s => [3, byteOf s]

/-- A trip list entry, 7 bytes; a local origin is 0. DESIGN CHOICE (log 31): a peer's origin without a point reads FFh
there. -/
def TripEntry.data (t : TripEntry) : List Byte :=
  [byteOf t.point.val] ++ be32 (tenths t.time) ++
    match t.origin with
    | none => [0, 0]
    | some o => [byteOf o.station, byteOf (o.point.getD 255)]

def counts (l : List Count) : List Byte := l.flatMap fun c => be32 c.toNat

/-- The header; `wasRead` is present for a stored record. DESIGN CHOICE (log 12): the first trip has the 7 bytes that 12.6
gives an entry of the trip list. -/
def ShiftRec.header (wasRead : Option Bool) (r : ShiftRec) : List Byte :=
  r.origin.data ++ be32 (tenths r.openTime) ++ optBytes 4 (fun t => be32 (tenths t)) r.closeTime ++
  [flagByte [r.incomplete, r.gap, r.calibration, r.engineering, r.restarted], byteOf r.unreadLost] ++
  optBytes 2 be16 r.note ++ optBytes 7 TripEntry.data r.firstTrip ++ [byteOf r.trips.length] ++ counts [r.tripsBeyond] ++
  optBytes 1 (fun b => [boolByte b]) wasRead

/-- The bytes of a section, if it is one of the seven. -/
def ShiftRec.sectionData (sect : Nat) (wasRead : Option Bool) (r : ShiftRec) : Option (List Byte) :=
  match sect with
  | 0 => some (r.header wasRead)
  | 1 => some ((List.finRange 6).flatMap fun f => counts [r.feeders[f].kg, r.feeders[f].kWh, r.feeders[f].seconds])
  | 2 => some ((List.finRange 2).flatMap fun b =>
      counts [r.burners[b].firing, r.burners[b].lightOffs, r.burners[b].trips, r.burners[b].helds])
  | 3 => some (((List.finRange 4).flatMap fun n => counts [r.fans[n].running, r.fans[n].starts, r.fans[n].trips]) ++
      counts [r.grateRunning, r.bedHigh])
  | 4 => some (be16 r.peak ++ counts [r.airLimited, r.shortfall, r.demandHeld, r.accepted, r.framesLost, r.bad,
      r.retries, r.failures])
  | 5 => some (counts [r.actTrip, r.actAlarm, r.actWarning, r.actNotice])
  | 6 => some (byteOf r.trips.length :: (r.trips.flatMap TripEntry.data ++ counts [r.tripsBeyond]))
  | _ => none

/-- The identification that opens every DONE response. -/
def Part.identify (index sect : Nat) (r : ShiftRec) (p : Part) : List Byte :=
  be16 p.shift.number ++ [byteOf p.shift.store.length, boolByte p.shift.current.isSome, byteOf index, byteOf sect] ++
  be16 r.number ++ optBytes 4 (fun t => be32 (tenths t)) r.closeTime

/-- The record an index names, with its read mark; 255 is OPEN, whose record has none. -/
def Shift.named (index : Nat) (s : Shift) : Option (ShiftRec × Option Bool) :=
  if index = 255 then s.current.map (·, none) else s.store[index]?.map fun e => (e.1, some e.2)

/-- The header read of a stored record marks it read; that of index 0 clears SHIFT CLOSED. -/
def Shift.markRead (index : Nat) (s : Shift) : Shift :=
  if index = 255 then s
  else { s with store := s.store.modify index fun e => (e.1, true), closedCause := s.closedCause && decide (index ≠ 0) }

/-- R172. -/
def execReadShiftRecord (index sect : Nat) (s : State) : Host.Outcome State Fault Refusal :=
  s.act fun p =>
    if (7 < index ∧ index ≠ 255) ∨ 6 < sect then p.reply 0x59 .badOperand
    else
      match p.shift.named index with
      | none => p.reply 0x59 .wrongState
      | some (r, mark) =>
        let data := p.identify index sect r ++ (r.sectionData sect mark).getD []
        (if sect = 0 then { p with shift := p.shift.markRead index } else p).reply 0x59 .done data

end Sys2Proof.Machine
end

