-- ==== Sys2Proof/Machine/StationRows.lean ====
section
/-! DEFINITION. The rows of the station itself (chapter 11): pin reset, CONFIGURE STATION, START and RESTART STATION,
READ STATION and the engineering window. -/

namespace Sys2Proof.Machine

open Sys2Proof.Config

/-- R192, R2: the straps are latched and every block takes its pin-reset values. -/
def execPinReset (straps rate : Nat) (eng : Bool) (s : State) : Host.Outcome State Fault Refusal :=
  s.act fun _ => Part.powerUp (Fin.ofNat 16 straps) (Fin.ofNat 4 rate) eng

/-! ## CONFIGURE STATION (R193) -/

/-- The items within their ranges. -/
def stationItems (zone airCeiling fallback heatUp period mixTime : Nat) : Option StationCfg :=
  match Zone.ofCode zone, boolOf airCeiling with
  | some z, some a =>
    if fallback ≤ 65535 ∧ heatUp ≤ 65535 ∧ (period = 250 ∨ period = 500 ∨ period = 1000) ∧ 60 ≤ mixTime ∧
        mixTime ≤ 1800 then
      some { zone := z, airCeiling := a, fallback := fallback, heatUpLimit := heatUp, period := period,
             mixTime := mixTime }
    else none
  | _, _ => none

/-- An entry whose aging deadline has already passed becomes LOST at once (R30). -/
def Part.ageNow (q : Fin 16) (p : Part) : Part :=
  if decide (q ≠ p.strapStation) && (p.agingDeadline q).any (reached p.now) then p.losePeer q else p

/-- R193. -/
def execConfigureStation (zone airCeiling fallback heatUp period mixTime : Nat) (s : State) :
    Host.Outcome State Fault Refusal :=
  s.act fun p =>
    if p.started then p.reply 0x10 .wrongLifecycle
    else
      match stationItems zone airCeiling fallback heatUp period mixTime with
      | none => p.reply 0x10 .badOperand
      | some c => (((Part.forAll stations Part.ageNow { p with cfg := c }).refreshMarks).settleAll).reply 0x10 .done

/-! ## START STATION (R194, R195) -/

/-- Check 1: a used feeder that names a burner that is not used. -/
def Part.strayFeeder (p : Part) : Option (Fin 6) :=
  feederIds.find? fun f => p.feeders[f].cfg.used && !p.burners[p.feeders[f].cfg.burner].cfg.used

/-- Check 2: a used burner whose light-off feeder is not a used feeder of that burner. -/
def Part.unlitBurner (p : Part) : Option (Fin 2) :=
  burnerIds.find? fun b => p.burners[b].cfg.used && !(p.feedersOf b).contains p.burners[b].cfg.feeder

/-- Check 3: a used burner whose used feeders' fractions do not sum to 1000. -/
def Part.unmixedBurner (p : Part) : Option (Fin 2) :=
  burnerIds.find? fun b => p.burners[b].cfg.used && sumOver (p.feedersOf b) (fun f => p.feeders[f].mix) != 1000

/-- Check 4: zone NONE and a burner used. -/
def Part.zonelessBurner (p : Part) : Option (Fin 2) :=
  burnerIds.find? fun b => p.burners[b].cfg.used && p.cfg.zone == .none

/-- The configuration check that fails first, with its object (R194). -/
def Part.startRefusal (p : Part) : Option (Nat × Nat) :=
  (p.strayFeeder.map fun f => (1, f.val)).or <| (p.unlitBurner.map fun b => (2, b.val)).or <|
    (p.unmixedBurner.map fun b => (3, b.val)).or (p.zonelessBurner.map fun b => (4, b.val))

/-- A feeder stopped with nothing measured (R121, R102 to R104); totals, remainders, mix and configuration are kept. -/
def Feeder.initial (x : Feeder) : Feeder :=
  { x with state := if x.cfg.used then .stopped else .unused, setpoint := 0, rampRem := 0, trim := 0, baseline := none,
           bucket := 0, whole := false, ring := [], rate := 0, measBad := false, devTimer := none, noFlow := none }

/-- A fan stopped (R123, R138); configuration and SP are kept. -/
def Fan.initial (x : Fan) : Fan :=
  { x.cleared (if x.cfg.used then .stopped else .unused) with contribution := 0 }

/-- The grate stopped (R133, R138); configuration, setpoint and bed-high timer (R135) are kept. -/
def Grate.initial (g : Grate) : Grate :=
  { g with state := if g.cfg.used then .stopped else .unused, fbLoss := none, fault := false }

/-- Burners OFF in STOP, feeders and cooler stopped, results of the allocation at their reset values. -/
def Part.blocksInitial (p : Part) : Part :=
  { p with mode := .stop, burners := Vector.ofFn fun b => p.burners[b].cleared .off,
           feeders := Vector.ofFn fun f => p.feeders[f].initial, fans := Vector.ofFn fun n => p.fans[n].initial,
           grate := p.grate.initial, air := .reset }

/-- The outputs of every used feeder written (R101). DEDUCED (log 26): START STATION writes them in its own event, as the
outputs are no longer all off. -/
def Part.writeFeeders (p : Part) : Part := p.forAll feederIds Part.writeFeeder

/-- The station starts (R195): the shift record opens before any count or activation, the first evaluation follows, and
AUTO-RESUME is set before the conditions are found. DESIGN CHOICE (log 38): a START STATION at a whole multiple of 0.2 s has
its first feeder control period at the next one (R107). -/
def Part.start (p : Part) : Part :=
  let p := ({ p with started := true }.openAtStart).queueFrame .status
  let p := (p.updLine fun l => { l with statusDue := some (later p.now p.cfg.period) }).blocksInitial.writeFeeders
  let p := { p with nextFeeder := nextMultiple p.now feederPeriod, nextCool := nextMultiple p.now second }.evaluate
  (p.updAlarms fun a => { a with autoResume := true }).settleAll

/-- R194, R195. -/
def execStartStation (s : State) : Host.Outcome State Fault Refusal :=
  s.act fun p =>
    if p.started then p.reply 0x11 .wrongLifecycle
    else if p.line.dupDeadline.isSome then p.reply 0x11 .duplicate
    else
      match p.startRefusal with
      | some (check, object) => p.reply 0x11 .wrongState [byteOf check, byteOf object]
      | none => (p.start).reply 0x11 .done

/-! ## RESTART STATION (R196) -/

/-- The restart release of a HELD or CLAIMING record, taken in unless the station is SILENT (R24, R53). -/
def Part.restartRelease (k : Fin 3) (p : Part) : Part :=
  if (p.claims[k].state == .held || p.claims[k].state == .claiming) && !p.line.silent then p.place (.release k) else p

/-- A claim record and its list after a restart; the view is kept (R53). -/
def Resource.restarted (r : Resource) : Resource := { r.toIdle with waitList := [], reclaim := none, conflict := none }

/-- A point after a restart: its last activation and origin are kept (R161). -/
def Point.restarted (x : Point) : Point := { x with state := .normal, eff := false, shelvedUntil := none }

/-- A HOST-sourced condition is cleared (R150). -/
def Ext.restarted (x : Ext) : Ext := { x with cond := x.cond && x.source == .field }

/-- R161. -/
def Alarms.restarted (a : Alarms) : Alarms :=
  { a with points := Vector.ofFn fun i => a.points[i].restarted, ext := Vector.ofFn fun n => a.ext[n].restarted,
           firstOut := none, tripNew := false, autoResume := false, horn := false, events := [], lost := 0, readPos := 0,
           readEmpty := false }

/-- R24 in its order: the attempt in hand stays, the rest of the queue goes, then the restart releases, then SILENT. -/
def Part.restartLine (p : Part) : Part :=
  let p := p.updLine fun l => { l.emptyQueue with txFail := false }
  (p.forAll resourceIds Part.restartRelease).updLine fun l => { l with silent := false }

/-- Each block by its own restart rule (R196). DESIGN CHOICE (log 35): the output image goes off here, and the output block
sent stays the one of the last scan (R181) until the next scan takes the image (R182). -/
def Part.restart (p : Part) : Part :=
  let p := (p.restartLine).closeRecord true
  let p := p.forAll burnerIds fun b p =>
    match p.ramps[b] with
    | some r => (p.replaceMix b r.target).setRamp b none
    | none => p
  let p := { p.blocksInitial with claims := Vector.ofFn fun k => p.claims[k].restarted, alloc := .reset, started := false }
  let p := p.updGrate fun g => { g with bedHigh := none }
  ((p.updAlarms Alarms.restarted).updOutput fun _ => .off).updHost fun h => { h with enables := 0 }

/-- R196. -/
def execRestartStation (s : State) : Host.Outcome State Fault Refusal :=
  s.act fun p => if p.started then (p.restart).reply 0x12 .done else p.reply 0x12 .wrongLifecycle

/-! ## READ STATION (R197) -/

def StationCfg.data (c : StationCfg) : List Byte :=
  [byteOf c.zone.code, boolByte c.airCeiling] ++ be16 c.fallback ++ be16 c.heatUpLimit ++ be16 c.period ++ be16 c.mixTime

/-- The data of READ STATION. DESIGN CHOICE (log 12): the lifecycle reads UNSTARTED 0, STARTED 1 and the window CLOSED 0,
OPEN 1; the time left to the duplicate deadline has 4 bytes and no presence byte, and is 0 without a deadline. -/
def Part.stationData (p : Part) : List Byte :=
  [boolByte p.started, boolByte p.line.silent] ++ be32 (tenths p.now) ++ [byteOf p.own, byteOf p.strapRate.val] ++
  p.cfg.data ++ [boolByte p.host.eng, boolByte p.host.window.isSome] ++ be32 (leftOrZero p.now p.host.window) ++
  [boolByte p.line.dupDeadline.isSome] ++ be32 (leftOrZero p.now p.line.dupDeadline) ++
  [flagByte p.causes, flagByte p.host.enableList]

/-- R197. -/
def execReadStation (s : State) : Host.Outcome State Fault Refusal :=
  s.act fun p => p.reply 0x13 .done p.stationData

/-! ## The engineering window (R190, R191) -/

/-- R190: `eng` is the level of the ENG input as the command finds it; a negated ENG keeps no window open (R191). DESIGN
CHOICE (log 29): at the instant of the deadline it renews as an engineering command does, and the closing still follows. -/
def execOpenEngineering (eng : Bool) (s : State) : Host.Outcome State Fault Refusal :=
  s.act fun p =>
    if eng then
      let opening := p.host.window.isNone
      let p := p.updHost fun h => { h.renew p.now with eng := true }
      (if opening then p.record fun r => { r with engineering := true } else p).reply 0x14 .done
    else (p.updHost fun h => { h.closeWindow with eng := false }).reply 0x14 .locked

/-- R190. -/
def execCloseEngineering (s : State) : Host.Outcome State Fault Refusal :=
  s.act fun p =>
    if p.host.window.isSome then (p.updHost HostPort.closeWindow).reply 0x15 .done
    else p.reply 0x15 .wrongState

/-- R191: the inactivity deadline passes, and with it goes one that a command of the same instant has renewed. -/
def execEngineeringDeadline (s : State) : Host.Outcome State Fault Refusal :=
  s.act fun p => p.whenDue p.engineeringDue fun p => p.updHost HostPort.closeWindow

/-- R191: ENG becomes negated. -/
def execEngNegated (s : State) : Host.Outcome State Fault Refusal :=
  s.act fun p => p.updHost fun h => { h.closeWindow with eng := false }

end Sys2Proof.Machine
end

