-- ==== Sys2Proof/Machine/Dispatch.lean ====
section
/-! DEFINITION. Every row of the table to its one meaning. -/

namespace Sys2Proof.Machine

/-- The effect of a row on everything but the queue of waiting rows. -/
def exec (i : Instr) (s : State) : Host.Outcome State Fault Refusal :=
  match i with
  | .pinReset straps rate eng => Sys2Proof.Machine.execPinReset straps rate eng s
  | .commandByteWrite b => Sys2Proof.Machine.execCommandByteWrite b s
  | .submit => Sys2Proof.Machine.execSubmit s
  | .responseByteRead => Sys2Proof.Machine.execResponseByteRead s
  | .interruptEnablesWrite b => Sys2Proof.Machine.execInterruptEnablesWrite b s
  | .eventWindowRead => Sys2Proof.Machine.execEventWindowRead s
  | .eventWindowWrite b => Sys2Proof.Machine.execEventWindowWrite b s
  | .configureStation zone airCeiling fallback heatUp period mixTime => Sys2Proof.Machine.execConfigureStation zone airCeiling fallback heatUp period mixTime s
  | .startStation => Sys2Proof.Machine.execStartStation s
  | .restartStation => Sys2Proof.Machine.execRestartStation s
  | .readStation => Sys2Proof.Machine.execReadStation s
  | .openEngineering eng => Sys2Proof.Machine.execOpenEngineering eng s
  | .closeEngineering => Sys2Proof.Machine.execCloseEngineering s
  | .engineeringDeadline => Sys2Proof.Machine.execEngineeringDeadline s
  | .engNegated => Sys2Proof.Machine.execEngNegated s
  | .readLineStatus => Sys2Proof.Machine.execReadLineStatus s
  | .readPeerChanges => Sys2Proof.Machine.execReadPeerChanges s
  | .readPeerEntry station => Sys2Proof.Machine.execReadPeerEntry station s
  | .readResources => Sys2Proof.Machine.execReadResources s
  | .offerDemand heat => Sys2Proof.Machine.execOfferDemand heat s
  | .withdrawDemand => Sys2Proof.Machine.execWithdrawDemand s
  | .readAllocation => Sys2Proof.Machine.execReadAllocation s
  | .setMode mode => Sys2Proof.Machine.execSetMode mode s
  | .configureBurner burner used feeder rate ignition proving loading flameFail threshold held autoResume => Sys2Proof.Machine.execConfigureBurner burner used feeder rate ignition proving loading flameFail threshold held autoResume s
  | .startBurner burner => Sys2Proof.Machine.execStartBurner burner s
  | .stopBurner burner => Sys2Proof.Machine.execStopBurner burner s
  | .resumeBurner burner => Sys2Proof.Machine.execResumeBurner burner s
  | .resetTripPoint point => Sys2Proof.Machine.execResetTripPoint point s
  | .resetTripBurner burner => Sys2Proof.Machine.execResetTripBurner burner s
  | .readBurner burner => Sys2Proof.Machine.execReadBurner burner s
  | .configureFuel index cv => Sys2Proof.Machine.execConfigureFuel index cv s
  | .writeFuel index cv => Sys2Proof.Machine.execWriteFuel index cv s
  | .readFuelTable => Sys2Proof.Machine.execReadFuelTable s
  | .configureFeeder feeder used burner fuel minRate maxRate ramp window gain deviation mix weight => Sys2Proof.Machine.execConfigureFeeder feeder used burner fuel minRate maxRate ramp window gain deviation mix weight s
  | .setMix burner m0 m1 m2 m3 m4 m5 => Sys2Proof.Machine.execSetMix burner m0 m1 m2 m3 m4 m5 s
  | .writePulseWeight feeder weight => Sys2Proof.Machine.execWritePulseWeight feeder weight s
  | .readFeeder feeder => Sys2Proof.Machine.execReadFeeder feeder s
  | .configureFan fan used destination base apf minFlow maxFlow airFactor gain startTime => Sys2Proof.Machine.execConfigureFan fan used destination base apf minFlow maxFlow airFactor gain startTime s
  | .startFan fan => Sys2Proof.Machine.execStartFan fan s
  | .stopFan fan => Sys2Proof.Machine.execStopFan fan s
  | .resetFan fan => Sys2Proof.Machine.execResetFan fan s
  | .configureGrate used minSpeed maxSpeed gain low high initial highLimit => Sys2Proof.Machine.execConfigureGrate used minSpeed maxSpeed gain low high initial highLimit s
  | .startGrate => Sys2Proof.Machine.execStartGrate s
  | .stopGrate => Sys2Proof.Machine.execStopGrate s
  | .setBedPressure pressure => Sys2Proof.Machine.execSetBedPressure pressure s
  | .readCooler => Sys2Proof.Machine.execReadCooler s
  | .acknowledge point => Sys2Proof.Machine.execAcknowledge point s
  | .acknowledgeAll => Sys2Proof.Machine.execAcknowledgeAll s
  | .resetAlarm point => Sys2Proof.Machine.execResetAlarm point s
  | .shelve point minutes => Sys2Proof.Machine.execShelve point minutes s
  | .unshelve point => Sys2Proof.Machine.execUnshelve point s
  | .shelvingExpiry point => Sys2Proof.Machine.execShelvingExpiry point s
  | .configureExternalPoint n used cls latching binding lineWide mask source => Sys2Proof.Machine.execConfigureExternalPoint n used cls latching binding lineWide mask source s
  | .raiseExternal n => Sys2Proof.Machine.execRaiseExternal n s
  | .clearExternal n => Sys2Proof.Machine.execClearExternal n s
  | .discardPeerTrip station => Sys2Proof.Machine.execDiscardPeerTrip station s
  | .readFirstOut => Sys2Proof.Machine.execReadFirstOut s
  | .resetFirstOut => Sys2Proof.Machine.execResetFirstOut s
  | .readSummary => Sys2Proof.Machine.execReadSummary s
  | .clearSummary => Sys2Proof.Machine.execClearSummary s
  | .silenceHorn => Sys2Proof.Machine.execSilenceHorn s
  | .readPoint point => Sys2Proof.Machine.execReadPoint point s
  | .readPointStates => Sys2Proof.Machine.execReadPointStates s
  | .closeShift number => Sys2Proof.Machine.execCloseShift number s
  | .readShiftRecord index sect => Sys2Proof.Machine.execReadShiftRecord index sect s
  | .writeShiftNote note => Sys2Proof.Machine.execWriteShiftNote note s
  | .readField => Sys2Proof.Machine.execReadField s
  | .accessGapReached idle => Sys2Proof.Machine.execAccessGapReached idle s
  | .frameSentWhole back => Sys2Proof.Machine.execFrameSentWhole back s
  | .readBackMismatch back => Sys2Proof.Machine.execReadBackMismatch back s
  | .breakEnded => Sys2Proof.Machine.execBreakEnded s
  | .statusPeriodExpiry => Sys2Proof.Machine.execStatusPeriodExpiry s
  | .frameReceived chars => Sys2Proof.Machine.execFrameReceived chars s
  | .badHeaderDiscard chars => Sys2Proof.Machine.execBadHeaderDiscard chars s
  | .partialFrameDiscard cause chars => Sys2Proof.Machine.execPartialFrameDiscard cause chars s
  | .interCharacterGap chars => Sys2Proof.Machine.execInterCharacterGap chars s
  | .duplicateDeadlineExpiry => Sys2Proof.Machine.execDuplicateDeadlineExpiry s
  | .lineStuckSet => Sys2Proof.Machine.execLineStuckSet s
  | .lineStuckCleared => Sys2Proof.Machine.execLineStuckCleared s
  | .peerAgingExpiry peer => Sys2Proof.Machine.execPeerAgingExpiry peer s
  | .staggerEnd k => Sys2Proof.Machine.execStaggerEnd k s
  | .settleDeadline k => Sys2Proof.Machine.execSettleDeadline k s
  | .claimantExpiry k => Sys2Proof.Machine.execClaimantExpiry k s
  | .reclaimDelayEnd k => Sys2Proof.Machine.execReclaimDelayEnd k s
  | .airHoldExpiry => Sys2Proof.Machine.execAirHoldExpiry s
  | .feederControlPeriod => Sys2Proof.Machine.execFeederControlPeriod s
  | .mixRampStep b => Sys2Proof.Machine.execMixRampStep b s
  | .deviationTime f => Sys2Proof.Machine.execDeviationTime f s
  | .noFlowTime f => Sys2Proof.Machine.execNoFlowTime f s
  | .lightWaitExpiry b => Sys2Proof.Machine.execLightWaitExpiry b s
  | .flameProven b => Sys2Proof.Machine.execFlameProven b s
  | .ignitionDeadline b => Sys2Proof.Machine.execIgnitionDeadline b s
  | .loadingDeadline b => Sys2Proof.Machine.execLoadingDeadline b s
  | .flameFailTime b => Sys2Proof.Machine.execFlameFailTime b s
  | .flameWeakTime b => Sys2Proof.Machine.execFlameWeakTime b s
  | .heldDeadline b => Sys2Proof.Machine.execHeldDeadline b s
  | .fieldScanStart => Sys2Proof.Machine.execFieldScanStart s
  | .fieldScanComplete fdi => Sys2Proof.Machine.execFieldScanComplete fdi s
  | .fanStartDeadline n => Sys2Proof.Machine.execFanStartDeadline n s
  | .fanFeedbackLoss n => Sys2Proof.Machine.execFanFeedbackLoss n s
  | .heldFlowExpiry n => Sys2Proof.Machine.execHeldFlowExpiry n s
  | .coolingPeriod => Sys2Proof.Machine.execCoolingPeriod s
  | .grateFeedbackLoss => Sys2Proof.Machine.execGrateFeedbackLoss s
  | .bedPressureHighTime => Sys2Proof.Machine.execBedPressureHighTime s

end Sys2Proof.Machine
end

