-- ==== Sys2Proof/Machine/Tick.lean ====
section
/-! DEFINITION. The millisecond of station time that passes while no row waits: the rows that station time itself brings
due, and the host's command in progress (DESIGN CHOICE, log 2 and 4). -/

namespace Sys2Proof.Machine

open Sys2Proof.Config

/-- The timers of the line, the peers and the resources, with the row each brings. -/
def Part.lineTimers (p : Part) : List (Option Time × Instr) :=
  [(p.line.statusDue, .statusPeriodExpiry), (p.line.dupDeadline, .duplicateDeadlineExpiry)] ++
  (stations.filter (· ≠ p.strapStation)).map (fun q => (p.agingDeadline q, .peerAgingExpiry q)) ++
  resourceIds.flatMap fun k =>
    let r := p.claims[k]
    [(if r.state = .waiting then r.stagger else none, .staggerEnd k),
     (if r.state = .claiming then r.settle else none, .settleDeadline k),
     (r.claimant.map Claimant.expiry, .claimantExpiry k), (r.reclaim, .reclaimDelayEnd k)]

/-- A timer that is read only in one state. -/
def inState (b : Bool) (t : Option Time) : Option Time := if b then t else none

/-- The timers of the burners. -/
def Part.burnerTimers (p : Part) : List (Option Time × Instr) :=
  burnerIds.flatMap fun b =>
    let x := p.burners[b]
    [(inState (x.state == .lightWait) x.lightWait, .lightWaitExpiry b), (p.provenDue b, .flameProven b),
     (inState (x.state == .igniting) x.ignition, .ignitionDeadline b),
     (inState (x.state == .loading) x.loading, .loadingDeadline b), (p.flameFailDue b, .flameFailTime b),
     (p.weakDue b, .flameWeakTime b), (inState (x.state == .held) x.heldUntil, .heldDeadline b),
     ((p.ramps[b].filter MixRamp.ramping).map MixRamp.nextStep, .mixRampStep b)]

/-- The periods, and the timers of feeders, fans, grate, alarms and engineering window. -/
def Part.plantTimers (p : Part) : List (Option Time × Instr) :=
  [(some p.field.nextScan, .fieldScanStart), (inState p.started (some p.nextFeeder), .feederControlPeriod),
   (inState p.started (some p.nextCool), .coolingPeriod),
   (inState (p.alloc.ceilState == .hold) p.alloc.holdDeadline, .airHoldExpiry),
   (inState (p.grate.state == .running) (lossDue p.grate.fbLoss), .grateFeedbackLoss),
   (timerDue 10000 p.grate.bedHigh, .bedPressureHighTime), (p.engineeringDue, .engineeringDeadline)] ++
  (feederIds.flatMap fun f =>
    [(timerDue 20000 p.feeders[f].devTimer, .deviationTime f), (timerDue 10000 p.feeders[f].noFlow, .noFlowTime f)]) ++
  (fanIds.flatMap fun n =>
    [(inState (p.fans[n].state == .starting) p.fans[n].startUntil, .fanStartDeadline n),
     (inState (p.fans[n].state == .running) (lossDue p.fans[n].fbLoss), .fanFeedbackLoss n),
     (p.fans[n].holdUntil, .heldFlowExpiry n)]) ++
  pointIds.map fun i => (p.alarms.points[i].shelvedUntil, .shelvingExpiry i)

/-- The rows due now: timers that have come, and the command in progress as its block takes it (R184). -/
def Part.dueRows (p : Part) : List Instr :=
  ((p.lineTimers ++ p.burnerTimers ++ p.plantTimers).filterMap fun e =>
    if e.1.any (reached p.now) then some e.2 else none) ++
  (p.host.inProgress.bind (hostCommand p.host.eng)).toList

/-- A row in its place by rank. -/
def insertRow (e : Nat × Instr) : List (Nat × Instr) → List (Nat × Instr)
  | [] => [e]
  | f :: fs => if e.1 ≤ f.1 then e :: f :: fs else f :: insertRow e fs

/-- Rows that fall together, in the order the free value gives them. -/
def ranked (now : Time) (l : List Instr) : List Instr :=
  ((l.zipIdx.map fun e => (tieKey now e.2, e.1)).foldr insertRow []).map Prod.snd

/-- The ENG input at this instant: asserted once the key is found turned, at an instant that a free value names (log 28);
ENG_NEGATED negates it. -/
def Part.seeKey (p : Part) : Part := p.updHost fun h => { h with eng := h.eng || engTurned p.now }

/-- One millisecond passes, and the rows it brings due wait in the queue. -/
def State.tick (s : State) : State :=
  let p := Part.seeKey { s.part with now := later s.part.now 1 }
  { part := p, pending := ranked p.now p.dueRows }

end Sys2Proof.Machine
end

