-- ==== Sys2Proof/Safety.lean ====
section
/-! DEFINITION. What holds of the part at every moment, in the terms the claims use: the capacities of its lists, the law
of the line resources (R50), the law of trips (R88), and the agreement of the output image with the states. -/

namespace Sys2Proof.Machine

open Sys2Proof.Config

/-! ## Capacities (R7, R158, R171, R146, R184, R179, R159) -/

/-- A record's trip list holds at most 8 entries. -/
def ShiftRec.fits (r : ShiftRec) : Prop := r.trips.length ≤ tripListSize

/-- Every list of the part within the capacity the manual gives it. -/
structure Part.Fits (p : Part) : Prop where
  queue : p.line.queue.length ≤ queueSize
  events : p.alarms.events.length ≤ eventSize
  lost : p.alarms.lost ≤ 255
  window : p.alarms.readPos ≤ 10
  store : p.shift.store.length ≤ storeSize
  current : ∀ r, p.shift.current = some r → r.fits
  stored : ∀ e ∈ p.shift.store, e.1.fits
  buffer : p.host.buffer.length ≤ bufferSize
  badRun : p.field.badRun ≤ 4
  goodRun : p.field.goodRun ≤ 2

/-! ## Line resources (R38, R50) -/

/-- Users named by a record or a list are users of that resource. -/
def Part.UsersKnown (p : Part) : Prop :=
  ∀ k : Fin 3, (∀ u, p.claims[k].user = some u → u < userCount k) ∧ ∀ u ∈ p.claims[k].waitList, u < userCount k

/-- LIGHT-OFF is HELD for the burner. -/
def Part.holdsFor (k : Fin 3) (u : Nat) (p : Part) : Prop := p.claims[k].state = .held ∧ p.claims[k].user = some u

/-- The laws of R50. -/
structure Part.Lawful (p : Part) : Prop where
  users : p.UsersKnown
  lightOff : ∀ b : Fin 2, p.burners[b].state = .igniting ∨ p.burners[b].state = .loading → p.holdsFor 0 b.val
  heavyStart : ∀ n : Fin 4, p.fans[n].state = .starting → p.holdsFor 1 n.val

/-! ## Trips (R88) -/

/-- A burner that is OFF or TRIPPED. -/
def Burner.out (x : Burner) : Prop := x.state = .off ∨ x.state = .tripped

/-- The wait list of LIGHT-OFF holds burners in LIGHT_WAIT, each once; the record's user stands in it until granted, and
then ignites or loads (R38, R50, R78). -/
structure Part.Waiting (p : Part) : Prop where
  sorted : p.claims[(0 : Fin 3)].waitList.Pairwise (· < ·)
  inWait : ∀ b : Fin 2, b.val ∈ p.claims[(0 : Fin 3)].waitList → p.burners[b].state = .lightWait
  known : ∀ u ∈ p.claims[(0 : Fin 3)].waitList, u < 2
  idle : p.claims[(0 : Fin 3)].state = .idle → p.claims[(0 : Fin 3)].user = none
  user : ∀ u, p.claims[(0 : Fin 3)].user = some u → p.claims[(0 : Fin 3)].state ≠ .held →
    u ∈ p.claims[(0 : Fin 3)].waitList
  held : ∀ u, p.claims[(0 : Fin 3)].user = some u → p.claims[(0 : Fin 3)].state = .held →
    ∃ b : Fin 2, b.val = u ∧ (p.burners[b].state = .igniting ∨ p.burners[b].state = .loading)

/-- What an UNSTARTED station is (R53, R96, R161, R178): no resource is wanted, every burner is OFF, every point NORMAL
with no effective condition, every output off. -/
structure Part.Dormant (p : Part) : Prop where
  claims : ∀ k : Fin 3, p.claims[k].state = .idle ∧ p.claims[k].waitList = []
  burners : ∀ b : Fin 2, p.burners[b].state = .off
  points : ∀ i : Fin 62, p.alarms.points[i].state = .normal ∧ p.alarms.points[i].eff = false
  outputs : p.field.output = .off

/-- The law of R88, with what it rests on: a burner that is not used is OFF, and an UNSTARTED station is dormant. -/
structure Part.TripLaw (p : Part) : Prop where
  waiting : p.Waiting
  unused : ∀ b : Fin 2, p.burners[b].cfg.used = false → p.burners[b].state = .off
  unstarted : p.started = false → p.Dormant
  bound : ∀ (b : Fin 2) (i : Fin 62), p.bindsBurner b i = true → p.alarms.points[i].state ≠ .normal → p.burners[b].out

/-! ## Outputs (R78, R101, R109, R123, R130, R133, R134, R156) -/

/-- The outputs of a feeder by its state (R101, R109); a remote enable is on only while the station is STARTED. -/
structure Part.FeederOutput (f : Fin 6) (p : Part) : Prop where
  run : p.field.output.run[f] = (p.feeders[f].state == .running)
  remote : p.field.output.remote[f] =
    (p.started && (p.feeders[f].state == .running || p.feeders[f].state == .stopped))
  speed : p.field.output.speed[f] ≤ 1000
  stopped : p.feeders[f].state ≠ .running → p.field.output.speed[f] = 0

/-- The outputs of a fan by its state (R123, R130). -/
structure Part.FanOutput (n : Fin 4) (p : Part) : Prop where
  run : p.field.output.fanRun[n] = (p.fans[n].state == .starting || p.fans[n].state == .running)
  starting : p.fans[n].state = .starting → p.field.output.fanSpeed[n] = 200
  running : p.fans[n].state = .running → 100 ≤ p.field.output.fanSpeed[n] ∧ p.field.output.fanSpeed[n] ≤ 1000
  stopped : p.fans[n].state ≠ .starting → p.fans[n].state ≠ .running → p.field.output.fanSpeed[n] = 0

/-- The outputs of the grate by its state (R133, R134). -/
structure Part.GrateOutput (p : Part) : Prop where
  run : p.field.output.grateRun = (p.grate.state == .running)
  running : p.grate.state = .running → p.grate.cfg.minSpeed ≤ p.grate.cfg.maxSpeed →
    p.grate.cfg.minSpeed ≤ p.field.output.grateSpeed ∧ p.field.output.grateSpeed ≤ p.grate.cfg.maxSpeed
  stopped : p.grate.state ≠ .running → p.field.output.grateSpeed = 0

/-- The output image as the states set it. -/
structure Part.OutputsAgree (p : Part) : Prop where
  unstarted : p.started = false → p.Dormant
  igniter : ∀ b : Fin 2, p.field.output.igniter[b] = (p.burners[b].state == .igniting)
  feeder : ∀ f : Fin 6, p.FeederOutput f
  fan : ∀ n : Fin 4, p.FanOutput n
  grate : p.GrateOutput
  horn : p.field.output.horn = p.alarms.horn

/-! ## Engineering window, fuel table, mix -/

/-- The engineering window is OPEN only while ENG is asserted (R190, R191), and only an OPEN one has a closing still to be
taken (log 29). -/
def Part.windowKeyed (p : Part) : Prop :=
  (p.host.window.isSome = true → p.host.eng = true) ∧ (p.host.lapsed = true → p.host.window.isSome = true)

/-- A CV the fuel table may hold: 0 for unset, or 5000 to 50000 (R97). -/
def cvInRange (cv : Nat) : Prop := cv = 0 ∨ (5000 ≤ cv ∧ cv ≤ 50000)

/-- The mix of every used burner sums to 1000 while STARTED (R116), and a mix-ramp record leads from one such mix to
another. -/
structure Part.MixWhole (p : Part) : Prop where
  time : 0 < p.cfg.mixTime
  mix : p.started = true → ∀ b : Fin 2, p.burners[b].cfg.used = true →
    sumOver (p.feedersOf b) (fun f => p.feeders[f].mix) = 1000
  ramp : ∀ (b : Fin 2) (r : MixRamp), p.ramps[b] = some r → p.started = true ∧ p.burners[b].cfg.used = true ∧
    sumOver (p.feedersOf b) (fun f => r.old[f]) = 1000 ∧ sumOver (p.feedersOf b) (fun f => r.target[f]) = 1000 ∧
    r.elapsed < r.time

/-! ## Rows taken -/

/-- Row c, taken in p whatever rows wait behind it, completes: the part becomes q, and the rows that wait stay. -/
def Takes (c : Instr) (p q : Part) : Prop := ∀ rest : List Instr, exec c ⟨p, rest⟩ = .next ⟨q, rest⟩

/-- The row of a timer of instant t: once t has come it completes, at the same station time, in a part of which `after`
holds; while t lies ahead it changes nothing (the model's choice, log 3). -/
def TakesAt (c : Instr) (t : Time) (p : Part) (after : Part → Prop) : Prop :=
  (reached p.now t = true → ∃ q, Takes c p q ∧ q.now = p.now ∧ after q) ∧ (reached p.now t = false → Takes c p p)

/-- The host port with a response written (R185, R186): code, overrun mark, command code, data length high byte first,
data; response ready, read from its first byte, and the port READY. -/
def HostPort.answered (cmd : Nat) (code : Code) (data : List Byte) (h : HostPort) : HostPort :=
  { h with run := code.byte :: boolByte h.overrun :: byteOf cmd :: byteOf (data.length / 256) :: byteOf data.length :: data,
           readPos := 0, ready := true, inProgress := none, overrun := false }

/-- The part with a response written and nothing else changed: what a refused command leaves. -/
def Part.answer (cmd : Nat) (code : Code) (data : List Byte) (p : Part) : Part :=
  { p with host := p.host.answered cmd code data }

/-- The response to a command answered DONE that renews the deadline of the window (R190), and whether that deadline had
passed already, so that its closing is still to come (R191; the mark is the model's own, log 29). -/
def HostPort.renewed (cmd : Nat) (now : Time) (h : HostPort) : HostPort :=
  { h.answered cmd .done [] with window := some (later now engineeringTime),
                                 lapsed := h.lapsed || h.window.any (reached now) }

/-- An event was reported: it stands in the queue, unless the queue is full (R158). -/
def Reported (e : Event) (q : Part) : Prop := e ∈ q.alarms.events ∨ eventSize ≤ q.alarms.events.length

/-- The part once event e is offered: stored behind the others, or the lost count raised where the queue is full (R158). -/
def Part.withEvent (e : Event) (p : Part) : Part :=
  { p with alarms :=
    if p.alarms.events.length < 32 then { p.alarms with events := p.alarms.events ++ [e] }
    else { p.alarms with lost := min 255 (p.alarms.lost + 1) } }

/-- Point i, acknowledged in p with its condition fallen, was asserted again and fell in the event that led to q: it stands
CLEARED_ACKED once more, and the horn, which this fall may turn off, is off where no TRIP or ALARM point stands in ACTIVE
(R142, R156). -/
def Reasserted (i : Fin 62) (p q : Part) : Prop :=
  p.started = true → p.alarms.points[i].state = .clearedAcked → p.alarms.points[i].eff = false →
    p.alarms.points[i].shelvedUntil = none →
    q.alarms.points[i].state = .clearedAcked ∧
    ((∀ j : Fin 62, q.alarms.points[j].state = .active → (q.pointAttr j).cls = .warning ∨ (q.pointAttr j).cls = .notice) →
      q.alarms.horn = false ∧ q.field.output.horn = false)

/-- No TRIP point bound to burner b or to the station has an effective condition. -/
def Part.QuietFor (b : Fin 2) (p : Part) : Prop := ∀ i : Fin 62, p.bindsBurner b i = true → p.effective i = false

/-! ## Frames

A block is a group of the part's registers; a row's frame names the blocks it may change. -/

/-- The groups of registers: one for each unit of state that a rule changes as a whole. Outside `queueOut`
and `eventsOut`, frames and events are only added to their queues, up to the capacity (R7, R158). -/
inductive Block where
  | clock | straps | started | cfg
  | queue | queueOut | sending | receiving | lineCounts | txFail | duplicate | stuck | silent | statusTimer
  | peer (q : Fin 16)
  | claim (k : Fin 3) | waitList (k : Fin 3) | reclaim (k : Fin 3) | view (k : Fin 3) | mark (k : Fin 3)
  | offer | alloc
  | mode | burner (b : Fin 2)
  | fuel | feeder (f : Fin 6) | drive (f : Fin 6) | ramp (b : Fin 2) | feederClock
  | fan (n : Fin 4) | grate | air | fanClock
  | points | ext | peerTrips | tripSeq | firstOut | horn | events | eventsOut | window
  | record | shift
  | image | scan | driveOut | igniters | fanOut | grateOut | hornOut
  | buffer | response | enables | engineering | dataOut
  deriving DecidableEq, Repr

/-- What the Allocation Unit computes: all but the own offer. -/
def Alloc.results (a : Alloc) : Alloc := { a with offered := false, offer := 0 }

/-- A feeder but for its state, setpoint, trim and timers, the block `drive`. -/
def Feeder.measured (x : Feeder) : Feeder :=
  { x with state := .unused, setpoint := 0, rampRem := 0, trim := 0, devTimer := none, noFlow := none }

/-- The shift number, the store and its causes: all but the open record. -/
def Shift.closed (s : Shift) : Shift := { s with current := none }

/-- The scan itself: all of the Field Scanner but its two images. -/
def Field.scanning (f : Field) : Field := { f with image := .reset, output := .off }

/-- Every register of a block has in q the value it has in p. -/
def Block.Same : Block → Part → Part → Prop
  | .clock, p, q => q.now = p.now
  | .straps, p, q => q.strapStation = p.strapStation ∧ q.strapRate = p.strapRate
  | .started, p, q => q.started = p.started
  | .cfg, p, q => q.cfg = p.cfg
  | .queue, p, q => q.line.queue = p.line.queue ∧ q.line.nextTag = p.line.nextTag
  | .queueOut, p, q => p.line.queue ⊆ q.line.queue ∧
      (p.line.queue.length ≤ queueSize → q.line.queue.length ≤ queueSize)
  | .sending, p, q => q.line.phase = p.line.phase ∧ q.line.lastTry = p.line.lastTry ∧ q.line.wire = p.line.wire ∧
      q.line.sequence = p.line.sequence ∧ q.line.lastSent = p.line.lastSent
  | .receiving, p, q => q.line.assembly = p.line.assembly ∧ q.line.receiver = p.line.receiver
  | .lineCounts, p, q => { q.line.counts with failures := 0 } = { p.line.counts with failures := 0 }
  | .txFail, p, q => q.line.txFail = p.line.txFail ∧ q.line.counts.failures = p.line.counts.failures
  | .duplicate, p, q => q.line.dupDeadline = p.line.dupDeadline
  | .stuck, p, q => q.line.stuck = p.line.stuck
  | .silent, p, q => q.line.silent = p.line.silent
  | .statusTimer, p, q => q.line.statusDue = p.line.statusDue
  | .peer x, p, q => q.peers[x] = p.peers[x]
  | .claim k, p, q => q.claims[k].state = p.claims[k].state ∧ q.claims[k].user = p.claims[k].user ∧
      q.claims[k].settle = p.claims[k].settle ∧ q.claims[k].note = p.claims[k].note ∧
      q.claims[k].stagger = p.claims[k].stagger
  | .waitList k, p, q => q.claims[k].waitList = p.claims[k].waitList
  | .reclaim k, p, q => q.claims[k].reclaim = p.claims[k].reclaim
  | .view k, p, q => q.claims[k].claimant = p.claims[k].claimant ∧ q.claims[k].released = p.claims[k].released
  | .mark k, p, q => q.claims[k].conflict = p.claims[k].conflict
  | .offer, p, q => q.alloc.offered = p.alloc.offered ∧ q.alloc.offer = p.alloc.offer
  | .alloc, p, q => q.alloc.results = p.alloc.results
  | .mode, p, q => q.mode = p.mode
  | .burner b, p, q => q.burners[b] = p.burners[b]
  | .fuel, p, q => q.fuel = p.fuel
  | .feeder f, p, q => q.feeders[f].measured = p.feeders[f].measured
  | .drive f, p, q => q.feeders[f].state = p.feeders[f].state ∧ q.feeders[f].setpoint = p.feeders[f].setpoint ∧
      q.feeders[f].rampRem = p.feeders[f].rampRem ∧ q.feeders[f].trim = p.feeders[f].trim ∧
      q.feeders[f].devTimer = p.feeders[f].devTimer ∧ q.feeders[f].noFlow = p.feeders[f].noFlow
  | .ramp b, p, q => q.ramps[b] = p.ramps[b]
  | .feederClock, p, q => q.nextFeeder = p.nextFeeder
  | .fan n, p, q => q.fans[n] = p.fans[n]
  | .grate, p, q => q.grate = p.grate
  | .air, p, q => q.air = p.air
  | .fanClock, p, q => q.nextCool = p.nextCool
  | .points, p, q => q.alarms.points = p.alarms.points ∧ q.alarms.seen = p.alarms.seen ∧
      q.alarms.autoResume = p.alarms.autoResume
  | .ext, p, q => q.alarms.ext = p.alarms.ext
  | .peerTrips, p, q => q.alarms.peerTrips = p.alarms.peerTrips ∧ q.alarms.raisedBy = p.alarms.raisedBy
  | .tripSeq, p, q => q.alarms.tripSeq = p.alarms.tripSeq
  | .firstOut, p, q => q.alarms.firstOut = p.alarms.firstOut ∧ q.alarms.tripNew = p.alarms.tripNew
  | .horn, p, q => q.alarms.horn = p.alarms.horn
  | .events, p, q => q.alarms.events = p.alarms.events ∧ q.alarms.lost = p.alarms.lost
  | .eventsOut, p, q => p.alarms.events <+: q.alarms.events ∧
      (p.alarms.events.length ≤ eventSize → q.alarms.events.length ≤ eventSize)
  | .window, p, q => q.alarms.readPos = p.alarms.readPos ∧ q.alarms.readEmpty = p.alarms.readEmpty
  | .record, p, q => q.shift.current = p.shift.current
  | .shift, p, q => q.shift.closed = p.shift.closed
  | .image, p, q => q.field.image = p.field.image
  | .scan, p, q => q.field.scanning = p.field.scanning
  | .driveOut, p, q => q.field.output.speed = p.field.output.speed ∧ q.field.output.run = p.field.output.run ∧
      q.field.output.remote = p.field.output.remote
  | .igniters, p, q => q.field.output.igniter = p.field.output.igniter
  | .fanOut, p, q => q.field.output.fanSpeed = p.field.output.fanSpeed ∧ q.field.output.fanRun = p.field.output.fanRun
  | .grateOut, p, q => q.field.output.grateSpeed = p.field.output.grateSpeed ∧
      q.field.output.grateRun = p.field.output.grateRun
  | .hornOut, p, q => q.field.output.horn = p.field.output.horn
  | .buffer, p, q => q.host.buffer = p.host.buffer ∧ q.host.overLong = p.host.overLong
  | .response, p, q => q.host.run = p.host.run ∧ q.host.readPos = p.host.readPos ∧ q.host.ready = p.host.ready ∧
      q.host.inProgress = p.host.inProgress ∧ q.host.overrun = p.host.overrun
  | .enables, p, q => q.host.enables = p.host.enables
  | .engineering, p, q => q.host.window = p.host.window ∧ q.host.lapsed = p.host.lapsed ∧
      q.host.eng = p.host.eng
  | .dataOut, p, q => q.host.dataOut = p.host.dataOut

/-- From p to q, no register outside the blocks of T has changed. -/
structure ChangesOnly (T : Set Block) (p q : Part) : Prop where
  same : ∀ b, b ∉ T → b.Same p q

/-! ## What the shared operations may change -/

/-- A frame queued, or its discard counted (R8, R12). -/
def sendBlocks : Set Block := {.queue, .txFail, .record}

/-- A user's leave of a line resource, with the RELEASE it may queue (R48, R49). -/
def leaveBlocks (k : Fin 3) : Set Block := {.claim k, .waitList k, .reclaim k, .events} ∪ sendBlocks

/-- A mix replaced: fractions, and the feeders that they start or stop (R114, R100). -/
def mixBlocks : Set Block := Set.range .feeder ∪ Set.range .drive ∪ {.driveOut}

/-- A burner's change of state: its own items, its igniter, its feeders' setpoints, states and outputs, its mix ramp,
LIGHT-OFF and MIX-CHANGE (R77, R78, R100, R101, R108, R118). -/
def burnerBlocks (b : Fin 2) : Set Block :=
  {.burner b, .igniters, .ramp b} ∪ mixBlocks ∪ leaveBlocks 0 ∪ leaveBlocks 2

/-- A fan's change of state, with HEAVY-START (R123). -/
def fanBlocks (n : Fin 4) : Set Block := {.fan n, .fanOut} ∪ leaveBlocks 1

/-- A point that trips nothing moves (R142, R145, R156). -/
def pointBlocks : Set Block := {.points, .horn, .hornOut, .events, .record}

/-- Any point moves: a TRIP activation takes burners along, fills the first-out record and may queue a TRIP frame
(R146, R147). -/
def tripBlocks : Set Block :=
  pointBlocks ∪ {.firstOut, .tripSeq} ∪ sendBlocks ∪ burnerBlocks 0 ∪ burnerBlocks 1

/-- The end of an event that can move no TRIP point (`Part.settle`). -/
def settleBlocks : Set Block := Set.range .claim ∪ {.alloc} ∪ pointBlocks

/-- The end of any event (`Part.settleAll`). -/
def settleAllBlocks : Set Block := tripBlocks ∪ settleBlocks

/-- A user of a line resource told that it is granted, aborted or refused, with its record (R45, R47, R51). -/
def userBlocks : Set Block :=
  tripBlocks ∪ (Set.range .fan ∪ {.fanOut} ∪ Set.range .claim ∪ Set.range .waitList ∪ Set.range .reclaim ∪
    Set.range .mark)

/-- The station becomes SILENT (R19, R51). -/
def silentBlocks : Set Block := {.silent, .queueOut, .sending, .statusTimer} ∪ userBlocks

/-- An accepted frame of peer q handed to the blocks (R16). -/
def heardBlocks (q : Fin 16) : Set Block := {.peer q, .lineCounts, .shift, .peerTrips} ∪ Set.range .view ∪ userBlocks

/-- Characters taken in, whatever they turn out to be (R13 to R19). -/
def receivedBlocks : Set Block :=
  {.receiving, .lineCounts, .stuck, .duplicate, .shift, .peerTrips} ∪ Set.range .peer ∪ Set.range .view ∪ silentBlocks

/-- The block of object k among n, if there is such an object. -/
def blockOf {n : Nat} (k : Nat) (f : Fin n → Block) : Set Block := {x | ∃ i : Fin n, i.val = k ∧ x = f i}

/-- The burner blocks of burner n. -/
def ofBurner (n : Nat) : Set Block := {x | ∃ b : Fin 2, b.val = n ∧ x ∈ burnerBlocks b}

/-- The fan blocks of fan k. -/
def ofFan (k : Nat) : Set Block := {x | ∃ n : Fin 4, n.val = k ∧ x ∈ fanBlocks n}

/-- The blocks each row may change: everything else keeps its value. -/
def rowBlocks : Instr → Set Block
  | .pinReset _ _ _ => Set.univ
  | .commandByteWrite _ => {.buffer}
  | .submit => {.buffer, .response}
  | .responseByteRead => {.response, .dataOut}
  | .interruptEnablesWrite _ => {.enables}
  | .eventWindowRead => {.dataOut, .window, .events, .eventsOut}
  | .eventWindowWrite _ => ∅
  | .configureStation _ _ _ _ _ _ =>
    {.cfg, .response} ∪ Set.range .peer ∪ Set.range .view ∪ Set.range .mark ∪ settleAllBlocks
  | .startStation =>
    {.started, .shift, .statusTimer, .mode, .grate, .air, .feederClock, .fanClock, .response} ∪ Set.range .fan ∪
      settleAllBlocks
  | .restartStation =>
    {.started, .queue, .queueOut, .sending, .statusTimer, .txFail, .silent, .record, .shift, .mode, .grate, .air, .offer, .alloc,
      .points, .ext, .firstOut, .horn, .events, .eventsOut, .window, .driveOut, .igniters, .fanOut, .grateOut, .hornOut, .enables,
      .response} ∪ Set.range .burner ∪ Set.range .feeder ∪ Set.range .drive ∪ Set.range .ramp ∪ Set.range .fan ∪
      Set.range .claim ∪ Set.range .waitList ∪ Set.range .reclaim ∪ Set.range .mark
  | .readStation | .readLineStatus | .readPeerChanges | .readResources | .readAllocation | .readBurner _
  | .readFuelTable | .readFeeder _ | .readCooler | .readSummary | .readPoint _ | .readPointStates | .readField =>
    {.response}
  | .openEngineering _ => {.engineering, .record, .response}
  | .closeEngineering => {.engineering, .response}
  | .engineeringDeadline => {.engineering}
  | .engNegated => {.engineering}
  | .readPeerEntry station => {.response} ∪ {x | ∃ q, stationIndex station = some q ∧ x = .peer q}
  | .offerDemand _ => {.offer, .response} ∪ sendBlocks ∪ settleBlocks
  | .withdrawDemand => {.offer, .response} ∪ sendBlocks ∪ settleBlocks
  | .setMode _ => {.mode, .response} ∪ settleAllBlocks
  | .configureBurner burner _ _ _ _ _ _ _ _ _ _ => {.response} ∪ blockOf burner .burner
  | .startBurner burner => {.response} ∪ ofBurner burner ∪ settleBlocks
  | .stopBurner burner => {.response} ∪ ofBurner burner ∪ settleBlocks
  | .resumeBurner burner => {.response} ∪ ofBurner burner ∪ settleBlocks
  | .resetTripPoint _ => {.points, .response}
  | .resetTripBurner burner => {.response} ∪ ofBurner burner ∪ settleBlocks
  | .configureFuel _ _ => {.fuel, .response}
  | .writeFuel _ _ => {.fuel, .record, .engineering, .response} ∪ settleBlocks
  | .configureFeeder feeder _ _ _ _ _ _ _ _ _ _ _ => {.response} ∪ blockOf feeder .feeder ∪ blockOf feeder .drive
  | .setMix burner _ _ _ _ _ _ =>
    {.response} ∪ blockOf burner .ramp ∪ mixBlocks ∪ leaveBlocks 2 ∪ settleBlocks
  | .writePulseWeight feeder _ => {.record, .engineering, .response} ∪ blockOf feeder .feeder
  | .configureFan fan _ _ _ _ _ _ _ _ _ => {.events, .response} ∪ blockOf fan .fan
  | .startFan fan => {.response} ∪ ofFan fan ∪ settleBlocks
  | .stopFan fan => {.response} ∪ ofFan fan ∪ settleBlocks
  | .resetFan fan => {.response} ∪ ofFan fan ∪ settleBlocks
  | .configureGrate _ _ _ _ _ _ _ _ => {.grate, .events, .response}
  | .startGrate => {.grate, .grateOut, .response} ∪ settleBlocks
  | .stopGrate => {.grate, .grateOut, .response} ∪ settleBlocks
  | .setBedPressure _ => {.grate, .response}
  | .acknowledge _ => {.points, .horn, .hornOut, .response}
  | .acknowledgeAll => {.points, .horn, .hornOut, .response}
  | .resetAlarm _ => {.points, .response}
  | .shelve _ _ => {.points, .engineering, .response}
  | .unshelve _ => {.engineering, .response} ∪ settleAllBlocks
  | .shelvingExpiry _ => settleAllBlocks
  | .configureExternalPoint _ _ _ _ _ _ _ _ => {.ext, .response}
  | .raiseExternal _ => {.ext, .response} ∪ settleAllBlocks
  | .clearExternal _ => {.ext, .response} ∪ settleAllBlocks
  | .discardPeerTrip _ => {.peerTrips, .engineering, .response} ∪ settleAllBlocks
  | .readFirstOut => {.firstOut, .response}
  | .resetFirstOut => {.firstOut, .response}
  | .clearSummary => {.response} ∪ settleAllBlocks
  | .silenceHorn => {.horn, .hornOut, .response}
  | .closeShift _ => {.shift, .response} ∪ sendBlocks ∪ settleBlocks
  | .readShiftRecord _ _ => {.shift, .response}
  | .writeShiftNote _ => {.record, .response}
  | .accessGapReached _ => {.receiving, .lineCounts, .record, .queue, .queueOut, .sending}
  | .frameSentWhole _ => {.queueOut, .sending, .lineCounts} ∪ sendBlocks ∪ settleAllBlocks
  | .readBackMismatch _ => {.sending}
  | .breakEnded => {.queueOut, .sending, .receiving, .lineCounts} ∪ sendBlocks ∪ settleAllBlocks
  | .statusPeriodExpiry => {.statusTimer} ∪ sendBlocks ∪ settleBlocks
  | .frameReceived _ => receivedBlocks ∪ settleAllBlocks
  | .badHeaderDiscard _ => receivedBlocks ∪ settleAllBlocks
  | .partialFrameDiscard _ _ => {.receiving, .lineCounts, .record}
  | .interCharacterGap _ => {.receiving, .lineCounts, .record}
  | .duplicateDeadlineExpiry => {.duplicate} ∪ settleAllBlocks
  | .lineStuckSet => {.stuck} ∪ settleAllBlocks
  | .lineStuckCleared => {.stuck} ∪ settleAllBlocks
  | .peerAgingExpiry peer => {.peer peer} ∪ Set.range .view ∪ Set.range .mark ∪ settleAllBlocks
  | .staggerEnd k => {.claim k} ∪ sendBlocks ∪ settleBlocks
  | .settleDeadline _ => userBlocks ∪ settleAllBlocks
  | .claimantExpiry k => {.view k} ∪ settleBlocks
  | .reclaimDelayEnd k => {.reclaim k} ∪ settleBlocks
  | .airHoldExpiry => settleBlocks
  | .feederControlPeriod =>
    {.feederClock} ∪ burnerBlocks 0 ∪ burnerBlocks 1 ∪ settleBlocks
  | .mixRampStep b => {.ramp b} ∪ mixBlocks ∪ leaveBlocks 2 ∪ settleBlocks
  | .deviationTime f => {.drive f} ∪ settleBlocks
  | .noFlowTime f => {.drive f} ∪ settleBlocks
  | .lightWaitExpiry b => burnerBlocks b ∪ settleBlocks
  | .flameProven b => burnerBlocks b ∪ settleBlocks
  | .ignitionDeadline _ => settleAllBlocks
  | .loadingDeadline b => burnerBlocks b ∪ settleBlocks
  | .flameFailTime _ => settleAllBlocks
  | .flameWeakTime b => {.burner b} ∪ settleBlocks
  | .heldDeadline b => burnerBlocks b ∪ settleBlocks
  | .fieldScanStart => {.scan}
  | .fieldScanComplete _ =>
    {.scan, .image, .grate, .ext, .fanOut} ∪ Set.range .fan ∪ leaveBlocks 1 ∪ settleAllBlocks
  | .fanStartDeadline n => fanBlocks n ∪ settleAllBlocks
  | .fanFeedbackLoss n => fanBlocks n ∪ settleAllBlocks
  | .heldFlowExpiry n => {.fan n}
  | .coolingPeriod => {.fanClock, .fanOut, .grateOut, .air, .record} ∪ Set.range .fan ∪ settleBlocks
  | .grateFeedbackLoss => {.grate, .grateOut} ∪ settleAllBlocks
  | .bedPressureHighTime => {.grate} ∪ settleBlocks

end Sys2Proof.Machine
end

