-- ==== Sys2Proof/Certificates/Slice0/Obligations.lean ====
section
/-! DEFINITION. What the provers are to prove of the model: one definition for each statement of OBLIGATIONS.json.

Most statements say which part `q` a row leaves when it is taken in a part `p` (`Takes`). Where a row ends its event with
`Part.settle` or `Part.settleAll`, a statement either writes that call (and is then exact), or says what holds of `q`
afterwards. `Obligations.RowsKeepTheirFrames` is the frame of every row. -/

open Sys2Proof Sys2Proof.Machine Sys2Proof.Config

/-! ## The machine -/

/-- The model's queue (log 2, 8): step takes the front row, exec of it completes, and the other rows go on waiting. -/
def Obligations.StepTakesFrontRow : Prop :=
  ∀ (c : Instr) (s : State),
    step { s with pending := c :: s.pending } = exec c s ∧ ∃ q, exec c s = .next { s with part := q }

/-- The frame of every row: it completes, and changes no register outside its blocks.
Where a log entry settles what a row does, its frame is that of the model's choice: a timer row ahead of its instant (log 3),
the marks `holdSpent` and `lapsed` (log 27, 29), FIELD_SCAN_COMPLETE without a scan in flight (log 16), a command row whose
bytes did not pass SUBMIT (log 8), the output block sent, which RESTART STATION leaves (log 35). -/
def Obligations.RowsKeepTheirFrames : Prop :=
  ∀ (c : Instr) (p : Part), ∃ q, Takes c p q ∧ ChangesOnly (rowBlocks c) p q

/-- The model's clock (log 2, 4): with no row waiting, 1 ms passes and the rows that fall due wait, in some order. The ENG
input is then asserted if the key is found turned, which is left free (log 28). -/
def Obligations.IdleStepPassesOneMillisecond : Prop :=
  ∀ (p q : Part) (t : Time), t = (p.now + 1) % 429496729600 →
    q = { p with now := t, host := { p.host with eng := p.host.eng || engTurned t } } →
    ∃ rows, step ⟨p, []⟩ = .next ⟨q, rows⟩ ∧ rows.Perm q.dueRows

/-- PIN_RESET: the straps latched, and the values of the reset tables (R2, R23, R36, R53, R73, R96, R121, R138, R161,
R174, R182, R192).
The model's choice: that `State.reset` is a pin reset with straps 0000 and 00 and ENG negated (log 6), that its queue of
waiting rows is empty (log 2), and that two fields of the model's own, which no reset table names, are clear: every fan's
`holdSpent` (log 27) and the port's `lapsed` (log 29). -/
def Obligations.PinResetValues : Prop :=
  ∀ (p : Part) (straps rate : Nat) (eng : Bool), straps < 16 → rate < 4 →
    ∃ q, Takes (.pinReset straps rate eng) p q ∧
      (q.own = straps + 1 ∧ q.strapRate.val = rate ∧ q.host.eng = eng ∧ q.now = 0 ∧ q.started = false) ∧
      (q.cfg = { zone := .none, airCeiling := false, fallback := 0, heatUpLimit := 65535, period := 1000, mixTime := 300 }) ∧
      (q.line.queue = [] ∧ q.line.phase = .idle ∧ q.line.assembly = [] ∧ q.line.receiver = .waiting ∧
        q.line.sequence = 0 ∧ q.line.counts = ⟨0, 0, 0, 0, 0, 0⟩ ∧ q.line.dupDeadline = none ∧
        q.line.txFail = false ∧ q.line.stuck = false ∧ q.line.silent = false ∧ q.line.statusDue = none ∧
        q.line.lastTry = false ∧ q.line.lastSent = none) ∧
      (∀ x : Fin 16, q.peers[x] =
        ⟨.absent, none, false, none, none, 0, ⟨false, false, false, false, false⟩⟩) ∧
      (∀ k : Fin 3, q.claims[k].state = .idle ∧ q.claims[k].user = none ∧ q.claims[k].waitList = [] ∧
        q.claims[k].settle = none ∧ q.claims[k].stagger = none ∧ q.claims[k].note = none ∧
        q.claims[k].claimant = none ∧ q.claims[k].reclaim = none ∧ q.claims[k].conflict = none ∧
        ∀ x : Fin 16, q.claims[k].released[x] = false) ∧
      (q.alloc.offered = false ∧ q.alloc.offer = 0 ∧ q.alloc.demand = 0 ∧ q.alloc.demandHeld = false ∧
        q.alloc.ceilState = .disabled ∧ q.alloc.airSum = 0 ∧ q.alloc.lastAir = 0 ∧ q.alloc.holdDeadline = none ∧
        q.alloc.ceiling = none ∧ q.alloc.dEff = 0 ∧ q.alloc.airLimited = false ∧ q.alloc.shortfall = false ∧
        q.alloc.capacity = 0 ∧ q.alloc.total = 0 ∧ q.alloc.sumS = 0 ∧ q.alloc.pPrev = 0 ∧ q.alloc.pOwn = 0 ∧
        q.alloc.target = 0 ∧ q.alloc.delivered = 0) ∧
      (∀ b : Fin 2, q.alloc.capB[b] = 0 ∧ q.alloc.frozen[b] = none ∧ q.alloc.targetB[b] = 0 ∧ q.alloc.deliveredB[b] = 0) ∧
      (∀ f : Fin 6, q.alloc.maxHeat[f] = 0 ∧ q.alloc.heatF[f] = 0 ∧ q.alloc.massF[f] = 0) ∧
      (q.mode = .stop ∧ ∀ b : Fin 2, q.burners[b].state = .off ∧ q.burners[b].flame = false ∧ q.burners[b].cont = none ∧
        q.burners[b].lightWait = none ∧ q.burners[b].ignition = none ∧ q.burners[b].proving = none ∧
        q.burners[b].loading = none ∧ q.burners[b].absent = none ∧ q.burners[b].weak = none ∧
        q.burners[b].heldStep = none ∧ q.burners[b].causePermit = false ∧ q.burners[b].causeConflict = false ∧
        q.burners[b].heldUntil = none ∧ q.burners[b].lightOffFail = false ∧ q.burners[b].flameFail = false ∧
        q.burners[b].cfg = ⟨false, 0, 0, 15, 3, 120, 2, 60, 300, false⟩) ∧
      (∀ i : Fin 8, q.fuel[i] = 0) ∧
      (∀ f : Fin 6, q.feeders[f].state = .unused ∧ q.feeders[f].mix = 0 ∧ q.feeders[f].setpoint = 0 ∧
        q.feeders[f].rampRem = 0 ∧ q.feeders[f].trim = 0 ∧ q.feeders[f].baseline = none ∧ q.feeders[f].bucket = 0 ∧
        q.feeders[f].ring = [] ∧ q.feeders[f].rate = 0 ∧ q.feeders[f].measBad = false ∧ q.feeders[f].gramRem = 0 ∧
        q.feeders[f].energyRem = 0 ∧ q.feeders[f].devTimer = none ∧ q.feeders[f].noFlow = none ∧
        q.feeders[f].kg = 0 ∧ q.feeders[f].kWh = 0 ∧ q.feeders[f].seconds = 0 ∧
        q.feeders[f].cfg = ⟨false, 0, 0, 0, 1, 100, 4, 0, 1000, 0, 1⟩) ∧
      (∀ b : Fin 2, q.ramps[b] = none) ∧
      (∀ n : Fin 4, q.fans[n].state = .unused ∧ q.fans[n].sp = 0 ∧ q.fans[n].lastGood = none ∧
        q.fans[n].heldFlow = none ∧ q.fans[n].holdUntil = none ∧ q.fans[n].holdSpent = false ∧
        q.fans[n].startUntil = none ∧ q.fans[n].fbLoss = none ∧
        q.fans[n].tripCond = false ∧ q.fans[n].startFail = false ∧ q.fans[n].contribution = 0 ∧
        q.fans[n].cfg = ⟨false, .secondary, 0, 0, 0, 65535, 0, 0, 30⟩) ∧
      (q.grate.state = .unused ∧ q.grate.psp = 5000 ∧ q.grate.fbLoss = none ∧ q.grate.bedHigh = none ∧
        q.grate.fault = false ∧ q.grate.cfg = ⟨false, 0, 1000, 0, 0, 20000, 5000, 20000⟩) ∧
      (q.air = ⟨0, 0, 0, 0⟩) ∧
      (∀ i : Fin 62, q.alarms.points[i] = ⟨.normal, false, none, none, none⟩) ∧
      (∀ n : Fin 16, q.alarms.ext[n] = ⟨false, ⟨.alarm, false, .none, false, 15⟩, .field, false⟩ ∧
        q.alarms.peerTrips[n] = none) ∧
      (q.alarms.tripSeq = 0 ∧ q.alarms.firstOut = none ∧ q.alarms.tripNew = false ∧
        q.alarms.seen = ⟨false, false, false, false⟩ ∧ q.alarms.autoResume = false ∧ q.alarms.horn = false ∧
        q.alarms.events = [] ∧ q.alarms.lost = 0 ∧ q.alarms.readPos = 0 ∧ q.alarms.readEmpty = false ∧
        q.alarms.raisedBy = none) ∧
      (q.shift.number = 0 ∧ q.shift.current = none ∧ q.shift.store = [] ∧ q.shift.pendingLoss = 0 ∧
        q.shift.closedCause = false) ∧
      (q.field.state = .failed ∧ q.field.badRun = 4 ∧ q.field.goodRun = 0 ∧ q.field.lastGood = none ∧
        q.field.scans = 0 ∧ q.field.crcErrors = 0 ∧ q.field.notReady = 0 ∧ q.field.failures = 0 ∧
        q.field.inFlight = false ∧ q.field.nextScan = 50 ∧ q.field.sentBlock.take 26 = .replicate 26 0 ∧
        q.field.output = .off) ∧
      (∀ f : Fin 6, q.field.image.pulses[f] = ⟨0, false⟩ ∧ q.field.image.inLocal[f] = ⟨false, false⟩ ∧
        q.field.image.running[f] = ⟨false, false⟩) ∧
      (∀ b : Fin 2, q.field.image.flame[b] = ⟨0, false⟩ ∧ q.field.image.permit[b] = ⟨false, false⟩) ∧
      (∀ n : Fin 4, q.field.image.flow[n] = ⟨0, false⟩ ∧ q.field.image.fanRun[n] = ⟨false, false⟩) ∧
      (q.field.image.bed = ⟨0, false⟩ ∧ q.field.image.grateRun = ⟨false, false⟩ ∧
        ∀ n : Fin 16, q.field.image.discrete[n] = ⟨false, false⟩) ∧
      (q.host.buffer = [] ∧ q.host.overLong = false ∧ q.host.inProgress = none ∧ q.host.overrun = false ∧ q.host.run = [] ∧
        q.host.ready = false ∧ q.host.enables = 0 ∧ q.host.window = none ∧ q.host.lapsed = false) ∧
      (State.reset.pending = [] ∧ Takes (.pinReset 0 0 false) p State.reset.part)

/-! ## Host port (chapter 11) -/

/-- Writes at the host port (R184, R189, R159): a command byte stored or the over-long mark set, the enables taken, location
3 ignored; SUBMIT empties the buffer into the command in progress, or refuses it with UNKNOWN or BAD LENGTH, or is itself
discarded with the overrun mark while a command is in progress. -/
def Obligations.HostPortWrites : Prop :=
  (∀ (p : Part) (b : Byte),
    (p.host.buffer.length < 64 →
      Takes (.commandByteWrite b) p { p with host := { p.host with buffer := p.host.buffer ++ [b] } }) ∧
    (64 ≤ p.host.buffer.length →
      Takes (.commandByteWrite b) p { p with host := { p.host with overLong := true } }) ∧
    (∃ e : BitVec 5, (∀ i < 5, e.getLsbD i = b.getLsbD i) ∧
      Takes (.interruptEnablesWrite b) p { p with host := { p.host with enables := e } }) ∧
    Takes (.eventWindowWrite b) p p) ∧
  (∀ p : Part,
    (p.host.inProgress.isSome = true → Takes .submit p { p with host := { p.host with overrun := true } }) ∧
    (p.host.inProgress = none →
      (p.host.buffer = [] → Takes .submit p (Part.answer 0 .unknown []
        { p with host := { p.host with buffer := [], overLong := false } })) ∧
      ∀ (c : Byte) (operands : List Byte), p.host.buffer = c :: operands →
        (operandCount c.toNat = none → Takes .submit p (Part.answer c.toNat .unknown []
          { p with host := { p.host with buffer := [], overLong := false } })) ∧
        ∀ n, operandCount c.toNat = some n →
          (p.host.overLong = true ∨ operands.length ≠ n → Takes .submit p (Part.answer c.toNat .badLength []
            { p with host := { p.host with buffer := [], overLong := false } })) ∧
          (p.host.overLong = false → operands.length = n →
            Takes .submit p { p with host := { p.host with
              buffer := [], overLong := false, inProgress := some (c :: operands) } })))

/-- RESPONSE_BYTE_READ (R185, R186): the byte at the read position, which advances; the first byte read clears response
ready; 00h while a command is in progress or past the end. -/
def Obligations.ResponseByteReadOut : Prop :=
  ∀ p : Part,
    (∀ b, p.host.inProgress = none → p.host.run[p.host.readPos]? = some b →
      Takes .responseByteRead p { p with host := { p.host with
        dataOut := b, readPos := p.host.readPos + 1,
        ready := if p.host.readPos = 0 then false else p.host.ready } }) ∧
    (p.host.inProgress.isSome = true ∨ p.host.run.length ≤ p.host.readPos →
      Takes .responseByteRead p { p with host := { p.host with dataOut := 0 } })

/-- EVENT_WINDOW_READ (R158, R159): eleven reads give the eleven bytes of the oldest entry; the last removes it and, if
events were lost, puts an OVERFLOW entry with their count at the end. Of an empty queue eleven reads give 00h and
remove nothing. -/
def Obligations.EventWindowElevenReads : Prop :=
  ∀ p : Part, p.alarms.readPos = 0 →
    ∃ q : Nat → Part, q 0 = p ∧
      (∀ n < 11, Takes .eventWindowRead (q n) (q (n + 1)) ∧ ((q (n + 1)).alarms.readPos = (n + 1) % 11)) ∧
      (∀ e es, p.alarms.events = e :: es →
        e.bytes.length = 11 ∧
        (∀ n < 11, (q (n + 1)).host.dataOut = e.bytes.getD n 0 ∧ (n < 10 → (q (n + 1)).alarms.events = e :: es)) ∧
        (q 11).alarms.lost = 0 ∧
        (q 11).alarms.events =
          if p.alarms.lost = 0 then es else es ++ [⟨.overflow, 0, p.alarms.lost, false, p.now, 0, none⟩]) ∧
      (p.alarms.events = [] →
        (∀ n < 11, (q (n + 1)).host.dataOut = 0) ∧ (q 11).alarms.events = [] ∧ (q 11).alarms.lost = p.alarms.lost)

/-- Location 2 and INT (R188): the identification is that of the first cause, in the order TRIP NEW, EVENTS, SHIFT
CLOSED, PEER CHANGE, RESPONSE READY, that is pending with its enable set, 0 for none; INT is asserted while there is
one. -/
def Obligations.IdentificationIsHighestCause : Prop :=
  ∀ p : Part, ∃ pending : Fin 5 → Bool,
    (pending 0 = p.alarms.tripNew ∧ pending 1 = !p.alarms.events.isEmpty ∧ pending 2 = p.shift.closedCause ∧
      pending 3 = p.changeSummary.any id ∧ pending 4 = p.host.ready) ∧
    (∀ i : Fin 5, p.identification = i.val + 1 ↔
      (pending i && p.host.enables.getLsbD i.val) = true ∧
        ∀ j < i, (pending j && p.host.enables.getLsbD j.val) = false) ∧
    (p.identification = 0 ↔ ∀ i : Fin 5, (pending i && p.host.enables.getLsbD i.val) = false) ∧
    (p.intAsserted = true ↔ p.identification ≠ 0)

/-- The bytes of a command and the row they spell (R201, 11.7): a well-formed row with a command code has bytes that pass
the form check of R184 and are taken as that row. -/
def Obligations.CommandBytesSpellTheirRow : Prop :=
  ∀ (i : Instr) (bytes : List Byte), i.wellFormed = true → i.spelling = some bytes →
    formCode false bytes = none ∧ hostCommand i.engLevel bytes = some i

/-! ## Configuration, station start (chapter 11) -/

/-- Configuration is taken only while UNSTARTED: while STARTED every configuration command is refused with WRONG
LIFECYCLE, whatever its operands, and nothing but the response changes (R76, R97, R99, R122, R132, R149, R193). -/
def Obligations.ConfigureOnlyWhileUnstarted : Prop :=
  ∀ p : Part, p.started = true →
    (∀ z a fb hu per mt, Takes (.configureStation z a fb hu per mt) p (p.answer 0x10 .wrongLifecycle [])) ∧
    (∀ b u f r ig pr ld ff th hl ar,
      Takes (.configureBurner b u f r ig pr ld ff th hl ar) p (p.answer 0x29 .wrongLifecycle [])) ∧
    (∀ i cv, Takes (.configureFuel i cv) p (p.answer 0x30 .wrongLifecycle [])) ∧
    (∀ f u b fu mn mx rr w kt dl im pw,
      Takes (.configureFeeder f u b fu mn mx rr w kt dl im pw) p (p.answer 0x33 .wrongLifecycle [])) ∧
    (∀ n u d bf ap mn mx af kf st,
      Takes (.configureFan n u d bf ap mn mx af kf st) p (p.answer 0x38 .wrongLifecycle [])) ∧
    (∀ u mn mx kg lo hi ini hp,
      Takes (.configureGrate u mn mx kg lo hi ini hp) p (p.answer 0x3C .wrongLifecycle [])) ∧
    (∀ n u c l b lw m s,
      Takes (.configureExternalPoint n u c l b lw m s) p (p.answer 0x4D .wrongLifecycle []))

/-- CONFIGURE STATION (R193, R30): items within their ranges are taken; a LIVE entry whose aging deadline has passed by
the new status period becomes LOST; items outside are refused. -/
def Obligations.ConfigureStationTaken : Prop :=
  ∀ (p : Part) (z a fb hu per mt : Nat), p.started = false →
    (z ≤ 2 ∧ a ≤ 1 ∧ fb ≤ 65535 ∧ hu ≤ 65535 ∧ (per = 250 ∨ per = 500 ∨ per = 1000) ∧ 60 ≤ mt ∧ mt ≤ 1800 →
      ∃ q, Takes (.configureStation z a fb hu per mt) p q ∧
        q.cfg.zone.code = z ∧ q.cfg.airCeiling = decide (a = 1) ∧ q.cfg.fallback = fb ∧ q.cfg.heatUpLimit = hu ∧
        q.cfg.period = per ∧ q.cfg.mixTime = mt ∧ q.host = p.host.answered 0x10 .done [] ∧
        ∀ x : Fin 16,
          (∀ t, x ≠ p.strapStation → p.peers[x].state = .live → p.peers[x].lastTime = some t →
            reached p.now (later t (4 * per)) = true → q.peers[x] =
              { p.peers[x] with state := .lost, stale := p.peers[x].stale || p.peers[x].contents.isSome,
                                flags := { p.peers[x].flags with lost := true } }) ∧
          (∀ t, p.peers[x].lastTime = some t → reached p.now (later t (4 * per)) = false → q.peers[x] = p.peers[x]) ∧
          (x = p.strapStation ∨ p.peers[x].state ≠ .live → q.peers[x] = p.peers[x])) ∧
    (¬ (z ≤ 2 ∧ a ≤ 1 ∧ fb ≤ 65535 ∧ hu ≤ 65535 ∧ (per = 250 ∨ per = 500 ∨ per = 1000) ∧ 60 ≤ mt ∧ mt ≤ 1800) →
      Takes (.configureStation z a fb hu per mt) p (p.answer 0x10 .badOperand []))

/-- CONFIGURE FUEL and the fuel table (R97): the table after pin reset and over RESTART STATION, the command's checks and
its effect, and the range of every entry, which no step leaves. -/
def Obligations.ConfigureFuelWritesEntry : Prop :=
  (∀ (p q : Part) straps rate eng, Takes (.pinReset straps rate eng) p q → ∀ i : Fin 8, q.fuel[i] = 0) ∧
  (∀ p q : Part, Takes .restartStation p q → q.fuel = p.fuel) ∧
  (∀ (p : Part) (k cv : Nat),
    (p.started = true → Takes (.configureFuel k cv) p (p.answer 0x30 .wrongLifecycle [])) ∧
    (p.started = false → 8 ≤ k → Takes (.configureFuel k cv) p (p.answer 0x30 .badOperand [])) ∧
    (p.started = false → ¬ cvInRange cv → Takes (.configureFuel k cv) p (p.answer 0x30 .badOperand [])) ∧
    (∀ i : Fin 8, p.started = false → cvInRange cv →
      Takes (.configureFuel i.val cv) p (Part.answer 0x30 .done [] { p with fuel := p.fuel.set i cv }))) ∧
  (∀ s t : State, (∀ i : Fin 8, cvInRange s.part.fuel[i]) → step s = .next t → ∀ i : Fin 8, cvInRange t.part.fuel[i])

/-- CONFIGURE BURNER and CONFIGURE FEEDER (R76, R99, R100): items within their ranges become the configuration; a feeder's
mix takes the initial mix and its state is STOPPED or UNUSED; anything outside is refused. -/
def Obligations.ConfigureBurnerAndFeeder : Prop :=
  ∀ p : Part, p.started = false →
    (∀ n u f r ig pr ld ff th hl ar : Nat,
      (∀ (b : Fin 2) (g : Fin 6), b.val = n → g.val = f → u ≤ 1 ∧ r ≤ 65000 ∧ 5 ≤ ig ∧ ig ≤ 60 ∧ 1 ≤ pr ∧ pr ≤ 10 ∧
          30 ≤ ld ∧ ld ≤ 600 ∧ 1 ≤ ff ∧ ff ≤ 5 ∧ 20 ≤ th ∧ th ≤ 235 ∧ 60 ≤ hl ∧ hl ≤ 3600 ∧ ar ≤ 1 →
        Takes (.configureBurner n u f r ig pr ld ff th hl ar) p (Part.answer 0x29 .done []
          { p with burners := p.burners.set b (
              { p.burners[b] with cfg := ⟨decide (u = 1), g, r, ig, pr, ld, ff, th, hl, decide (ar = 1)⟩ }) })) ∧
      (¬ (n ≤ 1 ∧ f ≤ 5 ∧ u ≤ 1 ∧ r ≤ 65000 ∧ 5 ≤ ig ∧ ig ≤ 60 ∧ 1 ≤ pr ∧ pr ≤ 10 ∧ 30 ≤ ld ∧ ld ≤ 600 ∧ 1 ≤ ff ∧
          ff ≤ 5 ∧ 20 ≤ th ∧ th ≤ 235 ∧ 60 ≤ hl ∧ hl ≤ 3600 ∧ ar ≤ 1) →
        Takes (.configureBurner n u f r ig pr ld ff th hl ar) p (p.answer 0x29 .badOperand []))) ∧
    (∀ n u b fu mn mx rr w kt dl im pw : Nat,
      (∀ (f : Fin 6) (c : Fin 2) (i : Fin 8), f.val = n → c.val = b → i.val = fu → u ≤ 1 ∧ mn ≤ 65000 ∧ 1 ≤ mx ∧
          mx ≤ 65000 ∧ mn ≤ mx ∧ 1 ≤ rr ∧ rr ≤ 5000 ∧ 2 ≤ w ∧ w ≤ 10 ∧ kt ≤ 100 ∧ dl ≤ 65000 ∧ im ≤ 1000 ∧ 1 ≤ pw ∧
          pw ≤ 10000 →
        Takes (.configureFeeder n u b fu mn mx rr w kt dl im pw) p (Part.answer 0x33 .done []
          { p with feeders := p.feeders.set f (
              { p.feeders[f] with cfg := ⟨decide (u = 1), c, i, mn, mx, rr, w, kt, dl, im, pw⟩, mix := im,
                                  state := if u = 1 then .stopped else .unused }) })) ∧
      (¬ (n ≤ 5 ∧ b ≤ 1 ∧ fu ≤ 7 ∧ u ≤ 1 ∧ mn ≤ 65000 ∧ 1 ≤ mx ∧ mx ≤ 65000 ∧ mn ≤ mx ∧ 1 ≤ rr ∧ rr ≤ 5000 ∧ 2 ≤ w ∧
          w ≤ 10 ∧ kt ≤ 100 ∧ dl ≤ 65000 ∧ im ≤ 1000 ∧ 1 ≤ pw ∧ pw ≤ 10000) →
        Takes (.configureFeeder n u b fu mn mx rr w kt dl im pw) p (p.answer 0x33 .badOperand [])))

/-- CONFIGURE FAN and CONFIGURE GRATE (R122, R123, R132, R133, R136): ranges, items taken, STOPPED when used, and the FAN or
GRATE event of a change between UNUSED and STOPPED, whose value is the new state; nothing else. -/
def Obligations.ConfigureFanAndGrate : Prop :=
  ∀ p : Part, p.started = false →
    (∀ k u d bf ap mn mx af kf st : Nat,
      (∀ (n : Fin 4) (dest : Destination), n.val = k → dest.code = d → u ≤ 1 ∧ bf ≤ 65535 ∧ ap ≤ 255 ∧ mn ≤ 65535 ∧
          mx ≤ 65535 ∧ mn ≤ mx ∧ af ≤ 255 ∧ kf ≤ 255 ∧ 5 ≤ st ∧ st ≤ 120 →
        let state : FanState := if u = 1 then .stopped else .unused
        let q := { p with fans := p.fans.set n (
          { p.fans[n] with cfg := ⟨decide (u = 1), dest, bf, ap, mn, mx, af, kf, st⟩, state := state }) }
        Takes (.configureFan k u d bf ap mn mx af kf st) p (Part.answer 0x38 .done []
          (if p.fans[n].state = state then q else q.withEvent ⟨.fan, k, u, false, p.now, 0, none⟩))) ∧
      (¬ (k ≤ 3 ∧ d ≤ 2 ∧ u ≤ 1 ∧ bf ≤ 65535 ∧ ap ≤ 255 ∧ mn ≤ 65535 ∧ mx ≤ 65535 ∧ mn ≤ mx ∧ af ≤ 255 ∧ kf ≤ 255 ∧
          5 ≤ st ∧ st ≤ 120) →
        Takes (.configureFan k u d bf ap mn mx af kf st) p (p.answer 0x38 .badOperand []))) ∧
    (∀ u mn mx kg lo hi ini hp : Nat,
      (u ≤ 1 ∧ mn ≤ 1000 ∧ mx ≤ 1000 ∧ mn ≤ mx ∧ kg ≤ 255 ∧ lo ≤ 20000 ∧ hi ≤ 20000 ∧ lo ≤ hi ∧ lo ≤ ini ∧ ini ≤ hi ∧
          hp ≤ 20000 →
        let state : GrateState := if u = 1 then .stopped else .unused
        let q := { p with grate := { p.grate with
          cfg := ⟨decide (u = 1), mn, mx, kg, lo, hi, ini, hp⟩, psp := ini, state := state } }
        Takes (.configureGrate u mn mx kg lo hi ini hp) p (Part.answer 0x3C .done []
          (if p.grate.state = state then q else q.withEvent ⟨.grate, 0, u, false, p.now, 0, none⟩))) ∧
      (¬ (u ≤ 1 ∧ mn ≤ 1000 ∧ mx ≤ 1000 ∧ mn ≤ mx ∧ kg ≤ 255 ∧ lo ≤ 20000 ∧ hi ≤ 20000 ∧ lo ≤ hi ∧ lo ≤ ini ∧
          ini ≤ hi ∧ hp ≤ 20000) →
        Takes (.configureGrate u mn mx kg lo hi ini hp) p (p.answer 0x3C .badOperand [])))

/-- CONFIGURE EXTERNAL POINT (R149): a TRIP point must be latching and bound, a point of another class neither line-wide
nor bound; what is taken is the configuration, with the condition inactive (the model's choice, log 13). -/
def Obligations.ConfigureExternalPoint : Prop :=
  ∀ (p : Part) (k u c l b lw m s : Nat), p.started = false →
    (∀ (n : Fin 16) (cls : AlarmClass) (bd : Binding), n.val = k → cls.code = c → bd.code = b →
      u ≤ 1 ∧ l ≤ 1 ∧ lw ≤ 1 ∧ m ≤ 15 ∧ s ≤ 1 → (c = 0 → l = 1 ∧ b ≠ 0) → (c ≠ 0 → lw = 0 ∧ b = 0) →
      Takes (.configureExternalPoint k u c l b lw m s) p (Part.answer 0x4D .done []
        { p with alarms := { p.alarms with ext := p.alarms.ext.set n (
            .mk (decide (u = 1)) ⟨cls, decide (l = 1), bd, decide (lw = 1), BitVec.ofNat 4 m⟩
              (if s = 0 then .field else .host) false) } })) ∧
    (¬ (k ≤ 15 ∧ u ≤ 1 ∧ c ≤ 3 ∧ l ≤ 1 ∧ b ≤ 3 ∧ lw ≤ 1 ∧ m ≤ 15 ∧ s ≤ 1 ∧ (c = 0 → l = 1 ∧ b ≠ 0) ∧
        (c ≠ 0 → lw = 0 ∧ b = 0)) →
      Takes (.configureExternalPoint k u c l b lw m s) p (p.answer 0x4D .badOperand []))

/-- START STATION, its checks in their order (R194): lifecycle, duplicate, then the four configuration checks, each
answered with its number and the lowest object that fails it. -/
def Obligations.StartStationChecks : Prop :=
  ∀ p : Part,
    (p.started = true → Takes .startStation p (p.answer 0x11 .wrongLifecycle [])) ∧
    (p.started = false → p.line.dupDeadline.isSome = true → Takes .startStation p (p.answer 0x11 .duplicate [])) ∧
    (p.started = false → p.line.dupDeadline = none →
      let stray := fun f : Fin 6 => p.feeders[f].cfg.used = true ∧ p.burners[p.feeders[f].cfg.burner].cfg.used = false
      let unlit := fun b : Fin 2 => p.burners[b].cfg.used = true ∧ p.burners[b].cfg.feeder ∉ p.feedersOf b
      let unmixed := fun b : Fin 2 => p.burners[b].cfg.used = true ∧
        sumOver (p.feedersOf b) (fun f => p.feeders[f].mix) ≠ 1000
      let zoneless := fun b : Fin 2 => p.burners[b].cfg.used = true ∧ p.cfg.zone = .none
      (∀ f, stray f → (∀ g < f, ¬ stray g) →
        Takes .startStation p (p.answer 0x11 .wrongState [1, byteOf f.val])) ∧
      ((∀ f, ¬ stray f) →
        (∀ b, unlit b → (∀ c < b, ¬ unlit c) → Takes .startStation p (p.answer 0x11 .wrongState [2, byteOf b.val])) ∧
        ((∀ b, ¬ unlit b) →
          (∀ b, unmixed b → (∀ c < b, ¬ unmixed c) →
            Takes .startStation p (p.answer 0x11 .wrongState [3, byteOf b.val])) ∧
          ((∀ b, ¬ unmixed b) →
            ∀ b, zoneless b → (∀ c < b, ¬ zoneless c) →
              Takes .startStation p (p.answer 0x11 .wrongState [4, byteOf b.val])))))

/-- START STATION taken (R195, R169, R20, R34, R35, R55, R61, R62, R74, R96, R100, R123, R133, R141, R145, R155): STARTED in
STOP, the first shift record open and INCOMPLETE under the highest shift number known, a STATUS queued and the status period
begun, the own entry LIVE and an own offer counted in the demand source, the first evaluation made on the state it leaves,
its ceiling state from the air at start, burners OFF, feeders, fans and grate STOPPED where used, the two periods due at
their next instants, every condition found, and AUTO-RESUME set unless a latching point was activated by it; a TRIP activated
so stands in the new record.
That the evaluation is found again at the end of the event is deduced (log 1); that a running fan count above 4 in a peer's
contents makes air known is the model's choice (log 34), and so is that the first feeder control period is due after the
instant of the command, where that is itself a whole multiple of 0.2 s (log 38). -/
def Obligations.StartStationStarts : Prop :=
  ∀ p : Part, p.started = false → p.line.dupDeadline = none → p.startRefusal = none →
    ∃ q, Takes .startStation p q ∧ q.started = true ∧ q.mode = .stop ∧ q.host = p.host.answered 0x11 .done [] ∧
      q.shift.number = max p.highestShift p.shift.number ∧ q.shift.pendingLoss = 0 ∧
      (∃ r, q.shift.current = some r ∧ r.number = max p.highestShift p.shift.number ∧ r.origin = .start ∧
        r.openTime = p.now ∧ r.closeTime = none ∧ r.incomplete = true ∧ r.unreadLost = p.shift.pendingLoss ∧
        r.note = none) ∧
      q.line.statusDue = some (later p.now p.cfg.period) ∧
      (p.line.silent = false → p.line.queue.length < 8 → ∃ f ∈ q.line.queue, f.body = .status) ∧
      (q.peers = p.peers ∧ q.ownEntry.state = .live ∧ q.demandSource =
        if p.cfg.zone = .none then none
        else stations.find? fun x => if x = p.strapStation then p.alloc.offered else p.offers x) ∧
      (p.cfg.zone ≠ .none → q.alloc = q.evaluated ∧
        (∀ x, q.demandSource = some x → q.alloc.demand = q.offeredBy x ∧ q.alloc.demandHeld = false) ∧
        (q.demandSource = none → q.alloc.demand = p.alloc.demand ∧ q.alloc.demandHeld = true) ∧
        (p.cfg.airCeiling = false → q.alloc.ceilState = .disabled ∧ q.alloc.ceiling = none) ∧
        (p.cfg.airCeiling = true → q.airKnown = true → q.alloc.ceilState = .air ∧ q.alloc.ceiling = some q.airSum) ∧
        (p.cfg.airCeiling = true → q.airKnown = false → p.alloc.ceilState = .disabled →
          q.alloc.ceilState = .fallback ∧ q.alloc.ceiling = some p.cfg.fallback)) ∧
      (∀ b : Fin 2, q.burners[b] = p.burners[b].cleared .off) ∧
      (∀ f : Fin 6, q.feeders[f].state = (if p.feeders[f].cfg.used then .stopped else .unused) ∧
        q.feeders[f].setpoint = 0 ∧ q.feeders[f].ring = [] ∧ q.feeders[f].bucket = 0 ∧ q.feeders[f].baseline = none ∧ q.feeders[f].rate = 0 ∧
        q.feeders[f].kg = p.feeders[f].kg ∧ q.feeders[f].kWh = p.feeders[f].kWh) ∧
      (∀ n : Fin 4, q.fans[n].state = (if p.fans[n].cfg.used then .stopped else .unused)) ∧
      q.grate.state = (if p.grate.cfg.used then .stopped else .unused) ∧ q.grate.bedHigh = p.grate.bedHigh ∧
      q.air = ⟨0, 0, 0, 0⟩ ∧
      q.nextFeeder = nextMultiple p.now 200 ∧ q.nextCool = nextMultiple p.now 1000 ∧
      (∀ i : Fin 62, q.alarms.points[i].eff = q.effective i ∧
        (q.effective i = true → p.alarms.points[i].eff = false → p.alarms.points[i].state = .normal →
          p.alarms.points[i].shelvedUntil = none →
          q.alarms.points[i].state = .active ∧ q.alarms.points[i].lastActivation = some p.now ∧
          ((p.pointAttr i).latching = true → q.alarms.autoResume = false) ∧
          ((p.pointAttr i).cls = .trip → ∀ r, q.shift.current = some r → r.firstTrip ≠ none))) ∧
      ((∀ i : Fin 62, q.effective i = true → (p.pointAttr i).latching = false) → q.alarms.autoResume = true)

/-- RESTART STATION (R24, R53, R73, R96, R118, R121, R138, R150, R161, R170, R189, R196): each block by its own rule; the
transmit queue keeps only the attempt in hand, which gets no retry, with the restart releases behind it unless SILENT;
feeders, fans and grate are stopped with nothing measured, and a mix ramp leaves its target mix.
That a failed attempt is in hand until its break has ended is the model's choice (log 21). -/
def Obligations.RestartStationClears : Prop :=
  ∀ p : Part,
    (p.started = false → Takes .restartStation p (p.answer 0x12 .wrongLifecycle [])) ∧
    (p.started = true → ∃ q, Takes .restartStation p q ∧ q.started = false ∧ q.mode = .stop ∧
      q.host = { p.host.answered 0x12 .done [] with enables := 0 } ∧
      (q.line.silent = false ∧ q.line.txFail = false ∧ q.line.statusDue = none ∧ q.line.sequence = p.line.sequence ∧
        (∀ h t, p.line.phase ≠ .idle → p.line.queue = h :: t →
          q.line.queue.head? = some h ∧ q.line.lastTry = true ∧ q.line.phase = p.line.phase) ∧
        q.line.queue.map TxFrame.body =
          (if p.line.phase = .idle then [] else p.line.queue.take 1).map TxFrame.body ++
          (if p.line.silent = true then [] else
            (resourceIds.filter fun k => p.claims[k].state = .held ∨ p.claims[k].state = .claiming).map .release)) ∧
      (∀ k : Fin 3, q.claims[k].state = .idle ∧ q.claims[k].user = none ∧ q.claims[k].waitList = [] ∧
        q.claims[k].reclaim = none ∧ q.claims[k].conflict = none ∧ q.claims[k].claimant = p.claims[k].claimant ∧
        q.claims[k].released = p.claims[k].released) ∧
      q.alloc = .reset ∧ q.peers = p.peers ∧ q.cfg = p.cfg ∧ q.fuel = p.fuel ∧
      (∀ b : Fin 2, q.burners[b] = p.burners[b].cleared .off ∧ q.ramps[b] = none) ∧
      (∀ f : Fin 6, q.feeders[f].state = (if p.feeders[f].cfg.used then .stopped else .unused) ∧
        q.feeders[f].cfg = p.feeders[f].cfg ∧ q.feeders[f].kg = p.feeders[f].kg ∧
        q.feeders[f].kWh = p.feeders[f].kWh ∧ q.feeders[f].seconds = p.feeders[f].seconds ∧
        q.feeders[f].setpoint = 0 ∧ q.feeders[f].rampRem = 0 ∧ q.feeders[f].trim = 0 ∧ q.feeders[f].ring = [] ∧
        q.feeders[f].baseline = none ∧ q.feeders[f].rate = 0 ∧ q.feeders[f].measBad = false ∧
        q.feeders[f].devTimer = none ∧ q.feeders[f].noFlow = none ∧
        (∀ r, p.feeders[f].cfg.used = true → p.ramps[p.feeders[f].cfg.burner] = some r →
          q.feeders[f].mix = r.target[f]) ∧
        (p.feeders[f].cfg.used = false ∨ p.ramps[p.feeders[f].cfg.burner] = none →
          q.feeders[f].mix = p.feeders[f].mix)) ∧
      (∀ n : Fin 4, q.fans[n].state = (if p.fans[n].cfg.used then .stopped else .unused) ∧
        q.fans[n].lastGood = none ∧ q.fans[n].heldFlow = none ∧ q.fans[n].startUntil = none ∧
        q.fans[n].fbLoss = none ∧ q.fans[n].cfg = p.fans[n].cfg ∧ q.fans[n].sp = p.fans[n].sp) ∧
      (q.grate.state = (if p.grate.cfg.used then .stopped else .unused) ∧ q.grate.cfg = p.grate.cfg ∧
        q.grate.psp = p.grate.psp ∧ q.grate.fbLoss = none ∧ q.grate.bedHigh = none) ∧ q.air = ⟨0, 0, 0, 0⟩ ∧
      (∀ i : Fin 62, q.alarms.points[i].state = .normal ∧ q.alarms.points[i].shelvedUntil = none) ∧
      (∀ n : Fin 16, q.alarms.ext[n].attr = p.alarms.ext[n].attr ∧
        (p.alarms.ext[n].source = .host → q.alarms.ext[n].cond = false)) ∧
      (q.alarms.firstOut = none ∧ q.alarms.tripNew = false ∧ q.alarms.autoResume = false ∧ q.alarms.events = [] ∧
        q.alarms.lost = 0 ∧ q.alarms.horn = false ∧ q.alarms.peerTrips = p.alarms.peerTrips ∧
        q.alarms.tripSeq = p.alarms.tripSeq) ∧
      (q.shift.number = p.shift.number ∧ q.shift.current = none ∧
        ∀ r, p.shift.current = some r →
          q.shift.store.head? = some ({ r with closeTime := some p.now, restarted := true }, false) ∧
          q.shift.closedCause = true) ∧
      q.field.output = .off ∧ q.field.image = p.field.image ∧ q.field.state = p.field.state)

/-! ## Engineering (R190, R191) -/

/-- The engineering window (R190, R191): OPEN and CLOSE ENGINEERING, ENGINEERING_DEADLINE, ENG_NEGATED, and LOCKED before any
other check of the five engineering commands while it is CLOSED (R98, R119, R148, R153).
A command that is taken first as the deadline passes, and renews it, leaves a deadline that the closing then removes.
That OPEN ENGINEERING with ENG negated, answered LOCKED, also closes a window that stands OPEN and notes the level is the
model's choice (log 17, 6), and so is the mark `lapsed` that keeps such a closing, and that an OPEN ENGINEERING sets it as an
engineering command does (log 29). A row whose instant lies ahead changes nothing (`TakesAt`, the model's choice, log 3). -/
def Obligations.EngineeringWindow : Prop :=
  (∀ p : Part,
    (p.host.window = none → Takes (.openEngineering true) p
      { p with shift := { p.shift with current := p.shift.current.map fun r => { r with engineering := true } },
               host := { p.host.answered 0x14 .done [] with eng := true, window := some (later p.now 900000) } }) ∧
    (∀ t, p.host.window = some t → Takes (.openEngineering true) p
      { p with host := { p.host.answered 0x14 .done [] with
          eng := true, window := some (later p.now 900000), lapsed := p.host.lapsed || reached p.now t } }) ∧
    Takes (.openEngineering false) p
      { p with host := { p.host.answered 0x14 .locked [] with eng := false, window := none, lapsed := false } } ∧
    (p.host.window.isSome = true → Takes .closeEngineering p
      { p with host := { p.host.answered 0x15 .done [] with window := none, lapsed := false } }) ∧
    (p.host.window = none → Takes .closeEngineering p (p.answer 0x15 .wrongState [])) ∧
    (∀ t, p.host.window = some t → p.host.lapsed = false → TakesAt .engineeringDeadline t p fun q =>
      q = { p with host := { p.host with window := none, lapsed := false } }) ∧
    (p.host.window.isSome = true → p.host.lapsed = true → Takes .engineeringDeadline p
      { p with host := { p.host with window := none, lapsed := false } }) ∧
    (∀ (t : Time) (q : Part) (cmd : Nat), p.host.window = some t → reached p.now t = true → q.now = p.now →
      q.host = p.host.renewed cmd p.now → Takes .engineeringDeadline q
        { q with host := { q.host with window := none, lapsed := false } }) ∧
    (p.host.window = none → Takes .engineeringDeadline p p) ∧
    Takes .engNegated p { p with host := { p.host with eng := false, window := none, lapsed := false } }) ∧
  (∀ p : Part, p.host.window = none →
    (∀ i cv, Takes (.writeFuel i cv) p (p.answer 0x31 .locked [])) ∧
    (∀ f w, Takes (.writePulseWeight f w) p (p.answer 0x35 .locked [])) ∧
    (∀ i m, Takes (.shelve i m) p (p.answer 0x4B .locked [])) ∧
    (∀ i, Takes (.unshelve i) p (p.answer 0x4C .locked [])) ∧
    (∀ x, Takes (.discardPeerTrip x) p (p.answer 0x50 .locked [])))

/-- WRITE FUEL and WRITE PULSE WEIGHT with the window OPEN (R98, R119): their checks, the entry or weight taken, the
evaluation by the new CV, the rate formed anew from the ring, and CALIBRATION CHANGED of the open record.
The renewal of the deadline (R190) keeps in `lapsed`, the model's own mark, whether it had passed (log 29). -/
def Obligations.CalibrationWrites : Prop :=
  ∀ p : Part, p.host.window.isSome = true →
    (∀ k cv, 8 ≤ k ∨ ¬ cvInRange cv → Takes (.writeFuel k cv) p (p.answer 0x31 .badOperand [])) ∧
    (∀ (i : Fin 8) (cv : Nat), cvInRange cv → ∃ q, Takes (.writeFuel i.val cv) p q ∧
      q.fuel = p.fuel.set i cv ∧ q.host = p.host.renewed 0x31 p.now ∧
      (∀ r, p.shift.current = some r → ∃ r', q.shift.current = some r' ∧ r'.calibration = true) ∧
      (p.started = true → p.cfg.zone ≠ .none → ∀ f : Fin 6, p.feeders[f].cfg.used = true → p.feeders[f].cfg.fuel = i →
        q.alloc.maxHeat[f] = satAt 65535 (roundHalfUp (p.feeders[f].cfg.maxRate * cv) 36000))) ∧
    (∀ k w, 6 ≤ k → Takes (.writePulseWeight k w) p (p.answer 0x35 .badOperand [])) ∧
    (∀ (f : Fin 6) (w : Nat),
      (p.feeders[f].cfg.used = false → Takes (.writePulseWeight f.val w) p (p.answer 0x35 .unusedObject [])) ∧
      (p.feeders[f].cfg.used = true → w = 0 ∨ 10000 < w →
        Takes (.writePulseWeight f.val w) p (p.answer 0x35 .badOperand [])) ∧
      (p.feeders[f].cfg.used = true → 1 ≤ w → w ≤ 10000 →
        Takes (.writePulseWeight f.val w) p
          { p with
            feeders := p.feeders.set f (
              { p.feeders[f] with cfg := { p.feeders[f].cfg with weight := w },
                                  rate := if p.started = true ∧ p.feeders[f].measBad = false ∧ p.feeders[f].ring ≠ [] then
                                      satAt 65000 (roundHalfUp (p.feeders[f].ring.sum * w * 3600)
                                        (1000 * p.feeders[f].ring.length))
                                    else p.feeders[f].rate }),
            shift := { p.shift with current := p.shift.current.map fun r => { r with calibration := true } },
            host := p.host.renewed 0x35 p.now }))

/-! ## Reads -/

/-- The read commands (R22, R32, R33, R52, R72, R95, R120, R137, R154, R155, R160, R172, R181, R197): their data, and what four
of them clear: change flags shown, TRIP NEW, the unread mark and SHIFT CLOSED; an object out of range is a BAD OPERAND.
The data are those of the model's definitions, whose layouts, widths and codes the spec leaves open in part (the model's
choice, log 12, 31), whose times left and run drop the fraction of a tenth (the model's choice, log 23), and whose output
block of READ FIELD is that of the last scan started (the model's choice, log 35). -/
def Obligations.ReadCommands : Prop :=
  (∀ p : Part,
    Takes .readStation p (p.answer 0x13 .done p.stationData) ∧
    Takes .readLineStatus p (p.answer 0x18 .done p.lineStatusData) ∧
    Takes .readPeerChanges p (p.answer 0x19 .done p.peerChangesData) ∧
    Takes .readResources p (p.answer 0x1B .done p.resourcesData) ∧
    Takes .readAllocation p (p.answer 0x22 .done p.allocationData) ∧
    Takes .readFuelTable p (p.answer 0x32 .done p.fuelData) ∧
    Takes .readCooler p (p.answer 0x40 .done p.coolerData) ∧
    Takes .readSummary p (p.answer 0x53 .done p.summaryData) ∧
    Takes .readPointStates p (p.answer 0x57 .done p.pointStatesData) ∧
    Takes .readField p (p.answer 0x60 .done p.field.data) ∧
    (∀ b : Fin 2, Takes (.readBurner b.val) p (p.answer 0x2E .done (p.burnerData b))) ∧
    (∀ f : Fin 6, Takes (.readFeeder f.val) p (p.answer 0x36 .done (p.feederData f))) ∧
    (∀ i : Fin 62, Takes (.readPoint i.val) p (p.answer 0x56 .done (p.pointData i))) ∧
    (∀ k, 2 ≤ k → Takes (.readBurner k) p (p.answer 0x2E .badOperand [])) ∧
    (∀ k, 6 ≤ k → Takes (.readFeeder k) p (p.answer 0x36 .badOperand [])) ∧
    (∀ k, 62 ≤ k → Takes (.readPoint k) p (p.answer 0x56 .badOperand []))) ∧
  (∀ p : Part,
    (∀ k, k = 0 ∨ 16 < k → Takes (.readPeerEntry k) p (p.answer 0x1A .badOperand [])) ∧
    (∀ x : Fin 16,
      (x = p.strapStation → Takes (.readPeerEntry (x.val + 1)) p (p.answer 0x1A .done p.ownEntry.data)) ∧
      (x ≠ p.strapStation → Takes (.readPeerEntry (x.val + 1)) p (Part.answer 0x1A .done p.peers[x].data
        { p with peers := p.peers.set x { p.peers[x] with flags := ⟨false, false, false, false, false⟩ } }))) ∧
    Takes .readFirstOut p (Part.answer 0x51 .done (optBytes 11 FirstOut.data p.alarms.firstOut)
      { p with alarms := { p.alarms with tripNew := false } }) ∧
    (∀ i sect, (7 < i ∧ i ≠ 255) ∨ 6 < sect → Takes (.readShiftRecord i sect) p (p.answer 0x59 .badOperand [])) ∧
    (∀ sect, sect ≤ 6 →
      (p.shift.current = none → Takes (.readShiftRecord 255 sect) p (p.answer 0x59 .wrongState [])) ∧
      (∀ i ≤ 7, p.shift.store.length ≤ i → Takes (.readShiftRecord i sect) p (p.answer 0x59 .wrongState [])) ∧
      (∀ r, p.shift.current = some r → ∃ d, r.sectionData sect none = some d ∧
        Takes (.readShiftRecord 255 sect) p (p.answer 0x59 .done (p.identify 255 sect r ++ d))) ∧
      (∀ i r m, i ≤ 7 → p.shift.store[i]? = some (r, m) → ∃ d, r.sectionData sect (some m) = some d ∧
        Takes (.readShiftRecord i sect) p (Part.answer 0x59 .done (p.identify i sect r ++ d)
          (if sect = 0 then
            { p with shift := { p.shift with store := p.shift.store.set i (r, true),
                                             closedCause := if i = 0 then false else p.shift.closedCause } }
          else p)))))

/-! ## Firing line (chapter 1) -/

/-- ACCESS_GAP_REACHED (R5, R6, R9, R10, R13, R14): more than 2 character times idle end a partial frame, counted bad, and
let the next character begin a frame; with the line idle for the gap of the head frame, 3 or 20 character times plus the
own number plus 8 for each failed attempt, its attempt begins: it takes its SEQUENCE, and its characters are fixed.
That the idle time comes with the row is the model's choice, and that the own characters leave the receiver waiting for idle is
deduced (log 5). -/
def Obligations.AttemptBegins : Prop :=
  ∀ (p heard : Part) (idle : Nat),
    heard = (if p.strapRate ≠ 3 ∧ p.line.phase = .idle ∧ 2 < idle then
        (if p.line.receiver = .deaf ∨ p.line.receiver = .waiting ∨ p.line.assembly = [] then { p with line := { p.line with receiver := .ready } }
        else { p with
          line := { p.line with
            assembly := [], receiver := .ready, counts := { p.line.counts with bad := p.line.counts.bad + 1 } },
          shift := { p.shift with current := p.shift.current.map fun r => { r with bad := r.bad + 1 } } })
      else p) →
    (∀ h t, p.line.phase = .idle → p.line.queue = h :: t →
      ((if h.body.urgent then 3 else 20) + (p.strapStation.val + 1) + 8 * h.attempts ≤ idle →
        Takes (.accessGapReached idle) p { heard with line := { heard.line with
          receiver := .waiting, phase := .sending, lastTry := false,
          queue := { h with seq := some (h.seq.getD p.line.sequence) } :: t,
          sequence := if h.seq.isSome then p.line.sequence else p.line.sequence + 1,
          wire := p.frameBytes h.body (h.seq.getD p.line.sequence) } }) ∧
      (idle < (if h.body.urgent then 3 else 20) + (p.strapStation.val + 1) + 8 * h.attempts →
        Takes (.accessGapReached idle) p heard)) ∧
    (p.line.phase ≠ .idle ∨ p.line.queue = [] → Takes (.accessGapReached idle) p heard)

/-- Frames sent are read as sent (R1, R4, R6, R10, R11, R15, R198, R199, 12.3): each byte goes out as a character of 11 bits
with odd parity, back to back with the next, and a character is read with its data bits, its framing error where the stop bit
is spacing, and its parity error where the parity is even; what a station sends passes every test of a receiver, which finds
in it the sender, kind, SEQUENCE and payload; and a STATUS is read with the values it was sampled with. -/
def Obligations.FramesSentAreReadAsSent : Prop :=
  (∀ b : Byte, (charOf b).getLsbD 0 = false ∧ (∀ i < 8, (charOf b).getLsbD (1 + i) = b.getLsbD i) ∧
    (charOf b).getLsbD 10 = true ∧
    ((List.range 9).filter fun i => (charOf b).getLsbD (1 + i)).length % 2 = 1 ∧
    framingError (charOf b) = false ∧ parityError (charOf b) = false ∧ charData (charOf b) = b) ∧
  (∀ c : Character, (∀ i < 8, (charData c).getLsbD i = c.getLsbD (1 + i)) ∧
    (framingError c = true ↔ c.getLsbD 10 = false) ∧
    (parityError c = true ↔ ((List.range 9).filter fun i => c.getLsbD (1 + i)).length % 2 = 0)) ∧
  (∀ p : Part,
    (p.line.phase = .sending → p.sentBits.length = 11 * p.line.wire.length ∧
      ∀ (n i : Nat) (b : Byte), i < 11 → p.line.wire[n]? = some b →
        p.sentBits[11 * n + i]? = some ((charOf b).getLsbD i)) ∧
    (p.line.phase = .breaking → p.sentBits = List.replicate 22 false) ∧
    (p.driverEnable = true ↔ p.line.phase ≠ .idle ∧ p.strapRate ≠ 3)) ∧
  (∀ (p : Part) (body : FrameBody) (seq : Byte) (l : List Byte), l = p.frameBytes body seq →
    l.length = 6 + (p.payload body).length ∧ frameSize l = l.length ∧ headerGood l = true ∧ checkGood l = true ∧
      byteAt l 0 = p.strapStation.val + 1 ∧ stationIndex (byteAt l 0) = some p.strapStation ∧ l.getD 1 0 = body.kind ∧
      l.getD 3 0 = seq ∧ (l.drop 4).take (byteAt l 2) = p.payload body ∧ crc l = 0) ∧
  (∀ (p : Part) (c : List Byte), c = p.payload .status →
    c.length = 25 ∧ statusTakeable c = true ∧ statZone c = some p.cfg.zone ∧ statMode c = some p.mode ∧
      statOffered c = p.alloc.offered ∧ statLineTrip c = p.lineTripPoint.isSome ∧
      (∀ k : Fin 3, (statHeld c k = true ↔ p.claims[k].state = .held) ∧
        (statClaiming c k = true ↔ p.claims[k].state = .claiming)) ∧
      statShift c = p.shift.number % 65536 ∧ statDelivered c = p.alloc.delivered % 65536 ∧
      statCapacity c = p.alloc.capacity % 65536 ∧ statOffer c = p.alloc.offer % 65536 ∧
      statSecondary c = p.air.secondary % 65536 ∧ statTertiary c = p.air.tertiary % 65536 ∧
      statFansSec c = p.air.fansSec % 256 ∧ statFansTer c = p.air.fansTer % 256 ∧
      (∀ i, p.lineTripPoint = some i → statTripPoint c = i.val))

/-- FRAME_SENT_WHOLE, READ_BACK_MISMATCH and BREAK_ENDED (R1, R3, R10, R11, R12, R19, R24, R43): what is read back is compared
with the characters sent; in LOOPBACK it is the own output, so that a frame is always sent whole and never broken off, whatever
the row brings. All of them good, without an error, with the data bits sent and ending with the stop bit sent, a frame
leaves the queue, clears transmit-fail and sets the settle deadline of a record that waits on its CLAIM; at the first that is
not, no further character is sent and the line is broken; when the break has ended the attempt counts, and the frame is removed
on a last try, retried up to its seventh failed attempt, and given up at the eighth.
That the frame stands at the head until its break has ended is the model's choice (log 21), and so is that a row changes nothing
with no attempt in hand or no break under way, or where what is read back does not bear it out (log 5); that the own break
leaves the receiver deaf is deduced (log 30), and that the event then settles (`Part.settleAll`) too (log 1). -/
def Obligations.AttemptEnds : Prop :=
  (∀ (p : Part) (back : List ReadBack),
    let good := fun (n : Nat) (b : Byte) => ∃ c : Character, back[n]? = some (.heard c (11 * n + 10)) ∧
      c.getLsbD 0 = false ∧ c.getLsbD 10 = true ∧
      ((List.range 9).filter fun i => c.getLsbD (1 + i)).length % 2 = 1 ∧ ∀ i < 8, c.getLsbD (1 + i) = b.getLsbD i
    let whole := p.strapRate = 3 ∨ back.length = p.line.wire.length ∧ ∀ n b, p.line.wire[n]? = some b → good n b
    (∀ h t, p.line.phase = .sending → p.line.queue = h :: t → whole →
      Takes (.frameSentWhole back) p (Part.settleAll { p with
        line := { p.line with
          queue := t, phase := .idle, lastTry := false, txFail := false, lastSent := some (p.now, h.seq.getD 0),
          counts := { p.line.counts with sent := p.line.counts.sent + 1 } },
        claims := Vector.ofFn fun k =>
          if p.claims[k].state = .claiming ∧ p.claims[k].note = some h.tag then
            { p.claims[k] with settle := some (later p.now p.cfg.period), note := none }
          else p.claims[k] })) ∧
    (p.line.phase ≠ .sending ∨ p.line.queue = [] ∨ ¬ whole → Takes (.frameSentWhole back) p p) ∧
    (∀ n b, p.strapRate ≠ 3 → p.line.phase = .sending → p.line.wire[n]? = some b → n < back.length → ¬ good n b →
      (∀ m < n, ∀ c, p.line.wire[m]? = some c → good m c) →
      Takes (.readBackMismatch back) p
        { p with line := { p.line with phase := .breaking, wire := p.line.wire.take (n + 1) } }) ∧
    (p.line.phase ≠ .sending ∨ p.strapRate = 3 ∨ (∀ n b, n < back.length → p.line.wire[n]? = some b → good n b) →
      Takes (.readBackMismatch back) p p)) ∧
  (∀ p : Part,
    let ended := { p.line with phase := .idle, receiver := .deaf }
    (∀ h t, p.line.phase = .breaking → p.line.queue = h :: t →
      (p.line.lastTry = true → Takes .breakEnded p (Part.settleAll
        { p with line := { ended with queue := t, lastTry := false } })) ∧
      (p.line.lastTry = false → h.attempts < 7 → Takes .breakEnded p (Part.settleAll { p with
        line := { ended with
          queue := orderQueue ({ h with attempts := h.attempts + 1 } :: t),
          counts := { p.line.counts with retries := p.line.counts.retries + 1 } },
        shift := { p.shift with current := p.shift.current.map fun r => { r with retries := r.retries + 1 } } })) ∧
      (p.line.lastTry = false → 7 ≤ h.attempts → Takes .breakEnded p (Part.settleAll { p with
        line := { ended with
          queue := t, txFail := true, counts := { p.line.counts with failures := p.line.counts.failures + 1 } },
        shift := { p.shift with current := p.shift.current.map fun r => { r with failures := r.failures + 1 } },
        claims := Vector.ofFn fun k =>
          if p.claims[k].state = .claiming ∧ p.claims[k].note = some h.tag then
            { p.claims[k] with state := .waiting, settle := none, note := none }
          else p.claims[k] }))) ∧
    (p.line.phase = .breaking → p.line.queue = [] → Takes .breakEnded p { p with line := ended }) ∧
    (p.line.phase ≠ .breaking → Takes .breakEnded p p))

/-- The line's own timers and line stuck (R17, R18, R20): STATUS_PERIOD_EXPIRY requests a STATUS and begins again,
DUPLICATE_DEADLINE_EXPIRY ends the duplicate condition, LINE_STUCK sets and clears, unless in LOOPBACK (R3).
A row whose instant lies ahead changes nothing (`TakesAt`, the model's choice, log 3). -/
def Obligations.LineTimersAndStuckLine : Prop :=
  ∀ p : Part,
    (p.line.statusDue = none → Takes .statusPeriodExpiry p p) ∧
    (∀ t, p.line.statusDue = some t → TakesAt .statusPeriodExpiry t p fun q =>
      q.line.statusDue = some (later t p.cfg.period) ∧
      (p.started = true → p.line.silent = false → p.line.statusWaiting = false →
        (p.line.queue.length < 8 → q.line.queue.length = p.line.queue.length + 1 ∧ p.line.queue ⊆ q.line.queue ∧
          ⟨.status, 0, none, p.line.nextTag⟩ ∈ q.line.queue) ∧
        (8 ≤ p.line.queue.length → q.line.queue = p.line.queue ∧ q.line.txFail = true ∧
          q.line.counts.failures = p.line.counts.failures + 1)) ∧
      (p.started = false ∨ p.line.silent = true ∨ p.line.statusWaiting = true → q.line.queue = p.line.queue)) ∧
    (p.line.dupDeadline = none → Takes .duplicateDeadlineExpiry p p) ∧
    (∀ t, p.line.dupDeadline = some t → TakesAt .duplicateDeadlineExpiry t p fun q =>
      q.line.dupDeadline = none ∧ q.alarms.points[(1 : Fin 62)].eff = false) ∧
    (p.strapRate = 3 → Takes .lineStuckSet p p ∧ Takes .lineStuckCleared p p) ∧
    (p.strapRate ≠ 3 →
      (∃ q, Takes .lineStuckSet p q ∧ q.line.stuck = true ∧ q.alarms.points[(4 : Fin 62)].eff = p.started) ∧
      ∃ q, Takes .lineStuckCleared p q ∧ q.line.stuck = false ∧ q.alarms.points[(4 : Fin 62)].eff = false)

/-- FRAME_RECEIVED whose characters make a whole frame with a good header, alone or behind those assembled before, taken in by
a ready receiver; characters behind the frame in the same row are a partial frame, counted bad (R13 to R19, R26 to R28,
R51): a wrong CHECK counts a bad frame; the own SOURCE counts a duplicate and makes a STARTED station SILENT, which refuses every waiting
and claiming user: a burner is OFF or TRIPPED, a fan STOPPED, a mix ramp ended; a peer's frame makes its entry LIVE, and a
STATUS that can be taken becomes its contents.
That a wrong CHECK ends with `Part.settleAll` is deduced (log 1). -/
def Obligations.WholeFramesReceived : Prop :=
  ∀ (p : Part) (chars l more : List Byte), p.line.assembly ++ chars = l ++ more → p.strapRate ≠ 3 →
    p.line.phase = .idle → p.line.receiver = .ready → headerGood l = true → l.length = frameSize l →
    let next : Receiver := if more = [] then .behind else .deaf
    let beyond : Count := if more = [] then 0 else 1
    (checkGood l = false → Takes (.frameReceived chars) p (Part.settleAll { p with
      line := { p.line with
        assembly := [], receiver := next, counts := { p.line.counts with bad := p.line.counts.bad + (1 + beyond) } },
      shift := { p.shift with current := p.shift.current.map fun r => { r with bad := r.bad + (1 + beyond) } } })) ∧
    (checkGood l = true → byteAt l 0 = p.strapStation.val + 1 → ∃ q, Takes (.frameReceived chars) p q ∧
      q.line.assembly = [] ∧ q.line.receiver = next ∧ q.line.stuck = false ∧
      q.line.counts.bad = p.line.counts.bad + beyond ∧ q.line.counts.duplicates = p.line.counts.duplicates + 1 ∧
      q.line.counts.accepted = p.line.counts.accepted ∧ q.line.dupDeadline = some (later p.now (4 * p.cfg.period)) ∧
      (p.started = true → q.line.silent = true) ∧ (p.started = false → q.line.silent = p.line.silent) ∧
      (p.started = true → p.line.silent = false →
        (∀ k : Fin 3, q.claims[k].waitList = [] ∧ (q.claims[k].state = .idle ∨
          (q.claims[k].state = .held ∧ p.claims[k].state = .held ∧ q.claims[k].user = p.claims[k].user))) ∧
        (∀ b : Fin 2, b.val ∈ p.claims[(0 : Fin 3)].waitList → q.burners[b].out) ∧
        (∀ n : Fin 4, n.val ∈ p.claims[(1 : Fin 3)].waitList → q.fans[n].state = .stopped) ∧
        (∀ (b : Fin 2) (r : MixRamp), b.val ∈ p.claims[(2 : Fin 3)].waitList → p.ramps[b] = some r →
          q.ramps[b] = none ∧ ∀ f ∈ p.feedersOf b, q.feeders[f].mix = r.target[f]))) ∧
    (∀ x : Fin 16, checkGood l = true → x ≠ p.strapStation → byteAt l 0 = x.val + 1 →
      ∃ q, Takes (.frameReceived chars) p q ∧
      q.line.assembly = [] ∧ q.line.receiver = next ∧ q.line.stuck = false ∧
      q.line.counts.accepted = p.line.counts.accepted + 1 ∧
      q.line.counts.bad = p.line.counts.bad + beyond ∧
      q.peers[x].state = .live ∧ q.peers[x].lastTime = some p.now ∧ q.peers[x].lastSeq = some (l.getD 3 0) ∧
      (∀ last, p.peers[x].state = .live → p.peers[x].lastSeq = some last →
        q.peers[x].lost = satAt 65535 (p.peers[x].lost + if l.getD 3 0 = last then 0 else (l.getD 3 0 - last - 1).toNat)) ∧
      (p.peers[x].state ≠ .live → q.peers[x].lost = p.peers[x].lost ∧ q.peers[x].flags.joined = true) ∧
      (l.getD 1 0 = 0x51 → statusTakeable ((l.drop 4).take 25) = true →
        q.peers[x].contents = some ((l.drop 4).take 25) ∧ q.peers[x].stale = false) ∧
      (l.getD 1 0 ≠ 0x51 ∨ statusTakeable ((l.drop 4).take 25) = false → q.peers[x].contents = p.peers[x].contents) ∧
      ∀ y : Fin 16, y ≠ x → q.peers[y] = p.peers[y])

/-- Accepted frames by kind, whole in one row or completed by it, with or without characters behind them (R39, R40, R44, R46,
R47, R151, R167): a CLAIM makes its sender claimant unless a lower-numbered
one stands, a CLAIMING record yields to a lower-numbered sender, and against a HELD one a STATUS is queued; a STATUS that
shows k held by a lower-numbered peer ends the own hold in a conflict, whose user is told; a RELEASE leaves a release note,
a TRIP and a STATUS keep the peer trip set (R28, R151), a SHIFT of a higher number changes the shift.
The order of views, yields and conflicts in one STATUS is the model's choice (log 10), and so is what stands in the peer trip
set after a STATUS whose line-trip origin lies outside 0–61 (log 31). -/
def Obligations.UrgentFramesHandedOn : Prop :=
  ∀ (p : Part) (x : Fin 16) (chars l more : List Byte), p.line.assembly ++ chars = l ++ more → p.strapRate ≠ 3 →
    p.line.phase = .idle → p.line.receiver = .ready → headerGood l = true → l.length = frameSize l → checkGood l = true → x ≠ p.strapStation →
    byteAt l 0 = x.val + 1 →
    let yields := fun (k : Fin 3) (q : Part) => q.claims[k].state ≠ .claiming ∧ q.claims[k].settle = none ∧
      q.claims[k].note = none ∧
      (k = 1 → q.claims[k].state = .waiting ∧ q.claims[k].user = p.claims[k].waitList.head?)
    (∀ k : Fin 3, l.getD 1 0 = 0x62 → byteAt l 4 = k.val → ∃ q, Takes (.frameReceived chars) p q ∧
      (byteAt l 5 < userCount k → p.claims[k].claimant = none →
        q.claims[k].claimant = some ⟨x, later p.now (2 * p.cfg.period), some (byteAt l 5)⟩) ∧
      (∀ c, byteAt l 5 < userCount k → p.claims[k].claimant = some c →
        q.claims[k].claimant =
          if c.peer < x then some c else some ⟨x, later p.now (2 * p.cfg.period), some (byteAt l 5)⟩) ∧
      (userCount k ≤ byteAt l 5 → q.claims[k].claimant = p.claims[k].claimant) ∧
      (byteAt l 5 < userCount k → p.claims[k].state = .claiming → x < p.strapStation → yields k q) ∧
      (byteAt l 5 < userCount k → p.claims[k].state = .held → p.started = true → p.line.silent = false →
        p.line.queue.length < 8 → ∃ f ∈ q.line.queue, f.body = .status)) ∧
    (∀ k : Fin 3, l.getD 1 0 = 0x51 → statusTakeable ((l.drop 4).take 25) = true → ∃ q, Takes (.frameReceived chars) p q ∧
      let c := (l.drop 4).take 25
      ((x < p.strapStation ∧ statClaiming c k = true) ∨ statHeld c k = true → p.claims[k].state = .claiming →
        yields k q) ∧
      (∀ u, x < p.strapStation → statHeld c k = true → p.claims[k].state = .held → p.claims[k].user = some u →
        (k = 2 → statHeld c 0 = false ∨ p.claims[(0 : Fin 3)].state ≠ .held) →
        q.claims[k].state = .idle ∧ q.claims[k].user = none ∧ q.claims[k].conflict = some x ∧
        q.claims[k].reclaim = some (later p.now p.cfg.period) ∧
        Reported ⟨.resource, k.val, 2, false, p.now, x.val + 1, none⟩ q ∧
        (∀ b : Fin 2, k = 0 → u = b.val → q.burners[b].state = .held ∨ q.burners[b].state = .tripped) ∧
        (∀ n : Fin 4, k = 1 → u = n.val → q.fans[n].state = .tripped) ∧
        (∀ (b : Fin 2) (r : MixRamp), k = 2 → u = b.val → p.ramps[b] = some r →
          q.ramps[b] = none ∧ ∀ f ∈ p.feedersOf b, q.feeders[f].mix = r.target[f])) ∧
      (statLineTrip c = false → q.alarms.peerTrips[x] = none) ∧
      (statLineTrip c = true → byteAt c 21 ≤ 61 → q.alarms.peerTrips[x] =
        some ⟨some (byteAt c 21), match p.alarms.peerTrips[x] with
          | some t => if t.point = some (byteAt c 21) then t.seq else none
          | none => none⟩) ∧
      (statLineTrip c = true → 61 < byteAt c 21 →
        q.alarms.peerTrips[x] = some (p.alarms.peerTrips[x].getD ⟨none, none⟩))) ∧
    (∀ k : Fin 3, l.getD 1 0 = 0x63 → byteAt l 4 = k.val → ∃ q, Takes (.frameReceived chars) p q ∧
      q.claims[k].released[x] = true ∧ ∀ c, q.claims[k].claimant = some c → c.peer ≠ x) ∧
    (∀ i : Fin 62, l.getD 1 0 = 0x74 → byteAt l 4 = i.val → ∃ q, Takes (.frameReceived chars) p q ∧
      (byteAt l 6 = 0 → q.alarms.peerTrips[x] = some ⟨some i.val, some (l.getD 5 0)⟩) ∧
      (byteAt l 6 ≠ 0 → q.alarms.peerTrips[x] = p.alarms.peerTrips[x])) ∧
    (l.getD 1 0 = 0x85 → p.started = true → p.shift.number < wordAt l 4 → ∃ q, Takes (.frameReceived chars) p q ∧
      q.shift.number = wordAt l 4 ∧
      (p.shift.number = 0 → q.shift.store = p.shift.store ∧ ∀ r, p.shift.current = some r →
        ∃ r', q.shift.current = some r' ∧ r'.number = wordAt l 4 ∧ r'.origin = .renumbered (x.val + 1) ∧
          r'.openTime = r.openTime ∧ r'.note = r.note) ∧
      (p.shift.number ≠ 0 → ∃ r', q.shift.current = some r' ∧ r'.number = wordAt l 4 ∧ r'.origin = .peer (x.val + 1) ∧
        r'.openTime = p.now ∧ r'.gap = decide (p.shift.number + 1 < wordAt l 4)))

/-- BAD_HEADER_DISCARD, PARTIAL_FRAME_DISCARD, INTER_CHARACTER_GAP, and FRAME_RECEIVED with characters that are no whole
frame (R1, R3, R10, R13, R14, R15, R23): what is assembled is discarded and counted as one bad frame; a character with a framing
or a parity error discards it, or counts as a partial frame by itself, also while the receiver waits for idle after a pin reset
or an own attempt; 11 spacing bits are a break; a deaf receiver takes nothing in and counts nothing until a gap; behind a whole
frame characters are one partial frame, in the same row or a later one; a frame not yet whole stays assembled.
That a row which takes characters in ends with `Part.settleAll` is deduced (log 1), and that characters without an error count
nothing while the receiver waits for idle (log 30); that a character without an error, given to PARTIAL_FRAME_DISCARD, changes
nothing is the model's choice (log 5), as it is that characters given with an event are one partial frame with those assembled,
also where they would make a whole one (log 39). -/
def Obligations.DiscardedCharacters : Prop :=
  ∀ (p : Part) (chars : List Byte),
    let discarded := fun (n : Count) (r : Receiver) => { p with
      line := { p.line with
        assembly := [], receiver := r, counts := { p.line.counts with bad := p.line.counts.bad + n } },
      shift := { p.shift with current := p.shift.current.map fun x => { x with bad := x.bad + n } } }
    let next := fun r : Receiver => { p with line := { p.line with receiver := r } }
    let faulty := fun c : Character => c.getLsbD 0 = false ∧
      (c.getLsbD 10 = false ∨ ((List.range 9).filter fun i => c.getLsbD (1 + i)).length % 2 = 0)
    let received := fun q : Part =>
      Takes (.frameReceived chars) p (Part.settleAll q) ∧ Takes (.badHeaderDiscard chars) p (Part.settleAll q)
    let alone :=
      Takes (.partialFrameDiscard .lineBreak chars) p (next .deaf) ∧
      Takes (.partialFrameDiscard (.badCharacter 0) chars) p (next .deaf) ∧
      (∀ c, faulty c → c ≠ 0 → Takes (.partialFrameDiscard (.badCharacter c) chars) p (discarded 1 .deaf)) ∧
      Takes (.interCharacterGap chars) p (next .ready)
    (∀ c, ¬ faulty c → Takes (.partialFrameDiscard (.badCharacter c) chars) p p) ∧
    (p.strapRate = 3 ∨ p.line.phase ≠ .idle →
      Takes (.frameReceived chars) p p ∧ Takes (.badHeaderDiscard chars) p p ∧ Takes (.interCharacterGap chars) p p ∧
        ∀ cause, Takes (.partialFrameDiscard cause chars) p p) ∧
    (p.strapRate ≠ 3 → p.line.phase = .idle →
      (p.line.receiver = .deaf → received p ∧ (∀ cause, Takes (.partialFrameDiscard cause chars) p p) ∧
        Takes (.interCharacterGap chars) p (next .ready)) ∧
      (p.line.receiver = .waiting → received p ∧ alone) ∧
      (p.line.receiver = .behind → (chars = [] → received p) ∧ (chars ≠ [] → received (discarded 1 .deaf))) ∧
      (p.line.receiver = .ready →
        (headerGood (p.line.assembly ++ chars) = false → received (discarded 1 .deaf)) ∧
        (headerGood (p.line.assembly ++ chars) = true →
          (p.line.assembly ++ chars).length < 3 ∨
            (p.line.assembly ++ chars).length < frameSize (p.line.assembly ++ chars) →
          received { p with line := { p.line with assembly := p.line.assembly ++ chars } }) ∧
        (∀ l more, p.line.assembly ++ chars = l ++ more → more ≠ [] → headerGood l = true → l.length = frameSize l →
          checkGood l = false → received (discarded 2 .deaf))) ∧
      (p.line.receiver = .ready ∨ p.line.receiver = .behind →
        (p.line.assembly ++ chars ≠ [] →
          Takes (.partialFrameDiscard .lineBreak chars) p (discarded 1 .deaf) ∧
          (∀ c, faulty c → Takes (.partialFrameDiscard (.badCharacter c) chars) p (discarded 1 .deaf)) ∧
          Takes (.interCharacterGap chars) p (discarded 1 .ready)) ∧
        (p.line.assembly = [] → chars = [] → alone)))

/-! ## Peers and line resources (chapters 2 and 3) -/

/-- PEER_AGING_EXPIRY (R30, R31, R40): a LIVE peer whose deadline has come is LOST, its contents stale; it is claimant of
nothing, and PEER LOST is the condition of point 5.
A row whose instant lies ahead changes nothing (`TakesAt`, the model's choice, log 3). -/
def Obligations.PeerAging : Prop :=
  ∀ (p : Part) (x : Fin 16),
    (x = p.strapStation ∨ p.peers[x].state ≠ .live ∨ p.peers[x].lastTime = none → Takes (.peerAgingExpiry x) p p) ∧
    (∀ t, x ≠ p.strapStation → p.peers[x].state = .live → p.peers[x].lastTime = some t →
      TakesAt (.peerAgingExpiry x) (later t (4 * p.cfg.period)) p fun q =>
        q.peers = p.peers.set x { p.peers[x] with
          state := .lost, stale := p.peers[x].stale || p.peers[x].contents.isSome,
          flags := { p.peers[x].flags with lost := true } } ∧
        q.fresh x = none ∧ (∀ (k : Fin 3) (c : Claimant), q.claims[k].claimant = some c → c.peer ≠ x) ∧
        q.alarms.points[(5 : Fin 62)].eff = p.started)

/-- STAGGER_END, CLAIMANT_EXPIRY and RECLAIM_DELAY_END (R40, R42, R43, R48): with the view free a WAITING record enters
CLAIMING and queues a CLAIM, or stays WAITING when the queue is full; with the view taken it goes on WAITING; a claimant or
a delay ends, and the head of an IDLE record's list is served if nothing else bars it.
A row whose instant lies ahead changes nothing (`TakesAt`, the model's choice, log 3). -/
def Obligations.ResourceTimersMove : Prop :=
  (∀ (p : Part) (k : Fin 3),
    (p.claims[k].state ≠ .waiting ∨ p.claims[k].stagger = none → Takes (.staggerEnd k) p p) ∧
    (∀ t, p.claims[k].state = .waiting → p.claims[k].stagger = some t →
      TakesAt (.staggerEnd k) t p fun q =>
        (p.viewFree k = false → q.claims[k].state = .waiting ∧ q.claims[k].stagger = none ∧
          q.claims[k].user = p.claims[k].user ∧ q.line = p.line) ∧
        (p.viewFree k = true → p.started = true → p.line.silent = false → ∀ u, p.claims[k].user = some u →
          (p.line.queue.length < 8 → q.claims[k].state = .claiming ∧ q.claims[k].user = some u ∧
            q.claims[k].settle = none ∧ q.claims[k].note = some p.line.nextTag ∧
            ⟨.claim k u, 0, none, p.line.nextTag⟩ ∈ q.line.queue) ∧
          (8 ≤ p.line.queue.length → q.claims[k].state = .waiting ∧ q.line.queue = p.line.queue ∧
            q.line.counts.failures = p.line.counts.failures + 1)))) ∧
  (∀ (p : Part) (k : Fin 3),
    (p.claims[k].claimant = none → Takes (.claimantExpiry k) p p) ∧
    (p.claims[k].reclaim = none → Takes (.reclaimDelayEnd k) p p) ∧
    (∀ c, p.claims[k].claimant = some c → TakesAt (.claimantExpiry k) c.expiry p fun q =>
      q.claims[k].claimant = none ∧ q.claims[k].reclaim = p.claims[k].reclaim) ∧
    (∀ t, p.claims[k].reclaim = some t → TakesAt (.reclaimDelayEnd k) t p fun q =>
      q.claims[k].reclaim = none ∧
      ∀ u us, p.claims[k].state = .idle → p.claims[k].waitList = u :: us → p.viewFree k = true → p.started = true →
        p.line.silent = false → q.claims[k].state = .waiting ∧ q.claims[k].user = some u ∧
          q.claims[k].stagger = some (later q.now (20 * (p.strapStation.val + 1)))))

/-- SETTLE_DEADLINE (R45, R82, R83, R116, R125): the record is HELD and its user leaves the wait list, which holds each user
once, and starts: a fan STARTING, a burner IGNITING, or LOADING after a hold in LOADING, a mix ramp RAMPING.
A row whose instant lies ahead changes nothing (`TakesAt`, the model's choice, log 3). -/
def Obligations.SettleDeadlineGrants : Prop :=
  ∀ (p : Part) (k : Fin 3),
    (p.claims[k].state ≠ .claiming ∨ p.claims[k].settle = none → Takes (.settleDeadline k) p p) ∧
    (∀ t u, p.claims[k].state = .claiming → p.claims[k].settle = some t → p.claims[k].user = some u →
      TakesAt (.settleDeadline k) t p fun q =>
        (p.claims[k].waitList.Pairwise (· < ·) → u ∉ q.claims[k].waitList) ∧
        (p.started = true → p.line.silent = false → p.line.queue.length < 7 →
          ∃ f ∈ q.line.queue, f.body = .status) ∧
        Reported ⟨.resource, k.val, 0, false, q.now, 0, none⟩ q ∧
        (∀ n : Fin 4, k = 1 → u = n.val → q.holdsFor 1 u ∧ q.fans[n].state = .starting ∧
          q.fans[n].startUntil = some (later q.now (p.fans[n].cfg.startTime * 1000)) ∧
          q.field.output.fanRun[n] = true ∧ q.field.output.fanSpeed[n] = 200) ∧
        (∀ b : Fin 2, k = 0 → u = b.val → p.QuietFor b → q.holdsFor 0 u ∧
          (p.burners[b].cont = some .loading → q.burners[b].state = .loading ∧ q.field.output.igniter[b] = false ∧
            q.burners[b].loading = some (later q.now (p.burners[b].cfg.loading * 1000))) ∧
          (p.burners[b].cont ≠ some .loading → q.burners[b].state = .igniting ∧ q.field.output.igniter[b] = true ∧
            q.burners[b].ignition = some (later q.now (p.burners[b].cfg.ignition * 1000)))) ∧
        (∀ (b : Fin 2) (r : MixRamp), k = 2 → u = b.val → p.QuietFor b → p.burners[b].state.fires = true →
          p.ramps[b] = some r → q.holdsFor 2 u ∧
            q.ramps[b] = some { r with ramping := true, elapsed := 0, nextStep := nextMultiple q.now 1000 }))

/-! ## Heat allocation (chapter 4) -/

/-- OFFER DEMAND and WITHDRAW DEMAND (R59, R34, R58): their checks, the own offer taken, a STATUS requested, and the zone
demand found again when the station is the source. -/
def Obligations.OfferAndWithdrawDemand : Prop :=
  ∀ (p : Part) (h : Nat),
    (p.started = false → Takes (.offerDemand h) p (p.answer 0x20 .wrongLifecycle []) ∧
      Takes .withdrawDemand p (p.answer 0x21 .wrongLifecycle [])) ∧
    (p.started = true → p.cfg.zone = .none → Takes (.offerDemand h) p (p.answer 0x20 .wrongState []) ∧
      Takes .withdrawDemand p (p.answer 0x21 .wrongState [])) ∧
    (p.started = true → p.cfg.zone ≠ .none →
      (p.alloc.offered = true → p.alloc.offer = h → Takes (.offerDemand h) p (p.answer 0x20 .done [])) ∧
      (p.alloc.offered = false → Takes .withdrawDemand p (p.answer 0x21 .done [])) ∧
      (p.alloc.offered = false ∨ p.alloc.offer ≠ h → ∃ q, Takes (.offerDemand h) p q ∧
        q.alloc.offered = true ∧ q.alloc.offer = h ∧ q.host = p.host.answered 0x20 .done [] ∧
        (p.line.silent = false → p.line.queue.length < 8 → ∃ f ∈ q.line.queue, f.body = .status) ∧
        ((∀ x < p.strapStation, p.offers x = false) → q.demandSource = some p.strapStation ∧ q.alloc.demand = h ∧
          q.alloc.demandHeld = false)) ∧
      (p.alloc.offered = true → ∃ q, Takes .withdrawDemand p q ∧
        q.alloc.offered = false ∧ q.alloc.offer = p.alloc.offer ∧ q.host = p.host.answered 0x21 .done [] ∧
        (p.line.silent = false → p.line.queue.length < 8 → ∃ f ∈ q.line.queue, f.body = .status) ∧
        ((∀ x : Fin 16, x ≠ p.strapStation → p.offers x = false) → q.demandSource = none ∧
          q.alloc.demand = p.alloc.demand ∧ q.alloc.demandHeld = true)))

/-- Maximum heats and the splits of one evaluation (R63, R68): the maximum heat of a feeder, the heat target of a feeder
by its cumulative mix, and the sums: target heat within capacity and demand, burner targets summing to it, feeder targets
summing to their burner's. -/
def Obligations.HeatTargetsSumExactly : Prop :=
  (∀ (p : Part) (f : Fin 6), p.feeders[f].cfg.used = true →
    p.evaluated.maxHeat[f] = min 65535
      ((2 * (p.feeders[f].cfg.maxRate * p.fuel[p.feeders[f].cfg.fuel]) + 36000) / 72000) ∧
    (p.fuel[p.feeders[f].cfg.fuel] = 0 → p.evaluated.maxHeat[f] = 0) ∧
    (p.feeders[f].cfg.maxRate = 65000 → p.fuel[p.feeders[f].cfg.fuel] = 50000 → p.evaluated.maxHeat[f] = 65535)) ∧
  ∀ (p : Part) (a : Alloc), a = p.evaluated →
    a.target ≤ a.capacity ∧ a.target ≤ a.dEff ∧ a.targetB[(0 : Fin 2)] + a.targetB[(1 : Fin 2)] = a.target ∧
    ∀ b : Fin 2, p.burners[b].cfg.used = true →
      (∀ f ∈ p.feedersOf b, ∀ before : Nat,
        before = (((p.feedersOf b).filter (· < f)).map fun g => p.feeders[g].mix).sum →
          a.heatF[f] = a.targetB[b] * (before + p.feeders[f].mix) / 1000 - a.targetB[b] * before / 1000 ∧
          (p.feeders[f].mix = 0 → a.heatF[f] = 0)) ∧
      (((p.feedersOf b).map fun f => p.feeders[f].mix).sum = 1000 →
        ((p.feedersOf b).map fun f => a.heatF[f]).sum = a.targetB[b])

/-! ## Plant mode and burners (chapter 5) -/

/-- Plant mode (R74): STOP after pin reset, RESTART STATION and START STATION, the table of SET MODE, and no other row
changes it. -/
def Obligations.PlantModeTable : Prop :=
  ((∀ (p q : Part) straps rate eng, Takes (.pinReset straps rate eng) p q → q.mode = .stop) ∧
    (∀ p q : Part, p.started = true → Takes .restartStation p q → q.mode = .stop) ∧
    (∀ p q : Part, p.started = false → Takes .startStation p q → q.started = true → q.mode = .stop) ∧
    (∀ (c : Instr) (p q : Part), Takes c p q → q.mode ≠ p.mode → (∃ m, c = .setMode m) ∨ c = .startStation ∨
      c = .restartStation ∨ ∃ straps rate eng, c = .pinReset straps rate eng)) ∧
  ∀ p : Part,
    (p.started = false → ∀ n, Takes (.setMode n) p (p.answer 0x28 .wrongLifecycle [])) ∧
    (p.started = true → ∀ n, 4 ≤ n → Takes (.setMode n) p (p.answer 0x28 .badOperand [])) ∧
    (p.started = true → ∀ m : PlantMode,
      (m = p.mode → Takes (.setMode m.code) p (p.answer 0x28 .done [])) ∧
      let out := ∀ b : Fin 2, p.burners[b].cfg.used = true → p.burners[b].out
      let taken := (p.mode = .stop ∧ m = .heatUp) ∨ (p.mode = .heatUp ∧ (m = .run ∨ m = .coolDown)) ∨
        (p.mode = .run ∧ (m = .heatUp ∨ m = .coolDown)) ∨ (p.mode = .coolDown ∧ m = .heatUp) ∨
        (p.mode = .coolDown ∧ m = .stop ∧ out)
      (m ≠ p.mode → ¬ taken → Takes (.setMode m.code) p (p.answer 0x28 .wrongState [])) ∧
      (taken → ∃ q, Takes (.setMode m.code) p q ∧ q.mode = m ∧ q.host = p.host.answered 0x28 .done []))

/-- A change of plant mode (R75, R86): its MODE event, and on entry to COOL-DOWN every used burner that waits, ignites or
is HELD is OFF, and every one that is LOADING or FIRING is STOPPING, or TRIPPED by a trip of the same event. -/
def Obligations.CoolDownStopsBurners : Prop :=
  ∀ (p : Part) (m : PlantMode), p.started = true → m ≠ p.mode → p.modeAllowed m = true →
    ∃ q, Takes (.setMode m.code) p q ∧ Reported ⟨.mode, 0, m.code, false, p.now, 0, none⟩ q ∧
      (m = .coolDown → ∀ b : Fin 2, p.burners[b].cfg.used = true →
        (p.burners[b].state = .lightWait ∨ p.burners[b].state = .igniting ∨ p.burners[b].state = .held →
          q.burners[b] = p.burners[b].cleared .off ∧ q.field.output.igniter[b] = false) ∧
        (p.burners[b].state = .loading ∨ p.burners[b].state = .firing →
          q.burners[b] = p.burners[b].cleared .stopping ∨ q.burners[b] = p.burners[b].cleared .tripped) ∧
        (p.burners[b].out → q.burners[b] = p.burners[b])) ∧
      (p.cfg.zone ≠ .none → m = .coolDown → q.alloc.capacity = 0)

/-- START BURNER on a used burner (R80, R81): its checks in their order, and LIGHT_WAIT with a request for LIGHT-OFF. -/
def Obligations.StartBurnerWaitsForLightOff : Prop :=
  ∀ (p : Part) (b : Fin 2), p.started = true → p.burners[b].cfg.used = true →
    let permitted := (p.mode = .heatUp ∨ p.mode = .run) ∧ p.field.image.permit[b] = ⟨true, true⟩ ∧
      (∀ i : Fin 62, (p.pointAttr i).cls = .trip →
        (p.pointAttr i).binding = .station ∨ (p.pointAttr i).binding = .burner b →
          p.alarms.points[i].state = .normal) ∧
      (∀ f : Fin 6, p.feeders[f].cfg.used = true → p.feeders[f].cfg.burner = b → p.feeders[f].mix ≠ 0 →
        p.fuel[p.feeders[f].cfg.fuel] ≠ 0) ∧
      p.fuel[p.feeders[p.burners[b].cfg.feeder].cfg.fuel] ≠ 0
    (p.burners[b].state ≠ .off → Takes (.startBurner b.val) p (p.answer 0x2A .wrongState [])) ∧
    (p.burners[b].state = .off → p.line.silent = true → Takes (.startBurner b.val) p (p.answer 0x2A .noLine [])) ∧
    (p.burners[b].state = .off → p.line.silent = false → ¬ permitted →
      Takes (.startBurner b.val) p (p.answer 0x2A .permissive [])) ∧
    (p.burners[b].state = .off → p.line.silent = false → permitted →
      ∃ q, Takes (.startBurner b.val) p q ∧ q.host = p.host.answered 0x2A .done [] ∧
        q.burners[b] = { p.burners[b].cleared .lightWait with
          cont := some .igniting, lightWait := some (later p.now 600000) } ∧
        (b.val ∈ q.claims[(0 : Fin 3)].waitList ∨ q.holdsFor 0 b.val) ∧
        Reported ⟨.burner, b.val, 1, false, p.now, 0, none⟩ q)

/-- STOP BURNER, RESET TRIP of a burner and RESUME BURNER (R78, R86, R89, R92, R108): OFF or STOPPING with every item removed,
the igniter off and LIGHT-OFF given up; back to FIRING with the flame and a complete held step, else through LIGHT_WAIT to
LOADING or IGNITING; or refused. -/
def Obligations.BurnerCommandsTaken : Prop :=
  (∀ (p : Part) (b : Fin 2), p.started = true → p.burners[b].cfg.used = true →
    (p.burners[b].state = .lightWait ∨ p.burners[b].state = .igniting ∨ p.burners[b].state = .held →
      ∃ q, Takes (.stopBurner b.val) p q ∧ q.host = p.host.answered 0x2B .done [] ∧
        q.burners[b] = p.burners[b].cleared .off ∧ q.field.output.igniter[b] = false ∧ ¬ q.holdsFor 0 b.val ∧
        (p.holdsFor 0 b.val → q.claims[(0 : Fin 3)].reclaim = some (later p.now p.cfg.period)) ∧
        (∀ f ∈ p.feedersOf b, p.feeders[f].state ≠ .inLocal → q.feeders[f].setpoint = 0) ∧
        Reported ⟨.burner, b.val, 0, false, p.now, 0, none⟩ q) ∧
    (p.burners[b].state = .loading ∨ p.burners[b].state = .firing →
      ∃ q, Takes (.stopBurner b.val) p q ∧ q.host = p.host.answered 0x2B .done [] ∧
        q.burners[b] = p.burners[b].cleared .stopping ∧ q.field.output.igniter[b] = false ∧ ¬ q.holdsFor 0 b.val ∧
        Reported ⟨.burner, b.val, 5, false, p.now, 0, none⟩ q) ∧
    (p.burners[b].state = .off ∨ p.burners[b].state = .stopping ∨ p.burners[b].state = .tripped →
      Takes (.stopBurner b.val) p (p.answer 0x2B .wrongState [])) ∧
    (p.burners[b].state ≠ .tripped → Takes (.resetTripBurner b.val) p (p.answer 0x2D .wrongState [])) ∧
    (p.burners[b].state = .tripped → p.tripStands b = true →
      Takes (.resetTripBurner b.val) p (p.answer 0x2D .permissive [])) ∧
    (p.burners[b].state = .tripped → p.tripStands b = false →
      ∃ q, Takes (.resetTripBurner b.val) p q ∧ q.host = p.host.answered 0x2D .done [] ∧
        q.burners[b] = p.burners[b].cleared .off ∧ Reported ⟨.burner, b.val, 0, false, p.now, 0, none⟩ q)) ∧
  (∀ (p : Part) (b : Fin 2), p.started = true → p.burners[b].cfg.used = true →
    let x := p.burners[b]
    let straight := x.flame = true ∧ x.heldStep = some .firing
    (x.state ≠ .held → Takes (.resumeBurner b.val) p (p.answer 0x2C .wrongState [])) ∧
    (x.state = .held → x.causePermit = true ∨ x.causeConflict = true →
      Takes (.resumeBurner b.val) p (p.answer 0x2C .permissive [])) ∧
    (x.state = .held → x.causePermit = false → x.causeConflict = false →
      (¬ straight → p.line.silent = true → Takes (.resumeBurner b.val) p (p.answer 0x2C .noLine [])) ∧
      (straight → ∃ q, Takes (.resumeBurner b.val) p q ∧ q.host = p.host.answered 0x2C .done [] ∧
        q.burners[b].state = .firing ∧ q.burners[b].heldStep = none ∧ q.burners[b].heldUntil = none) ∧
      (¬ straight → p.line.silent = false → ∃ q, Takes (.resumeBurner b.val) p q ∧
        q.host = p.host.answered 0x2C .done [] ∧ q.burners[b] = { x.cleared .lightWait with
          lightWait := some (later p.now 600000),
          cont := some (if x.flame = true ∧ x.heldStep = some .loading then .loading else .igniting) })))

/-- The burner's timers that move it (R81, R82, R83, R91): LIGHT_WAIT_EXPIRY and HELD_DEADLINE to OFF, FLAME_PROVEN to
LOADING, LOADING_DEADLINE to FIRING; a timer that is not present moves nothing.
A row whose instant lies ahead changes nothing (`TakesAt`, the model's choice, log 3). -/
def Obligations.BurnerTimersMove : Prop :=
  ∀ (p : Part) (b : Fin 2),
    (p.burners[b].state ≠ .lightWait ∨ p.burners[b].lightWait = none → Takes (.lightWaitExpiry b) p p) ∧
    (p.burners[b].state ≠ .igniting ∨ p.burners[b].proving = none → Takes (.flameProven b) p p) ∧
    (p.burners[b].state ≠ .loading ∨ p.burners[b].loading = none → Takes (.loadingDeadline b) p p) ∧
    (p.burners[b].state ≠ .held ∨ p.burners[b].heldUntil = none → Takes (.heldDeadline b) p p) ∧
    (∀ t, p.burners[b].state = .lightWait → p.burners[b].lightWait = some t →
      TakesAt (.lightWaitExpiry b) t p fun q => q.burners[b] = p.burners[b].cleared .off ∧
        ¬ q.holdsFor 0 b.val ∧ Reported ⟨.burner, b.val, 0, true, q.now, 0, none⟩ q) ∧
    (∀ t, p.burners[b].state = .igniting → p.burners[b].proving = some t →
      TakesAt (.flameProven b) (later t (p.burners[b].cfg.proving * 1000)) p fun q =>
        q.burners[b] = { p.burners[b].cleared .loading with
          loading := some (later q.now (p.burners[b].cfg.loading * 1000)),
          absent := if p.burners[b].flame then none else some q.now } ∧
        q.field.output.igniter[b] = false ∧ Reported ⟨.burner, b.val, 3, false, q.now, 0, none⟩ q) ∧
    (∀ t, p.burners[b].state = .loading → p.burners[b].loading = some t →
      TakesAt (.loadingDeadline b) t p fun q => q.burners[b].state = .firing ∧
        q.burners[b].absent = p.burners[b].absent ∧ ¬ q.holdsFor 0 b.val ∧
        Reported ⟨.burner, b.val, 4, false, q.now, 0, none⟩ q) ∧
    (∀ t, p.burners[b].state = .held → p.burners[b].heldUntil = some t →
      TakesAt (.heldDeadline b) t p fun q => q.burners[b] = p.burners[b].cleared .off ∧
        Reported ⟨.burner, b.val, 0, false, q.now, 0, none⟩ q)

/-- IGNITION_DEADLINE and FLAME_FAIL_TIME (R82, R84, R88, R146, R156): LIGHT-OFF FAIL or FLAME FAIL trips the burner and falls
in one event; the point is left CLEARED, the horn sounds, and the first-out record names it unless one stood before.
That the horn sounds on where other conditions fall in that event is the model's choice (`Part.keepHorn`, log 10). A row whose instant lies ahead changes nothing (`TakesAt`, the model's choice, log 3). -/
def Obligations.BurnerFailuresTrip : Prop :=
  ∀ (p : Part) (b : Fin 2), p.started = true → p.burners[b].cfg.used = true →
    (p.burners[b].state ≠ .igniting ∨ p.burners[b].ignition = none → Takes (.ignitionDeadline b) p p) ∧
    (p.burners[b].state.fires = false ∨ p.burners[b].absent = none → Takes (.flameFailTime b) p p) ∧
    let tripped := fun (i : Fin 62) (q : Part) =>
      p.alarms.points[i].state = .normal → p.alarms.points[i].eff = false → p.alarms.points[i].shelvedUntil = none →
        q.burners[b] = p.burners[b].cleared .tripped ∧ q.field.output.igniter[b] = false ∧ ¬ q.holdsFor 0 b.val ∧
        q.alarms.points[i].state = .cleared ∧ q.alarms.points[i].lastActivation = some p.now ∧
        q.alarms.seen.trip = true ∧ q.alarms.tripNew = true ∧ q.alarms.horn = true ∧ q.field.output.horn = true ∧
        (p.alarms.firstOut = none → ∃ r, q.alarms.firstOut = some r ∧ r.point = i ∧ r.time = p.now)
    (∀ t, p.burners[b].state = .igniting → p.burners[b].ignition = some t →
      TakesAt (.ignitionDeadline b) t p (tripped (if b = 0 then 11 else 15))) ∧
    (∀ t, p.burners[b].state = .loading ∨ p.burners[b].state = .firing → p.burners[b].flameFail = false →
      p.burners[b].absent = some t →
        TakesAt (.flameFailTime b) (later t (p.burners[b].cfg.flameFail * 1000)) p (tripped (if b = 0 then 10 else 14)))

/-- The first checks of commands that name an object (R80, R86, R89, R92, R114, R124, R127, R128, R133, R134, R143, R144,
R150): lifecycle, number, use. -/
def Obligations.ObjectNumbersChecked : Prop :=
  (∀ (p : Part) (cmd : Byte) (row : Nat → Instr) (m0 m1 m2 m3 m4 m5 : Nat), (cmd, row) ∈ ([(0x2A, .startBurner),
      (0x2B, .stopBurner), (0x2C, .resumeBurner), (0x2D, .resetTripBurner),
      (0x34, fun n => .setMix n m0 m1 m2 m3 m4 m5)] : List (Byte × (Nat → Instr))) →
    (p.started = false → ∀ n, Takes (row n) p (p.answer cmd.toNat .wrongLifecycle [])) ∧
    (p.started = true → ∀ n, 2 ≤ n → Takes (row n) p (p.answer cmd.toNat .badOperand [])) ∧
    (p.started = true → ∀ b : Fin 2, p.burners[b].cfg.used = false →
      Takes (row b.val) p (p.answer cmd.toNat .unusedObject []))) ∧
  (∀ (p : Part) (cmd : Byte) (row : Nat → Instr), (cmd, row) ∈ ([(0x39, .startFan), (0x3A, .stopFan),
      (0x3B, .resetFan)] : List (Byte × (Nat → Instr))) →
    (p.started = false → ∀ n, Takes (row n) p (p.answer cmd.toNat .wrongLifecycle [])) ∧
    (p.started = true → ∀ n, 4 ≤ n → Takes (row n) p (p.answer cmd.toNat .badOperand [])) ∧
    (p.started = true → ∀ f : Fin 4, p.fans[f].cfg.used = false →
      Takes (row f.val) p (p.answer cmd.toNat .unusedObject []))) ∧
  (∀ (p : Part) (cmd : Byte) (row : Nat → Instr), (cmd, row) ∈ ([(0x48, .acknowledge), (0x2D, .resetTripPoint),
      (0x4A, .resetAlarm)] : List (Byte × (Nat → Instr))) →
    (p.started = false → ∀ n, Takes (row n) p (p.answer cmd.toNat .wrongLifecycle [])) ∧
    (p.started = true → ∀ n, 62 ≤ n → Takes (row n) p (p.answer cmd.toNat .badOperand []))) ∧
  (∀ (p : Part) (cmd : Byte) (row : Nat → Instr), (cmd, row) ∈ ([(0x4E, .raiseExternal), (0x4F, .clearExternal)] :
      List (Byte × (Nat → Instr))) →
    (p.started = false → ∀ n, Takes (row n) p (p.answer cmd.toNat .wrongLifecycle [])) ∧
    (p.started = true → ∀ n, 16 ≤ n → Takes (row n) p (p.answer cmd.toNat .badOperand [])) ∧
    (p.started = true → ∀ n : Fin 16, p.alarms.ext[n].used = false →
      Takes (row n.val) p (p.answer cmd.toNat .unusedObject [])) ∧
    (p.started = true → ∀ n : Fin 16, p.alarms.ext[n].used = true → p.alarms.ext[n].source = .field →
      Takes (row n.val) p (p.answer cmd.toNat .wrongState []))) ∧
  (∀ (p : Part) (cmd : Byte) (row : Instr) (pressure : Nat), (cmd, row) ∈ ([(0x3D, .startGrate), (0x3E, .stopGrate),
      (0x3F, .setBedPressure pressure)] : List (Byte × Instr)) →
    (p.started = false → Takes row p (p.answer cmd.toNat .wrongLifecycle [])) ∧
    (p.started = true → p.grate.cfg.used = false → Takes row p (p.answer cmd.toNat .unusedObject [])))

/-! ## Feeders (chapter 6) -/

/-- SET MIX and MIX_RAMP_STEP (R114 to R117): the check of the six fractions, the mix replaced at once outside LOADING and
FIRING, a mix ramp made, retargeted or ended there; the cumulative mix of a step, its sum of 1000, and at the last step
the target mix with MIX-CHANGE released.
A row whose instant lies ahead changes nothing (`TakesAt`, the model's choice, log 3). -/
def Obligations.MixChanges : Prop :=
  (∀ (p : Part) (b : Fin 2) (m : Vector Nat 6), p.started = true → p.burners[b].cfg.used = true →
    let row := Instr.setMix b.val m[0] m[1] m[2] m[3] m[4] m[5]
    let good := (∀ f : Fin 6, m[f] ≤ 1000) ∧ (∀ f : Fin 6, f ∉ p.feedersOf b → m[f] = 0) ∧
      ((p.feedersOf b).map fun f => m[f]).sum = 1000
    (¬ good → Takes row p (p.answer 0x34 .badOperand [])) ∧
    (good → p.burners[b].state.fires = true → p.ramps[b] = none → p.line.silent = true →
      Takes row p (p.answer 0x34 .noLine [])) ∧
    (good → p.ramps[b] = none → p.burners[b].state.fires = false → ∃ q, Takes row p q ∧
      q.host = p.host.answered 0x34 .done [] ∧ q.ramps = p.ramps ∧
      ∀ f : Fin 6, q.feeders[f].mix = if f ∈ p.feedersOf b then m[f] else p.feeders[f].mix) ∧
    (good → p.ramps[b] = none → p.burners[b].state.fires = true → p.line.silent = false → ∃ q, Takes row p q ∧
      q.host = p.host.answered 0x34 .done [] ∧ (∀ f : Fin 6, q.feeders[f].mix = p.feeders[f].mix) ∧
      (m = p.presentMix b → q.ramps[b] = none) ∧
      (m ≠ p.presentMix b → q.ramps[b] = some ⟨false, p.presentMix b, m, p.cfg.mixTime, 0, 0⟩ ∧
        (b.val ∈ q.claims[(2 : Fin 3)].waitList ∨ q.holdsFor 2 b.val))) ∧
    (∀ r, good → p.ramps[b] = some r → ∃ q, Takes row p q ∧
      q.host = p.host.answered 0x34 .done [] ∧ (∀ f : Fin 6, q.feeders[f].mix = p.feeders[f].mix) ∧
      (m = p.presentMix b → q.ramps[b] = none ∧ ¬ q.holdsFor 2 b.val) ∧
      (m ≠ p.presentMix b → q.ramps[b] =
        some { r with target := m, old := p.presentMix b, elapsed := 0, nextStep := nextMultiple p.now 1000 }))) ∧
  (∀ (p : Part) (b : Fin 2),
    (p.ramps[b] = none → Takes (.mixRampStep b) p p) ∧
    ∀ r, p.ramps[b] = some r →
      (r.ramping = false → Takes (.mixRampStep b) p p) ∧
      (r.ramping = true → 0 < r.time → r.elapsed < r.time → TakesAt (.mixRampStep b) r.nextStep p fun q =>
        (∀ f ∈ p.feedersOf b,
          (((p.feedersOf b).filter (· ≤ f)).map fun g => q.feeders[g].mix).sum =
            ((((p.feedersOf b).filter (· ≤ f)).map fun g => r.old[g]).sum * (r.time - (r.elapsed + 1)) +
              (((p.feedersOf b).filter (· ≤ f)).map fun g => r.target[g]).sum * (r.elapsed + 1)) / r.time) ∧
        (∀ f : Fin 6, f ∉ p.feedersOf b → q.feeders[f].mix = p.feeders[f].mix) ∧
        (((p.feedersOf b).map fun f => r.old[f]).sum = 1000 → ((p.feedersOf b).map fun f => r.target[f]).sum = 1000 →
          ((p.feedersOf b).map fun f => q.feeders[f].mix).sum = 1000) ∧
        (r.elapsed + 1 < r.time → q.ramps[b] =
          some { r with elapsed := r.elapsed + 1, nextStep := nextMultiple r.nextStep 1000 }) ∧
        (r.elapsed + 1 = r.time → q.ramps[b] = none ∧ ¬ q.holdsFor 2 b.val ∧
          ∀ f ∈ p.feedersOf b, q.feeders[f].mix = r.target[f])))

/-- FEEDER_CONTROL_PERIOD (R70, R83, R87, R100, R101, R103 to R109, R112, R113): the next period set; at a second boundary the
kg and kWh completed, the running second, and the bucket closed into the ring; each used feeder's setpoint moved, its state
found again, its trim, its outputs and its two timers; the station's delivered heat from the measured rates; and the ends
of LOADING and STOPPING.
That the running second is counted on the state before it is found again is the model's choice (log 33). A row whose instant lies ahead changes nothing (`TakesAt`, the model's choice, log 3). -/
def Obligations.ControlPeriodTotals : Prop :=
  ∀ p : Part,
    (p.started = false → Takes .feederControlPeriod p p) ∧
    (p.started = true → TakesAt .feederControlPeriod p.nextFeeder p fun q =>
      q.nextFeeder = nextMultiple p.nextFeeder 200 ∧
      q.alloc.delivered = min 65535
        ((2 * ((feederIds.filter fun f => p.feeders[f].cfg.used).map fun f => q.feeders[f].rate * q.cvOf f).sum + 36000) /
          72000) ∧
      (∀ f : Fin 6,
        let x := p.feeders[f]
        let y := q.feeders[f]
        let runs := x.state = .running ∨ (x.state = .inLocal ∧ p.field.image.running[f] = ⟨true, true⟩)
        let ring := (x.ring ++ [x.bucket]).drop ((x.ring ++ [x.bucket]).length - x.cfg.window)
        (p.nextFeeder % 1000 = 0 → x.cfg.used = true →
          y.kg = x.kg + BitVec.ofNat 32 ((x.gramRem + x.bucket * x.cfg.weight) / 1000) ∧
          y.gramRem = (x.gramRem + x.bucket * x.cfg.weight) % 1000 ∧
          y.kWh = x.kWh + BitVec.ofNat 32 ((x.energyRem + x.bucket * x.cfg.weight * p.cvOf f) / 3600000) ∧
          y.energyRem = (x.energyRem + x.bucket * x.cfg.weight * p.cvOf f) % 3600000 ∧
          (runs → y.seconds = x.seconds + 1) ∧ (¬ runs → y.seconds = x.seconds) ∧ y.bucket = 0 ∧ y.whole = true ∧
          (x.whole = true → y.ring = ring ∧ y.measBad = false ∧ y.rate = ringRate ring x.cfg.weight) ∧
          (x.whole = false → y.ring = x.ring ∧ y.measBad = x.measBad ∧ y.rate = x.rate)) ∧
        (p.nextFeeder % 1000 ≠ 0 ∨ x.cfg.used = false →
          y.kg = x.kg ∧ y.kWh = x.kWh ∧ y.seconds = x.seconds ∧ y.bucket = x.bucket ∧ y.ring = x.ring ∧ y.rate = x.rate)) ∧
      (∀ f : Fin 6, p.feeders[f].cfg.used = true → p.feeders[f].state ≠ .unused →
        let x := p.feeders[f]
        let y := q.feeders[f]
        let b := p.burners[x.cfg.burner]
        let target := p.alloc.massF[f]
        let apart := if x.setpoint ≤ target then target - x.setpoint else x.setpoint - target
        let step := (x.rampRem + x.cfg.ramp) / 5
        let moved := if x.state ≠ .running then 0 else if apart ≤ step then target
          else if x.setpoint < target then x.setpoint + step else x.setpoint - step
        let wanted := (b.state = .igniting ∧ b.cfg.feeder = f) ∨
          ((b.state = .loading ∨ b.state = .firing) ∧ (0 < x.mix ∨ 0 < moved)) ∨ (b.state = .stopping ∧ 0 < moved)
        let before := if x.state = .running then x.trim else 0
        (x.state = .inLocal → y.state = .inLocal ∧ y.setpoint = y.rate) ∧
        (x.state ≠ .inLocal → p.field.image.inLocal[f] = ⟨false, true⟩ →
          (wanted → y.state = .running ∧ y.setpoint = moved) ∧ (¬ wanted → y.state = .stopped ∧ y.setpoint = 0)) ∧
        (x.state ≠ .inLocal → p.field.image.inLocal[f] ≠ ⟨false, true⟩ → y.state = x.state ∧ y.setpoint = moved) ∧
        (x.state = .running → y.state = .running → b.state ≠ .stopping →
          y.rampRem = if apart ≤ step then 0 else (x.rampRem + x.cfg.ramp) % 5) ∧
        (y.state = .running → y.trim =
          if y.measBad = false ∧ y.ring ≠ [] ∧ x.cfg.gain ≠ 0 then
            max (-200) (min 200 (before +
              Int.tdiv (((y.setpoint : Int) - y.rate) * 1000 * x.cfg.gain) (x.cfg.maxRate * 100)))
          else before) ∧
        (x.state = .running → y.state ≠ .running → y.trim = 0) ∧
        ((q.field.output.speed[f] : Int) = if y.state = .running then
            max 0 (min 1000 ((roundHalfUp (y.setpoint * 1000) x.cfg.maxRate : Nat) + y.trim)) else 0) ∧
        q.field.output.run[f] = decide (y.state = .running) ∧
        q.field.output.remote[f] = decide (y.state = .running ∨ y.state = .stopped) ∧
        (y.state = .running → y.measBad = false →
          (y.devTimer.isSome = true ↔ x.cfg.deviation < ((y.setpoint : Int) - y.rate).natAbs) ∧
          (y.noFlow.isSome = true ↔ 200 ≤ q.field.output.speed[f])) ∧
        (y.state ≠ .running ∨ y.measBad = true → y.devTimer = none ∧ y.noFlow = none)) ∧
      (∀ b : Fin 2,
        (p.burners[b].state = .loading → p.alloc.targetB[b] * 9 ≤ q.alloc.deliveredB[b] * 10 →
          q.burners[b].state = .firing ∧ ¬ q.holdsFor 0 b.val) ∧
        (p.burners[b].state = .loading → q.alloc.deliveredB[b] * 10 < p.alloc.targetB[b] * 9 →
          q.burners[b].state = .loading) ∧
        (p.burners[b].state = .stopping →
          ((∀ f ∈ p.feedersOf b, q.feeders[f].state = .inLocal ∨ q.feeders[f].setpoint = 0) →
            q.burners[b] = p.burners[b].cleared .off) ∧
          ((∃ f ∈ p.feedersOf b, q.feeders[f].state ≠ .inLocal ∧ q.feeders[f].setpoint ≠ 0) →
            q.burners[b] = p.burners[b])) ∧
        (p.burners[b].state ≠ .loading → p.burners[b].state ≠ .stopping → q.burners[b] = p.burners[b])))

/-- The timers of conditions (R61, R62, R85, R112, R113, R135): when one has run its time its condition is active from
then on, and the event settles; an air hold that ends with no air known leaves FALLBACK.
That DEVIATION and NO FLOW end with `Part.settle` is deduced (log 1); that a running fan count above 4 in a peer's contents
makes air known is the model's choice (log 34).
A row whose instant lies ahead changes nothing (`TakesAt`, the model's choice, log 3). -/
def Obligations.ConditionTimersPass : Prop :=
  ∀ p : Part,
    (∀ f : Fin 6,
      (∀ t, p.feeders[f].devTimer = some ⟨t, false⟩ → TakesAt (.deviationTime f) (later t 20000) p fun q =>
        q = Part.settle { p with feeders := p.feeders.set f { p.feeders[f] with devTimer := some ⟨t, true⟩ } }) ∧
      (∀ t, p.feeders[f].noFlow = some ⟨t, false⟩ → TakesAt (.noFlowTime f) (later t 10000) p fun q =>
        q = Part.settle { p with feeders := p.feeders.set f { p.feeders[f] with noFlow := some ⟨t, true⟩ } }) ∧
      ((∀ t, p.feeders[f].devTimer ≠ some ⟨t, false⟩) → Takes (.deviationTime f) p p) ∧
      ((∀ t, p.feeders[f].noFlow ≠ some ⟨t, false⟩) → Takes (.noFlowTime f) p p)) ∧
    (∀ b : Fin 2,
      (∀ t, p.burners[b].state = .firing → p.burners[b].weak = some ⟨t, false⟩ →
        TakesAt (.flameWeakTime b) (later t 5000) p fun q => q.burners[b] = { p.burners[b] with weak := some ⟨t, true⟩ } ∧
        (p.started = true → p.mode = .heatUp ∨ p.mode = .run →
          q.alarms.points[if b = 0 then (12 : Fin 62) else 16].eff = true)) ∧
      (p.burners[b].state ≠ .firing ∨ (∀ t, p.burners[b].weak ≠ some ⟨t, false⟩) →
        Takes (.flameWeakTime b) p p)) ∧
    (∀ t, p.grate.bedHigh = some ⟨t, false⟩ → TakesAt .bedPressureHighTime (later t 10000) p fun q =>
      q.grate = { p.grate with bedHigh := some ⟨t, true⟩ } ∧
      (p.started = true → p.grate.cfg.used = true → p.mode = .heatUp ∨ p.mode = .run → q.alarms.points[(44 : Fin 62)].eff = true)) ∧
    ((∀ t, p.grate.bedHigh ≠ some ⟨t, false⟩) → Takes .bedPressureHighTime p p) ∧
    (p.alloc.ceilState ≠ .hold ∨ p.alloc.holdDeadline = none → Takes .airHoldExpiry p p) ∧
    (∀ t, p.alloc.ceilState = .hold → p.alloc.holdDeadline = some t → TakesAt .airHoldExpiry t p fun q =>
      (p.started = true → p.cfg.zone ≠ .none → p.cfg.airCeiling = true → p.airKnown = false →
        q.alloc.ceilState = .fallback ∧ q.alloc.ceiling = some p.cfg.fallback ∧ q.alloc.holdDeadline = none ∧
        q.alloc.dEff = min q.alloc.demand p.cfg.fallback ∧
        q.alloc.airLimited = decide (p.cfg.fallback < q.alloc.demand)))

/-! ## Cooler (chapter 7) -/

/-- Fan commands on a used fan (R123, R124, R127, R128): START_WAIT with a request for HEAVY-START, STOPPED with the outputs
off and HEAVY-START given up, or refused; RESET FAN wants the run feedback seen negated. -/
def Obligations.FanCommands : Prop :=
  ∀ (p : Part) (n : Fin 4), p.started = true → p.fans[n].cfg.used = true →
    (p.fans[n].state ≠ .stopped → Takes (.startFan n.val) p (p.answer 0x39 .wrongState [])) ∧
    (p.fans[n].state = .stopped → p.line.silent = true → Takes (.startFan n.val) p (p.answer 0x39 .noLine [])) ∧
    (p.fans[n].state = .stopped → p.line.silent = false → ∃ q, Takes (.startFan n.val) p q ∧
      q.host = p.host.answered 0x39 .done [] ∧ q.fans[n] = p.fans[n].cleared .startWait ∧
      (n.val ∈ q.claims[(1 : Fin 3)].waitList ∨ q.holdsFor 1 n.val) ∧
      Reported ⟨.fan, n.val, 2, false, p.now, 0, none⟩ q) ∧
    (p.fans[n].state = .startWait ∨ p.fans[n].state = .starting ∨ p.fans[n].state = .running →
      ∃ q, Takes (.stopFan n.val) p q ∧ q.host = p.host.answered 0x3A .done [] ∧
        q.fans[n] = p.fans[n].cleared .stopped ∧ ¬ q.holdsFor 1 n.val ∧
        q.field.output.fanRun[n] = false ∧ q.field.output.fanSpeed[n] = 0 ∧
        Reported ⟨.fan, n.val, 1, false, p.now, 0, none⟩ q) ∧
    (p.fans[n].state = .unused ∨ p.fans[n].state = .stopped ∨ p.fans[n].state = .tripped →
      Takes (.stopFan n.val) p (p.answer 0x3A .wrongState [])) ∧
    (p.fans[n].state ≠ .tripped → Takes (.resetFan n.val) p (p.answer 0x3B .wrongState [])) ∧
    (p.fans[n].state = .tripped → p.field.image.fanRun[n] ≠ ⟨false, true⟩ →
      Takes (.resetFan n.val) p (p.answer 0x3B .permissive [])) ∧
    (p.fans[n].state = .tripped → p.field.image.fanRun[n] = ⟨false, true⟩ →
      ∃ q, Takes (.resetFan n.val) p q ∧ q.host = p.host.answered 0x3B .done [] ∧
        q.fans[n] = p.fans[n].cleared .stopped ∧ Reported ⟨.fan, n.val, 1, false, p.now, 0, none⟩ q)

/-- FAN_START_DEADLINE, FAN_FEEDBACK_LOSS and HELD_FLOW_EXPIRY (R125, R126, R131, R156): a start that fails and a feedback that is
lost leave the fan TRIPPED, its outputs off, its point raised and fallen in one event, with the horn on where the point was
NORMAL, and turned off where it was only asserted again and no TRIP or ALARM point stands in ACTIVE; a held flow ends, and
is not armed again in the same spell of BAD flow (deduced, log 27).
That the horn sounds on where other conditions fall in that event is the model's choice (`Part.keepHorn`, log 10). A row whose instant lies ahead changes nothing (`TakesAt`, the model's choice, log 3). -/
def Obligations.FanTimersTrip : Prop :=
  ∀ (p : Part) (n : Fin 4),
    (p.fans[n].state ≠ .starting ∨ p.fans[n].startUntil = none → Takes (.fanStartDeadline n) p p) ∧
    (p.fans[n].state ≠ .running ∨ p.fans[n].fbLoss = none → Takes (.fanFeedbackLoss n) p p) ∧
    (p.fans[n].holdUntil = none → Takes (.heldFlowExpiry n) p p) ∧
    (∀ t, p.fans[n].holdUntil = some t → TakesAt (.heldFlowExpiry n) t p fun q => q =
      { p with fans := p.fans.set n { p.fans[n] with heldFlow := none, holdUntil := none, holdSpent := true } }) ∧
    let tripped := fun (i : Nat) (q : Part) =>
      q.fans[n] = p.fans[n].cleared .tripped ∧ ¬ q.holdsFor 1 n.val ∧
        q.field.output.fanRun[n] = false ∧ q.field.output.fanSpeed[n] = 0 ∧
        Reported ⟨.fan, n.val, 5, false, q.now, 0, none⟩ q ∧
        ∀ j : Fin 62, j.val = i → Reasserted j p q ∧
          (p.started = true → p.alarms.points[j].state = .normal → p.alarms.points[j].eff = false →
            p.alarms.points[j].shelvedUntil = none →
            q.alarms.points[j].state = .cleared ∧ q.alarms.points[j].lastActivation = some q.now ∧
              q.alarms.horn = true ∧ q.field.output.horn = true)
    (∀ t, p.fans[n].state = .starting → p.fans[n].startUntil = some t →
      TakesAt (.fanStartDeadline n) t p (tripped (37 + 2 * n.val))) ∧
    (∀ t, p.fans[n].state = .running → p.fans[n].fbLoss = some t →
      TakesAt (.fanFeedbackLoss n) (later t 2000) p (tripped (36 + 2 * n.val)))

/-- The grate's rows (R133, R134, R156): START GRATE at the minimum speed, STOP GRATE with the outputs off, SET BED PRESSURE
held to its limits and answered CLAMPED, and GRATE_FEEDBACK_LOSS, which stops the grate and raises GRATE DRIVE FAULT with
its horn; where that point was only asserted again, its fall turns the horn off if no TRIP or ALARM point stands in ACTIVE.
That the horn sounds on where other conditions fall in that event is the model's choice (`Part.keepHorn`, log 10). A row whose instant lies ahead changes nothing (`TakesAt`, the model's choice, log 3). -/
def Obligations.GrateRows : Prop :=
  ∀ p : Part,
    (p.grate.state ≠ .running ∨ p.grate.fbLoss = none → Takes .grateFeedbackLoss p p) ∧
    (∀ t, p.grate.state = .running → p.grate.fbLoss = some t → TakesAt .grateFeedbackLoss (later t 2000) p fun q =>
      q.grate = { p.grate with state := .stopped, fbLoss := none, fault := false } ∧
      q.field.output.grateRun = false ∧ q.field.output.grateSpeed = 0 ∧
      Reported ⟨.grate, 0, 1, false, q.now, 0, none⟩ q ∧ Reasserted 45 p q ∧
      (p.started = true → p.alarms.points[(45 : Fin 62)].state = .normal → p.alarms.points[(45 : Fin 62)].eff = false →
        p.alarms.points[(45 : Fin 62)].shelvedUntil = none →
        q.alarms.points[(45 : Fin 62)].state = .cleared ∧ q.alarms.tripNew = true ∧ q.alarms.horn = true ∧
        q.field.output.horn = true ∧
        ∀ b : Fin 2, p.burners[b].cfg.used = true → q.burners[b].out)) ∧
    (p.started = true → p.grate.cfg.used = true →
      (p.grate.state = .stopped → ∃ q, Takes .startGrate p q ∧ q.host = p.host.answered 0x3D .done [] ∧
        q.grate = { p.grate with state := .running, fbLoss := none, fault := false } ∧
        q.field.output.grateRun = true ∧ q.field.output.grateSpeed = p.grate.cfg.minSpeed ∧
        Reported ⟨.grate, 0, 2, false, p.now, 0, none⟩ q) ∧
      (p.grate.state ≠ .stopped → Takes .startGrate p (p.answer 0x3D .wrongState [])) ∧
      (p.grate.state = .running → ∃ q, Takes .stopGrate p q ∧ q.host = p.host.answered 0x3E .done [] ∧
        q.grate = { p.grate with state := .stopped, fbLoss := none, fault := false } ∧
        q.field.output.grateRun = false ∧ q.field.output.grateSpeed = 0 ∧
        Reported ⟨.grate, 0, 1, false, p.now, 0, none⟩ q) ∧
      (p.grate.state ≠ .running → Takes .stopGrate p (p.answer 0x3E .wrongState [])) ∧
      ∀ sp : Nat,
        (20000 < sp → Takes (.setBedPressure sp) p (p.answer 0x3F .badOperand [])) ∧
        (sp ≤ 20000 → p.grate.cfg.low ≤ sp → sp ≤ p.grate.cfg.high → Takes (.setBedPressure sp) p
          (Part.answer 0x3F .done [] { p with grate := { p.grate with psp := sp } })) ∧
        (sp ≤ 20000 → sp < p.grate.cfg.low → Takes (.setBedPressure sp) p
          (Part.answer 0x3F .clamped [] { p with grate := { p.grate with psp := p.grate.cfg.low } })) ∧
        (sp ≤ 20000 → p.grate.cfg.low ≤ sp → p.grate.cfg.high < sp → Takes (.setBedPressure sp) p
          (Part.answer 0x3F .clamped [] { p with grate := { p.grate with psp := p.grate.cfg.high } })))

/-- COOLING_PERIOD (R130, R131, R134): setpoints of the RUNNING fans from their reference heat, speed commands from valid
flows, the grate's speed from a valid pressure, and the air allowances of the two destinations.
A row whose instant lies ahead changes nothing (`TakesAt`, the model's choice, log 3). -/
def Obligations.CoolingPeriodControls : Prop :=
  ∀ p : Part,
    (p.started = false → Takes .coolingPeriod p p) ∧
    (p.started = true → TakesAt .coolingPeriod p.nextCool p fun q =>
      q.nextCool = nextMultiple p.nextCool 1000 ∧
      (∀ n : Fin 4,
        let c := p.fans[n].cfg
        let sp := max c.minFlow (min c.maxFlow (c.base + p.referenceHeat c.destination * c.apf / 100))
        (p.fans[n].state = .running → c.minFlow ≤ c.maxFlow → q.fans[n].sp = sp ∧
          (p.field.image.flow[n].valid = true → (q.field.output.fanSpeed[n] : Int) =
            max 100 (min 1000 (p.field.output.fanSpeed[n] +
              max (-20) (min 20 (Int.tdiv (((sp : Int) - p.field.image.flow[n].value) * c.gain) 1000)))))) ∧
        (p.fans[n].state ≠ .running ∨ p.field.image.flow[n].valid = false →
          q.field.output.fanSpeed[n] = p.field.output.fanSpeed[n]) ∧
        (p.fans[n].state ≠ .running → q.fans[n].sp = p.fans[n].sp) ∧ q.fans[n].state = p.fans[n].state) ∧
      (p.grate.state = .running → p.field.image.bed.valid = true → p.grate.cfg.minSpeed ≤ p.grate.cfg.maxSpeed →
        (q.field.output.grateSpeed : Int) = max (p.grate.cfg.minSpeed : Int) (min p.grate.cfg.maxSpeed
          (p.field.output.grateSpeed + max (-10) (min 10
            (Int.tdiv (((p.field.image.bed.value : Int) - p.grate.psp) * p.grate.cfg.gain) 1000))))) ∧
      (p.grate.state ≠ .running ∨ p.field.image.bed.valid = false →
        q.field.output.grateSpeed = p.field.output.grateSpeed) ∧
      let flow := fun n : Fin 4 =>
        if p.fans[n].state = .running then
          (if p.field.image.flow[n].valid then some p.field.image.flow[n].value else p.fans[n].heldFlow)
        else none
      let counted := fun d : Destination => fanIds.filter fun n => p.fans[n].cfg.destination = d ∧ flow n ≠ none
      let allowance := fun d => min 65535
        ((counted d).map fun n => min 65535 ((flow n).getD 0 * p.fans[n].cfg.airFactor / 100)).sum
      q.air = ⟨allowance .secondary, allowance .tertiary, (counted .secondary).length, (counted .tertiary).length⟩)

/-! ## Alarms (chapter 8) -/

/-- ACKNOWLEDGE, ACKNOWLEDGE ALL, RESET TRIP of a point and RESET ALARM (R143, R144, R156): the tables of the two rules; an
acknowledgement turns the horn off when no TRIP or ALARM point stands in ACTIVE. -/
def Obligations.PointsAcknowledgedAndReset : Prop :=
  let acked := fun (p : Part) (i : Fin 62) =>
    match p.alarms.points[i].state with
    | .active => PointState.activeAcked
    | .cleared => if (p.pointAttr i).latching then .clearedAcked else .normal
    | s => s
  let sounding := fun (p q : Part) => ∃ i : Fin 62, q.alarms.points[i].state = .active ∧
    ((p.pointAttr i).cls = .trip ∨ (p.pointAttr i).cls = .alarm)
  ∀ p : Part, p.started = true →
    (∀ i : Fin 62,
      (p.alarms.points[i].state = .active ∨ p.alarms.points[i].state = .cleared →
        ∃ q, Takes (.acknowledge i.val) p q ∧ q.host = p.host.answered 0x48 .done [] ∧
          q.alarms.points = p.alarms.points.set i { p.alarms.points[i] with state := acked p i } ∧
          (¬ sounding p q → q.alarms.horn = false ∧ q.field.output.horn = false) ∧
          (sounding p q → q.alarms.horn = p.alarms.horn) ∧ q.alarms.events = p.alarms.events) ∧
      (p.alarms.points[i].state ≠ .active → p.alarms.points[i].state ≠ .cleared →
        Takes (.acknowledge i.val) p (p.answer 0x48 .wrongState []))) ∧
    (∃ q, Takes .acknowledgeAll p q ∧ q.host = p.host.answered 0x49 .done [] ∧
      (∀ i : Fin 62, q.alarms.points[i] = { p.alarms.points[i] with state := acked p i }) ∧
      q.alarms.horn = false ∧ q.field.output.horn = false ∧ q.alarms.events = p.alarms.events) ∧
    (∀ (cmd : Byte) (row : Nat → Instr) (i : Fin 62),
      (cmd = 0x2D ∧ row = .resetTripPoint ∧ (p.pointAttr i).cls = .trip) ∨
        (cmd = 0x4A ∧ row = .resetAlarm ∧ (p.pointAttr i).cls ≠ .trip ∧ (p.pointAttr i).latching = true) →
      (p.alarms.points[i].state = .clearedAcked → Takes (row i.val) p (Part.answer cmd.toNat .done []
        { p with alarms := { p.alarms with
          points := p.alarms.points.set i { p.alarms.points[i] with state := .normal } } })) ∧
      (p.alarms.points[i].state ≠ .clearedAcked → Takes (row i.val) p (p.answer cmd.toNat .wrongState []))) ∧
    (∀ i : Fin 62, (p.pointAttr i).cls ≠ .trip → Takes (.resetTripPoint i.val) p (p.answer 0x2D .badOperand [])) ∧
    (∀ i : Fin 62, (p.pointAttr i).cls = .trip ∨ (p.pointAttr i).latching = false →
      Takes (.resetAlarm i.val) p (p.answer 0x4A .badOperand []))

/-- SHELVE, UNSHELVE and SHELVING_EXPIRY with the window OPEN (R148, R190): the checks in their order, the point forced to
NORMAL and shelved; at the end of the shelving an activation if its effective condition stands; if it does not, the mark is
removed and the event settles (`Part.settleAll`, deduced, log 1).
A row whose instant lies ahead changes nothing (`TakesAt`, the model's choice, log 3). The renewal of the window's deadline
(R190) keeps in `lapsed`, the model's own mark, whether it had passed (log 29). -/
def Obligations.ShelvingRows : Prop :=
  ∀ p : Part,
    (p.host.window.isSome = true →
      (p.started = false → ∀ n m, Takes (.shelve n m) p (p.answer 0x4B .wrongLifecycle []) ∧
        Takes (.unshelve n) p (p.answer 0x4C .wrongLifecycle [])) ∧
      (p.started = true → ∀ n m, 62 ≤ n → Takes (.shelve n m) p (p.answer 0x4B .badOperand []) ∧
        Takes (.unshelve n) p (p.answer 0x4C .badOperand [])) ∧
      (p.started = true → ∀ (i : Fin 62) (m : Nat),
        ((p.pointAttr i).cls = .trip ∨ (p.pointAttr i).cls = .alarm ∨ m = 0 ∨ 480 < m →
          Takes (.shelve i.val m) p (p.answer 0x4B .badOperand [])) ∧
        ((p.pointAttr i).cls = .warning ∨ (p.pointAttr i).cls = .notice → 1 ≤ m → m ≤ 480 →
          Takes (.shelve i.val m) p { p with
            alarms := { p.alarms with points := p.alarms.points.set i { p.alarms.points[i] with
              state := .normal, shelvedUntil := some (later p.now (m * 60000)) } },
            host := p.host.renewed 0x4B p.now }) ∧
        (p.alarms.points[i].shelvedUntil = none → Takes (.unshelve i.val) p (p.answer 0x4C .wrongState [])) ∧
        (p.alarms.points[i].shelvedUntil.isSome = true → p.alarms.points[i].eff = false →
          Takes (.unshelve i.val) p { Part.settleAll { p with alarms := { p.alarms with
            points := p.alarms.points.set i { p.alarms.points[i] with shelvedUntil := none } } } with
            host := p.host.renewed 0x4C p.now }) ∧
        (p.alarms.points[i].shelvedUntil.isSome = true → p.alarms.points[i].eff = true →
          ∃ q, Takes (.unshelve i.val) p q ∧ q.host = p.host.renewed 0x4C p.now ∧
            q.alarms.points[i].shelvedUntil = none ∧ q.alarms.points[i].lastActivation = some p.now ∧
            (q.alarms.points[i].state = .active ∨ q.alarms.points[i].state = .cleared)))) ∧
    ∀ i : Fin 62,
      (p.alarms.points[i].shelvedUntil = none → Takes (.shelvingExpiry i) p p) ∧
      (∀ t, p.alarms.points[i].shelvedUntil = some t → p.alarms.points[i].eff = false →
        TakesAt (.shelvingExpiry i) t p fun q => q = Part.settleAll { p with alarms := { p.alarms with
          points := p.alarms.points.set i { p.alarms.points[i] with shelvedUntil := none } } }) ∧
      (∀ t, p.alarms.points[i].shelvedUntil = some t → p.alarms.points[i].eff = true →
        TakesAt (.shelvingExpiry i) t p fun q =>
          q.alarms.points[i].shelvedUntil = none ∧ q.alarms.points[i].lastActivation = some q.now ∧
          (q.alarms.points[i].state = .active ∨ q.alarms.points[i].state = .cleared))

/-- RAISE EXTERNAL and CLEAR EXTERNAL of a HOST-sourced point (R150, R141, R142, R146): the condition taken, the point moved
by the table of R142, and a TRIP activation that trips the burners bound to it. -/
def Obligations.ExternalConditionsMovePoints : Prop :=
  ∀ (p : Part) (n : Fin 16) (i : Fin 62), i.val = 46 + n.val → p.started = true → p.alarms.ext[n].used = true →
    p.alarms.ext[n].source = .host →
    (∃ q, Takes (.raiseExternal n.val) p q ∧ q.host = p.host.answered 0x4E .done [] ∧
      q.alarms.ext = p.alarms.ext.set n { p.alarms.ext[n] with cond := true } ∧
      (p.mode.armed p.alarms.ext[n].attr.mask = true → p.alarms.points[i].eff = false →
        p.alarms.points[i].shelvedUntil = none →
        q.alarms.points[i].eff = true ∧
        (p.alarms.points[i].state = .normal ∨ p.alarms.points[i].state = .cleared →
          q.alarms.points[i].state = .active ∧ q.alarms.points[i].lastActivation = some p.now ∧
          (p.alarms.ext[n].attr.cls = .trip → q.alarms.tripNew = true ∧ q.alarms.seen.trip = true ∧
            ∀ b : Fin 2, p.burners[b].cfg.used = true →
              p.alarms.ext[n].attr.binding = .station ∨ p.alarms.ext[n].attr.binding = .burner b → q.burners[b].out) ∧
          (p.alarms.ext[n].attr.latching = true → q.alarms.autoResume = false)) ∧
        (p.alarms.points[i].state = .clearedAcked → q.alarms.points[i].state = .activeAcked) ∧
        (p.alarms.points[i].state = .active ∨ p.alarms.points[i].state = .activeAcked →
          q.alarms.points[i].state = p.alarms.points[i].state))) ∧
    (∃ q, Takes (.clearExternal n.val) p q ∧ q.host = p.host.answered 0x4F .done [] ∧
      q.alarms.ext = p.alarms.ext.set n { p.alarms.ext[n] with cond := false } ∧ q.alarms.points[i].eff = false ∧
      (p.alarms.points[i].eff = true → p.alarms.points[i].shelvedUntil = none →
        (p.alarms.points[i].state = .active → q.alarms.points[i].state = .cleared) ∧
        (p.alarms.points[i].state = .activeAcked → q.alarms.points[i].state =
          if p.alarms.ext[n].attr.latching then .clearedAcked else .normal)))

/-- DISCARD PEER TRIP with the window OPEN, and the rows of first-out, summary and horn (R153 to R156).
That CLEAR SUMMARY ends with `Part.settleAll` is deduced (log 1). The renewal of the window's deadline (R190) keeps in
`lapsed`, the model's own mark, whether it had passed (log 29). -/
def Obligations.TripSetFirstOutAndHorn : Prop :=
  ∀ p : Part,
    (p.host.window.isSome = true →
      (∀ s, s = 0 ∨ 16 < s ∨ s = p.strapStation.val + 1 →
        Takes (.discardPeerTrip s) p (p.answer 0x50 .badOperand [])) ∧
      (∀ x : Fin 16, x ≠ p.strapStation →
        (p.alarms.peerTrips[x] = none ∨ (p.fresh x).isSome = true →
          Takes (.discardPeerTrip (x.val + 1)) p (p.answer 0x50 .wrongState [])) ∧
        (p.alarms.peerTrips[x].isSome = true → p.fresh x = none → ∃ q, Takes (.discardPeerTrip (x.val + 1)) p q ∧
          q.alarms.peerTrips = p.alarms.peerTrips.set x none ∧ q.host = p.host.renewed 0x50 p.now ∧
          ((∀ y, y ≠ x → p.alarms.peerTrips[y] = none) → q.alarms.points[(2 : Fin 62)].eff = false)))) ∧
    (p.started = false → Takes .resetFirstOut p (p.answer 0x52 .wrongLifecycle []) ∧
      Takes .clearSummary p (p.answer 0x54 .wrongLifecycle []) ∧
      Takes .silenceHorn p (p.answer 0x55 .wrongLifecycle []) ∧
      Takes .acknowledgeAll p (p.answer 0x49 .wrongLifecycle [])) ∧
    (p.started = true →
      ((∃ i : Fin 62, (p.pointAttr i).cls = .trip ∧ p.alarms.points[i].state ≠ .normal) →
        Takes .resetFirstOut p (p.answer 0x52 .permissive [])) ∧
      ((∀ i : Fin 62, (p.pointAttr i).cls = .trip → p.alarms.points[i].state = .normal) →
        Takes .resetFirstOut p (Part.answer 0x52 .done []
          { p with alarms := { p.alarms with firstOut := none, tripNew := false } })) ∧
      Takes .silenceHorn p (Part.answer 0x55 .done []
        { p with alarms := { p.alarms with horn := false },
                 field := { p.field with output := { p.field.output with horn := false } } }) ∧
      Takes .clearSummary p { Part.settleAll { p with alarms := { p.alarms with
        seen := ⟨false, false, false, false⟩, autoResume := true } } with host := p.host.answered 0x54 .done [] })

/-! ## Shift records, field scan (chapters 9 and 10) -/

/-- CLOSE SHIFT (R165, R166, R171): its checks, the open record closed into the store at index 0, unread, and a new record
opened under the number given. -/
def Obligations.CloseShiftOpensNext : Prop :=
  ∀ (p : Part) (m : Nat),
    (p.started = false → Takes (.closeShift m) p (p.answer 0x58 .wrongLifecycle [])) ∧
    (p.started = true → m ≤ p.shift.number → Takes (.closeShift m) p (p.answer 0x58 .badOperand [])) ∧
    (p.started = true → p.shift.number < m → ∃ q, Takes (.closeShift m) p q ∧
      q.host = p.host.answered 0x58 .done [] ∧ q.shift.number = m ∧
      (p.line.silent = false → p.line.queue.length < 8 → ∃ f ∈ q.line.queue, f.body = .shift m) ∧
      Reported ⟨.shift, p.shift.number, 1, false, p.now, 0, none⟩ q ∧ Reported ⟨.shift, m, 0, false, p.now, 0, none⟩ q ∧
      (∃ r, q.shift.current = some r ∧ r.number = m ∧ r.origin = .command ∧ r.openTime = p.now ∧ r.closeTime = none ∧
        r.gap = decide (p.shift.number + 1 < m) ∧ r.incomplete = false ∧ r.note = none ∧
        r.engineering = p.host.window.isSome) ∧
      ∀ r, p.shift.current = some r →
        q.shift.store = (({ r with closeTime := some p.now, restarted := false }, false) :: p.shift.store).take 8 ∧
        q.shift.closedCause = true)

/-- WRITE SHIFT NOTE (R173): its check and effect, any number present as it is, the note kept through a renumbering and a
close, no note in a later record, and no engineering window needed. -/
def Obligations.ShiftNoteWritten : Prop :=
  (∀ (p : Part) (n : Nat),
    (p.started = false → Takes (.writeShiftNote n) p (p.answer 0x5A .wrongLifecycle [])) ∧
    (p.started = true → Takes (.writeShiftNote n) p (Part.answer 0x5A .done []
      { p with shift := { p.shift with current := p.shift.current.map fun r => { r with note := some n } } }))) ∧
  (∀ (p : Part) (m st : Nat) (r : ShiftRec), p.shift.current = some r →
    ∃ r', (p.renumber m st).shift.current = some r' ∧ r'.note = r.note) ∧
  (∀ (p : Part) (restarted : Bool) (r : ShiftRec), p.shift.current = some r →
    ∃ e, (p.closeRecord restarted).shift.store.head? = some e ∧ e.1.note = r.note) ∧
  (∀ (p : Part) (m : Nat) (o : OpenOrigin) (i g : Bool),
    ∃ r, (p.openRecord m o i g).shift.current = some r ∧ r.note = none)

/-- FIELD_SCAN_START and FIELD_SCAN_COMPLETE (R79, R81, R90, R100, R102, R110, R111, R125, R126, R131, R133, R135, R150, R175,
R177 to R180, R198, R200): the output block taken, all off while UNSTARTED, and clocked out in 312 bits, each byte from its most
significant bit, with FDO at 0 behind it; the input block that 312 bits of FDI make, each byte from its most significant bit;
the test of the block, the table of the scan state, the image and the counts; and the hand-on of the image: pulses, local
inputs, flames, permits, fan starts, held flows, feedback-loss timers (none begun from a held image), the bed-high timer, FIELD
conditions, and FIELD SCAN FAIL.
A row whose instant lies ahead changes nothing (`TakesAt`, the model's choice, log 3).
A completion with no scan in flight is taken as its own scan (log 16), and one spell of BAD flow arms a held flow once
(deduced, log 27). Flames, the bed-high timer and FIELD conditions are found while UNSTARTED too (deduced, log 11). -/
def Obligations.ScanStateTable : Prop :=
  (∀ p : Part,
    (TakesAt .fieldScanStart p.field.nextScan p fun q => q.field.inFlight = true ∧
      q.field.nextScan = nextMultiple p.field.nextScan 50 ∧ q.field.sentBlock.length = 28 ∧
      crc q.field.sentBlock = 0 ∧
      q.field.sentBlock.take 26 = (if p.started then p.field.output.bytes else List.replicate 26 0) ∧
      (q.field.fdoBits.length = 312 ∧ q.field.fdoBits.drop 224 = List.replicate 88 false ∧
        ∀ (n i : Nat) (b : Byte), i < 8 → q.field.sentBlock[n]? = some b →
          q.field.fdoBits[8 * n + i]? = some (b.getLsbD (7 - i))) ∧
      q.field.image = p.field.image ∧ q.field.state = p.field.state) ∧
    ∀ fdi : List Bool, fdi.length = 312 →
      let l := fieldBytes fdi
      let sound := crc (l.take 37) = BitVec.ofNat 16 (wordAt l 37)
      let ready := (l.getD 0 0).getLsbD 0 = true
      (l.length = 39 ∧ ∀ (n i : Nat) (b : Bool), i < 8 → fdi[8 * n + i]? = some b → (l.getD n 0).getLsbD (7 - i) = b) ∧
      ∃ q, Takes (.fieldScanComplete fdi) p q ∧ q.field.inFlight = false ∧ q.field.scans = p.field.scans + 1 ∧
        q.field.crcErrors = (if sound then p.field.crcErrors else p.field.crcErrors + 1) ∧
        q.field.notReady = (if sound ∧ ¬ ready then p.field.notReady + 1 else p.field.notReady) ∧
        (sound ∧ ready → q.field.lastGood = some p.now ∧
          (p.field.state = .good → q.field.state = .good ∧ q.field.image = .ofBlock l) ∧
          (p.field.state = .holding → q.field.state = .good ∧ q.field.image = .ofBlock l ∧ q.field.badRun = 0) ∧
          (p.field.state = .failed → p.field.goodRun < 2 → q.field.state = .failed ∧
            q.field.image = p.field.image.spoil ∧ q.field.goodRun = p.field.goodRun + 1) ∧
          (p.field.state = .failed → p.field.goodRun = 2 → q.field.state = .good ∧ q.field.image = .ofBlock l ∧
            q.field.badRun = 0 ∧ q.field.goodRun = 0)) ∧
        (¬ (sound ∧ ready) → q.field.lastGood = p.field.lastGood ∧
          (p.field.state = .good → q.field.state = .holding ∧ q.field.image = p.field.image ∧ q.field.badRun = 1) ∧
          (p.field.state = .holding → p.field.badRun < 3 → q.field.state = .holding ∧
            q.field.image = p.field.image ∧ q.field.badRun = p.field.badRun + 1) ∧
          (p.field.state = .holding → p.field.badRun = 3 → q.field.state = .failed ∧
            q.field.image = p.field.image.spoil ∧ q.field.badRun = 4 ∧ q.field.goodRun = 0 ∧
            q.field.failures = p.field.failures + 1) ∧
          (p.field.state = .failed → q.field.state = .failed ∧ q.field.image = p.field.image.spoil ∧
            q.field.goodRun = 0))) ∧
  (∀ (p : Part) (fdi : List Bool), ∃ q, Takes (.fieldScanComplete fdi) p q ∧
    q.alarms.points[(0 : Fin 62)].eff = (p.started && q.field.state == .failed) ∧
    (∀ f : Fin 6, p.started = true → p.feeders[f].cfg.used = true →
      let x := p.feeders[f]
      let y := q.feeders[f]
      let pulse := q.field.image.pulses[f]
      let sw := q.field.image.inLocal[f]
      let b := x.cfg.burner
      (pulse.valid = true → y.baseline = some pulse.value ∧ y.measBad = x.measBad ∧
        (x.baseline = none → y.bucket = x.bucket) ∧
        ∀ base, x.baseline = some base → y.bucket = x.bucket + (pulse.value + 65536 - base) % 65536) ∧
      (pulse.valid = false → y.baseline = none ∧ y.whole = false ∧ y.measBad = true ∧ y.bucket = x.bucket) ∧
      y.rate = x.rate ∧
      (sw = ⟨true, true⟩ → y.state = .inLocal ∧
        (x.state ≠ .inLocal → Reported ⟨.feeder, f.val, 1, false, p.now, 0, none⟩ q ∧ y.trim = 0 ∧
          q.field.output.speed[f] = 0 ∧ q.field.output.run[f] = false ∧ q.field.output.remote[f] = false)) ∧
      (sw = ⟨false, true⟩ → x.state = .inLocal → (y.state = .running ∨ y.state = .stopped) ∧
        Reported ⟨.feeder, f.val, 0, false, p.now, 0, none⟩ q) ∧
      (sw = ⟨false, true⟩ → q.burners[b].state = p.burners[b].state →
        (x.state = .inLocal → p.wanted f = true → y.state = .running ∧ y.setpoint = min x.rate x.cfg.maxRate) ∧
        (x.state = .inLocal → p.wanted f = false → y.state = .stopped ∧ y.setpoint = 0) ∧
        (x.state = .running ∨ x.state = .stopped → y.state =
          if sw = p.field.image.inLocal[f] then x.state else if p.wanted f then .running else .stopped)) ∧
      (sw.valid = false → y.state = x.state)) ∧
    (∀ b : Fin 2, p.burners[b].cfg.used = true →
      let flame := q.field.image.flame[b]
      let present := flame.valid && decide (p.burners[b].cfg.threshold ≤ flame.value)
      q.burners[b].flame = present ∧
      q.burners[b].flameSince = (if present = p.burners[b].flame then p.burners[b].flameSince else p.now) ∧
      (q.field.image.permit[b] ≠ ⟨true, true⟩ →
        (p.burners[b].state = .lightWait → q.burners[b].out) ∧
        (p.burners[b].state = .igniting ∨ p.burners[b].state = .loading ∨ p.burners[b].state = .firing →
          q.burners[b].state = .tripped ∨ (q.burners[b].state = .held ∧ q.burners[b].causePermit = true ∧
            q.burners[b].heldStep = some p.burners[b].state ∧
            q.burners[b].heldUntil = some (later p.now (p.burners[b].cfg.held * 1000)))))) ∧
    (∀ n : Fin 4,
      let x := p.fans[n]
      let y := q.fans[n]
      let flow := q.field.image.flow[n]
      let bit := q.field.image.fanRun[n]
      (x.state = .starting →
        (bit = ⟨true, true⟩ ∧ flow.valid = true ∧ x.cfg.minFlow ≤ flow.value → y.state = .running ∧
          y.lastGood = some flow.value ∧ ¬ q.holdsFor 1 n.val ∧ Reported ⟨.fan, n.val, 4, false, p.now, 0, none⟩ q) ∧
        (¬ (bit = ⟨true, true⟩ ∧ flow.valid = true ∧ x.cfg.minFlow ≤ flow.value) → y.state = .starting)) ∧
      (x.state ≠ .starting → y.state = x.state) ∧
      (x.state = .running →
        (flow.valid = true → y.lastGood = some flow.value ∧ y.heldFlow = none ∧ y.holdUntil = none) ∧
        (flow.valid = false → y.lastGood = x.lastGood ∧
          (∀ g, x.heldFlow = none → x.lastGood = some g → x.holdSpent = false →
            y.heldFlow = some g ∧ y.holdUntil = some (later p.now 30000)) ∧
          (x.heldFlow ≠ none ∨ x.lastGood = none ∨ x.holdSpent = true →
            y.heldFlow = x.heldFlow ∧ y.holdUntil = x.holdUntil)) ∧
        (bit = ⟨true, true⟩ → y.fbLoss = none) ∧
        (bit ≠ ⟨true, true⟩ → q.field.state = .holding → y.fbLoss = x.fbLoss) ∧
        (bit ≠ ⟨true, true⟩ → q.field.state ≠ .holding → y.fbLoss = x.fbLoss.or (some p.now)))) ∧
    (q.grate.state = p.grate.state ∧
      (p.grate.state = .running →
        (q.field.image.grateRun = ⟨true, true⟩ → q.grate.fbLoss = none) ∧
        (q.field.image.grateRun ≠ ⟨true, true⟩ → q.field.state = .holding → q.grate.fbLoss = p.grate.fbLoss) ∧
        (q.field.image.grateRun ≠ ⟨true, true⟩ → q.field.state ≠ .holding →
          q.grate.fbLoss = p.grate.fbLoss.or (some p.now))) ∧
      q.grate.bedHigh =
        if p.grate.cfg.used = true ∧ q.field.image.bed.valid = true ∧ p.grate.cfg.highLimit < q.field.image.bed.value then
          p.grate.bedHigh.or (some ⟨p.now, false⟩)
        else none) ∧
    ∀ n : Fin 16, q.alarms.ext[n] = { p.alarms.ext[n] with
      cond := if p.alarms.ext[n].source = .field ∧ q.field.image.discrete[n].valid = true then
          q.field.image.discrete[n].value
        else p.alarms.ext[n].cond })

/-! ## Invariants -/

/-- The invariants hold right after a pin reset, whatever the straps.
That the port's mark `lapsed`, which no reset table names, is clear with the window CLOSED is the model's choice (log 29). -/
def Obligations.PinResetMeetsInvariants : Prop :=
  ∀ (straps : Fin 16) (rate : Fin 4) (eng : Bool), (Part.powerUp straps rate eng).Fits ∧
    (Part.powerUp straps rate eng).windowKeyed ∧ (Part.powerUp straps rate eng).Lawful ∧
    (Part.powerUp straps rate eng).TripLaw ∧ (Part.powerUp straps rate eng).OutputsAgree ∧
    (Part.powerUp straps rate eng).MixWhole

/-- Every step keeps every list within its capacity (R7, R146, R158, R159, R171, R179, R184), and keeps the engineering
window from standing OPEN without ENG (R191) and its mark `lapsed`, the model's own (log 29), from standing without it. -/
def Obligations.StepsKeepCapacities : Prop :=
  ∀ s t : State, s.part.Fits → s.part.windowKeyed → step s = .next t → t.part.Fits ∧ t.part.windowKeyed

/-- Every step keeps the law of line resources (R38, R50): LIGHT-OFF is HELD for a burner that ignites or loads, and
HEAVY-START for a fan that starts. -/
def Obligations.StepsKeepResourceLaw : Prop :=
  ∀ s t : State, s.part.Lawful → s.part.TripLaw → step s = .next t → t.part.Lawful

/-- Every step keeps the law of trips (R88): while a TRIP point bound to a burner or to the station is not NORMAL, the
burner is OFF or TRIPPED. -/
def Obligations.StepsKeepTripLaw : Prop :=
  ∀ s t : State, s.part.TripLaw → s.part.OutputsAgree → step s = .next t → t.part.TripLaw

/-- Every step keeps the outputs in agreement with the states that set them (R78, R101, R123, R133, R156, R178). That START
STATION switches the remote enables of its used feeders on in its own event is deduced (log 26). -/
def Obligations.StepsKeepOutputsInAgreement : Prop :=
  ∀ s t : State, s.part.OutputsAgree → step s = .next t → t.part.OutputsAgree

/-- Every step keeps the mix of every used burner of a STARTED station summing to 1000, mix ramps included (R116). -/
def Obligations.StepsKeepMixWhole : Prop :=
  ∀ s t : State, s.part.MixWhole → step s = .next t → t.part.MixWhole
end

