-- ==== Sys2Proof/Laws/State.lean ====
section
/-! SUPPORT. What each named update of the part leaves in every field: true by rfl, for simp. -/

namespace Sys2Proof.Machine

open Sys2Proof.Config

variable (p : Part)

@[simp] theorem Part.updLine_now (f : Line → Line) : (p.updLine f).now = p.now := rfl
@[simp] theorem Part.updLine_strapStation (f : Line → Line) : (p.updLine f).strapStation = p.strapStation := rfl
@[simp] theorem Part.updLine_strapRate (f : Line → Line) : (p.updLine f).strapRate = p.strapRate := rfl
@[simp] theorem Part.updLine_started (f : Line → Line) : (p.updLine f).started = p.started := rfl
@[simp] theorem Part.updLine_cfg (f : Line → Line) : (p.updLine f).cfg = p.cfg := rfl
@[simp] theorem Part.updLine_line (f : Line → Line) : (p.updLine f).line = f p.line := rfl
@[simp] theorem Part.updLine_peers (f : Line → Line) : (p.updLine f).peers = p.peers := rfl
@[simp] theorem Part.updLine_claims (f : Line → Line) : (p.updLine f).claims = p.claims := rfl
@[simp] theorem Part.updLine_alloc (f : Line → Line) : (p.updLine f).alloc = p.alloc := rfl
@[simp] theorem Part.updLine_mode (f : Line → Line) : (p.updLine f).mode = p.mode := rfl
@[simp] theorem Part.updLine_burners (f : Line → Line) : (p.updLine f).burners = p.burners := rfl
@[simp] theorem Part.updLine_fuel (f : Line → Line) : (p.updLine f).fuel = p.fuel := rfl
@[simp] theorem Part.updLine_feeders (f : Line → Line) : (p.updLine f).feeders = p.feeders := rfl
@[simp] theorem Part.updLine_ramps (f : Line → Line) : (p.updLine f).ramps = p.ramps := rfl
@[simp] theorem Part.updLine_nextFeeder (f : Line → Line) : (p.updLine f).nextFeeder = p.nextFeeder := rfl
@[simp] theorem Part.updLine_fans (f : Line → Line) : (p.updLine f).fans = p.fans := rfl
@[simp] theorem Part.updLine_grate (f : Line → Line) : (p.updLine f).grate = p.grate := rfl
@[simp] theorem Part.updLine_air (f : Line → Line) : (p.updLine f).air = p.air := rfl
@[simp] theorem Part.updLine_nextCool (f : Line → Line) : (p.updLine f).nextCool = p.nextCool := rfl
@[simp] theorem Part.updLine_alarms (f : Line → Line) : (p.updLine f).alarms = p.alarms := rfl
@[simp] theorem Part.updLine_shift (f : Line → Line) : (p.updLine f).shift = p.shift := rfl
@[simp] theorem Part.updLine_field (f : Line → Line) : (p.updLine f).field = p.field := rfl
@[simp] theorem Part.updLine_host (f : Line → Line) : (p.updLine f).host = p.host := rfl

@[simp] theorem Part.updPeer_now (x : Fin 16) (f : Peer → Peer) : (p.updPeer x f).now = p.now := rfl
@[simp] theorem Part.updPeer_strapStation (x : Fin 16) (f : Peer → Peer) :
    (p.updPeer x f).strapStation = p.strapStation := rfl
@[simp] theorem Part.updPeer_strapRate (x : Fin 16) (f : Peer → Peer) : (p.updPeer x f).strapRate = p.strapRate := rfl
@[simp] theorem Part.updPeer_started (x : Fin 16) (f : Peer → Peer) : (p.updPeer x f).started = p.started := rfl
@[simp] theorem Part.updPeer_cfg (x : Fin 16) (f : Peer → Peer) : (p.updPeer x f).cfg = p.cfg := rfl
@[simp] theorem Part.updPeer_line (x : Fin 16) (f : Peer → Peer) : (p.updPeer x f).line = p.line := rfl
@[simp] theorem Part.updPeer_peers (x : Fin 16) (f : Peer → Peer) :
    (p.updPeer x f).peers = p.peers.set x (f p.peers[x]) := rfl
@[simp] theorem Part.updPeer_claims (x : Fin 16) (f : Peer → Peer) : (p.updPeer x f).claims = p.claims := rfl
@[simp] theorem Part.updPeer_alloc (x : Fin 16) (f : Peer → Peer) : (p.updPeer x f).alloc = p.alloc := rfl
@[simp] theorem Part.updPeer_mode (x : Fin 16) (f : Peer → Peer) : (p.updPeer x f).mode = p.mode := rfl
@[simp] theorem Part.updPeer_burners (x : Fin 16) (f : Peer → Peer) : (p.updPeer x f).burners = p.burners := rfl
@[simp] theorem Part.updPeer_fuel (x : Fin 16) (f : Peer → Peer) : (p.updPeer x f).fuel = p.fuel := rfl
@[simp] theorem Part.updPeer_feeders (x : Fin 16) (f : Peer → Peer) : (p.updPeer x f).feeders = p.feeders := rfl
@[simp] theorem Part.updPeer_ramps (x : Fin 16) (f : Peer → Peer) : (p.updPeer x f).ramps = p.ramps := rfl
@[simp] theorem Part.updPeer_nextFeeder (x : Fin 16) (f : Peer → Peer) :
    (p.updPeer x f).nextFeeder = p.nextFeeder := rfl
@[simp] theorem Part.updPeer_fans (x : Fin 16) (f : Peer → Peer) : (p.updPeer x f).fans = p.fans := rfl
@[simp] theorem Part.updPeer_grate (x : Fin 16) (f : Peer → Peer) : (p.updPeer x f).grate = p.grate := rfl
@[simp] theorem Part.updPeer_air (x : Fin 16) (f : Peer → Peer) : (p.updPeer x f).air = p.air := rfl
@[simp] theorem Part.updPeer_nextCool (x : Fin 16) (f : Peer → Peer) : (p.updPeer x f).nextCool = p.nextCool := rfl
@[simp] theorem Part.updPeer_alarms (x : Fin 16) (f : Peer → Peer) : (p.updPeer x f).alarms = p.alarms := rfl
@[simp] theorem Part.updPeer_shift (x : Fin 16) (f : Peer → Peer) : (p.updPeer x f).shift = p.shift := rfl
@[simp] theorem Part.updPeer_field (x : Fin 16) (f : Peer → Peer) : (p.updPeer x f).field = p.field := rfl
@[simp] theorem Part.updPeer_host (x : Fin 16) (f : Peer → Peer) : (p.updPeer x f).host = p.host := rfl

@[simp] theorem Part.updRes_now (x : Fin 3) (f : Resource → Resource) : (p.updRes x f).now = p.now := rfl
@[simp] theorem Part.updRes_strapStation (x : Fin 3) (f : Resource → Resource) :
    (p.updRes x f).strapStation = p.strapStation := rfl
@[simp] theorem Part.updRes_strapRate (x : Fin 3) (f : Resource → Resource) :
    (p.updRes x f).strapRate = p.strapRate := rfl
@[simp] theorem Part.updRes_started (x : Fin 3) (f : Resource → Resource) : (p.updRes x f).started = p.started := rfl
@[simp] theorem Part.updRes_cfg (x : Fin 3) (f : Resource → Resource) : (p.updRes x f).cfg = p.cfg := rfl
@[simp] theorem Part.updRes_line (x : Fin 3) (f : Resource → Resource) : (p.updRes x f).line = p.line := rfl
@[simp] theorem Part.updRes_peers (x : Fin 3) (f : Resource → Resource) : (p.updRes x f).peers = p.peers := rfl
@[simp] theorem Part.updRes_claims (x : Fin 3) (f : Resource → Resource) :
    (p.updRes x f).claims = p.claims.set x (f p.claims[x]) := rfl
@[simp] theorem Part.updRes_alloc (x : Fin 3) (f : Resource → Resource) : (p.updRes x f).alloc = p.alloc := rfl
@[simp] theorem Part.updRes_mode (x : Fin 3) (f : Resource → Resource) : (p.updRes x f).mode = p.mode := rfl
@[simp] theorem Part.updRes_burners (x : Fin 3) (f : Resource → Resource) : (p.updRes x f).burners = p.burners := rfl
@[simp] theorem Part.updRes_fuel (x : Fin 3) (f : Resource → Resource) : (p.updRes x f).fuel = p.fuel := rfl
@[simp] theorem Part.updRes_feeders (x : Fin 3) (f : Resource → Resource) : (p.updRes x f).feeders = p.feeders := rfl
@[simp] theorem Part.updRes_ramps (x : Fin 3) (f : Resource → Resource) : (p.updRes x f).ramps = p.ramps := rfl
@[simp] theorem Part.updRes_nextFeeder (x : Fin 3) (f : Resource → Resource) :
    (p.updRes x f).nextFeeder = p.nextFeeder := rfl
@[simp] theorem Part.updRes_fans (x : Fin 3) (f : Resource → Resource) : (p.updRes x f).fans = p.fans := rfl
@[simp] theorem Part.updRes_grate (x : Fin 3) (f : Resource → Resource) : (p.updRes x f).grate = p.grate := rfl
@[simp] theorem Part.updRes_air (x : Fin 3) (f : Resource → Resource) : (p.updRes x f).air = p.air := rfl
@[simp] theorem Part.updRes_nextCool (x : Fin 3) (f : Resource → Resource) :
    (p.updRes x f).nextCool = p.nextCool := rfl
@[simp] theorem Part.updRes_alarms (x : Fin 3) (f : Resource → Resource) : (p.updRes x f).alarms = p.alarms := rfl
@[simp] theorem Part.updRes_shift (x : Fin 3) (f : Resource → Resource) : (p.updRes x f).shift = p.shift := rfl
@[simp] theorem Part.updRes_field (x : Fin 3) (f : Resource → Resource) : (p.updRes x f).field = p.field := rfl
@[simp] theorem Part.updRes_host (x : Fin 3) (f : Resource → Resource) : (p.updRes x f).host = p.host := rfl

@[simp] theorem Part.updBurner_now (x : Fin 2) (f : Burner → Burner) : (p.updBurner x f).now = p.now := rfl
@[simp] theorem Part.updBurner_strapStation (x : Fin 2) (f : Burner → Burner) :
    (p.updBurner x f).strapStation = p.strapStation := rfl
@[simp] theorem Part.updBurner_strapRate (x : Fin 2) (f : Burner → Burner) :
    (p.updBurner x f).strapRate = p.strapRate := rfl
@[simp] theorem Part.updBurner_started (x : Fin 2) (f : Burner → Burner) :
    (p.updBurner x f).started = p.started := rfl
@[simp] theorem Part.updBurner_cfg (x : Fin 2) (f : Burner → Burner) : (p.updBurner x f).cfg = p.cfg := rfl
@[simp] theorem Part.updBurner_line (x : Fin 2) (f : Burner → Burner) : (p.updBurner x f).line = p.line := rfl
@[simp] theorem Part.updBurner_peers (x : Fin 2) (f : Burner → Burner) : (p.updBurner x f).peers = p.peers := rfl
@[simp] theorem Part.updBurner_claims (x : Fin 2) (f : Burner → Burner) : (p.updBurner x f).claims = p.claims := rfl
@[simp] theorem Part.updBurner_alloc (x : Fin 2) (f : Burner → Burner) : (p.updBurner x f).alloc = p.alloc := rfl
@[simp] theorem Part.updBurner_mode (x : Fin 2) (f : Burner → Burner) : (p.updBurner x f).mode = p.mode := rfl
@[simp] theorem Part.updBurner_burners (x : Fin 2) (f : Burner → Burner) :
    (p.updBurner x f).burners = p.burners.set x (f p.burners[x]) := rfl
@[simp] theorem Part.updBurner_fuel (x : Fin 2) (f : Burner → Burner) : (p.updBurner x f).fuel = p.fuel := rfl
@[simp] theorem Part.updBurner_feeders (x : Fin 2) (f : Burner → Burner) :
    (p.updBurner x f).feeders = p.feeders := rfl
@[simp] theorem Part.updBurner_ramps (x : Fin 2) (f : Burner → Burner) : (p.updBurner x f).ramps = p.ramps := rfl
@[simp] theorem Part.updBurner_nextFeeder (x : Fin 2) (f : Burner → Burner) :
    (p.updBurner x f).nextFeeder = p.nextFeeder := rfl
@[simp] theorem Part.updBurner_fans (x : Fin 2) (f : Burner → Burner) : (p.updBurner x f).fans = p.fans := rfl
@[simp] theorem Part.updBurner_grate (x : Fin 2) (f : Burner → Burner) : (p.updBurner x f).grate = p.grate := rfl
@[simp] theorem Part.updBurner_air (x : Fin 2) (f : Burner → Burner) : (p.updBurner x f).air = p.air := rfl
@[simp] theorem Part.updBurner_nextCool (x : Fin 2) (f : Burner → Burner) :
    (p.updBurner x f).nextCool = p.nextCool := rfl
@[simp] theorem Part.updBurner_alarms (x : Fin 2) (f : Burner → Burner) : (p.updBurner x f).alarms = p.alarms := rfl
@[simp] theorem Part.updBurner_shift (x : Fin 2) (f : Burner → Burner) : (p.updBurner x f).shift = p.shift := rfl
@[simp] theorem Part.updBurner_field (x : Fin 2) (f : Burner → Burner) : (p.updBurner x f).field = p.field := rfl
@[simp] theorem Part.updBurner_host (x : Fin 2) (f : Burner → Burner) : (p.updBurner x f).host = p.host := rfl

@[simp] theorem Part.updFeeder_now (x : Fin 6) (f : Feeder → Feeder) : (p.updFeeder x f).now = p.now := rfl
@[simp] theorem Part.updFeeder_strapStation (x : Fin 6) (f : Feeder → Feeder) :
    (p.updFeeder x f).strapStation = p.strapStation := rfl
@[simp] theorem Part.updFeeder_strapRate (x : Fin 6) (f : Feeder → Feeder) :
    (p.updFeeder x f).strapRate = p.strapRate := rfl
@[simp] theorem Part.updFeeder_started (x : Fin 6) (f : Feeder → Feeder) :
    (p.updFeeder x f).started = p.started := rfl
@[simp] theorem Part.updFeeder_cfg (x : Fin 6) (f : Feeder → Feeder) : (p.updFeeder x f).cfg = p.cfg := rfl
@[simp] theorem Part.updFeeder_line (x : Fin 6) (f : Feeder → Feeder) : (p.updFeeder x f).line = p.line := rfl
@[simp] theorem Part.updFeeder_peers (x : Fin 6) (f : Feeder → Feeder) : (p.updFeeder x f).peers = p.peers := rfl
@[simp] theorem Part.updFeeder_claims (x : Fin 6) (f : Feeder → Feeder) : (p.updFeeder x f).claims = p.claims := rfl
@[simp] theorem Part.updFeeder_alloc (x : Fin 6) (f : Feeder → Feeder) : (p.updFeeder x f).alloc = p.alloc := rfl
@[simp] theorem Part.updFeeder_mode (x : Fin 6) (f : Feeder → Feeder) : (p.updFeeder x f).mode = p.mode := rfl
@[simp] theorem Part.updFeeder_burners (x : Fin 6) (f : Feeder → Feeder) :
    (p.updFeeder x f).burners = p.burners := rfl
@[simp] theorem Part.updFeeder_fuel (x : Fin 6) (f : Feeder → Feeder) : (p.updFeeder x f).fuel = p.fuel := rfl
@[simp] theorem Part.updFeeder_feeders (x : Fin 6) (f : Feeder → Feeder) :
    (p.updFeeder x f).feeders = p.feeders.set x (f p.feeders[x]) := rfl
@[simp] theorem Part.updFeeder_ramps (x : Fin 6) (f : Feeder → Feeder) : (p.updFeeder x f).ramps = p.ramps := rfl
@[simp] theorem Part.updFeeder_nextFeeder (x : Fin 6) (f : Feeder → Feeder) :
    (p.updFeeder x f).nextFeeder = p.nextFeeder := rfl
@[simp] theorem Part.updFeeder_fans (x : Fin 6) (f : Feeder → Feeder) : (p.updFeeder x f).fans = p.fans := rfl
@[simp] theorem Part.updFeeder_grate (x : Fin 6) (f : Feeder → Feeder) : (p.updFeeder x f).grate = p.grate := rfl
@[simp] theorem Part.updFeeder_air (x : Fin 6) (f : Feeder → Feeder) : (p.updFeeder x f).air = p.air := rfl
@[simp] theorem Part.updFeeder_nextCool (x : Fin 6) (f : Feeder → Feeder) :
    (p.updFeeder x f).nextCool = p.nextCool := rfl
@[simp] theorem Part.updFeeder_alarms (x : Fin 6) (f : Feeder → Feeder) : (p.updFeeder x f).alarms = p.alarms := rfl
@[simp] theorem Part.updFeeder_shift (x : Fin 6) (f : Feeder → Feeder) : (p.updFeeder x f).shift = p.shift := rfl
@[simp] theorem Part.updFeeder_field (x : Fin 6) (f : Feeder → Feeder) : (p.updFeeder x f).field = p.field := rfl
@[simp] theorem Part.updFeeder_host (x : Fin 6) (f : Feeder → Feeder) : (p.updFeeder x f).host = p.host := rfl

@[simp] theorem Part.updFan_now (x : Fin 4) (f : Fan → Fan) : (p.updFan x f).now = p.now := rfl
@[simp] theorem Part.updFan_strapStation (x : Fin 4) (f : Fan → Fan) :
    (p.updFan x f).strapStation = p.strapStation := rfl
@[simp] theorem Part.updFan_strapRate (x : Fin 4) (f : Fan → Fan) : (p.updFan x f).strapRate = p.strapRate := rfl
@[simp] theorem Part.updFan_started (x : Fin 4) (f : Fan → Fan) : (p.updFan x f).started = p.started := rfl
@[simp] theorem Part.updFan_cfg (x : Fin 4) (f : Fan → Fan) : (p.updFan x f).cfg = p.cfg := rfl
@[simp] theorem Part.updFan_line (x : Fin 4) (f : Fan → Fan) : (p.updFan x f).line = p.line := rfl
@[simp] theorem Part.updFan_peers (x : Fin 4) (f : Fan → Fan) : (p.updFan x f).peers = p.peers := rfl
@[simp] theorem Part.updFan_claims (x : Fin 4) (f : Fan → Fan) : (p.updFan x f).claims = p.claims := rfl
@[simp] theorem Part.updFan_alloc (x : Fin 4) (f : Fan → Fan) : (p.updFan x f).alloc = p.alloc := rfl
@[simp] theorem Part.updFan_mode (x : Fin 4) (f : Fan → Fan) : (p.updFan x f).mode = p.mode := rfl
@[simp] theorem Part.updFan_burners (x : Fin 4) (f : Fan → Fan) : (p.updFan x f).burners = p.burners := rfl
@[simp] theorem Part.updFan_fuel (x : Fin 4) (f : Fan → Fan) : (p.updFan x f).fuel = p.fuel := rfl
@[simp] theorem Part.updFan_feeders (x : Fin 4) (f : Fan → Fan) : (p.updFan x f).feeders = p.feeders := rfl
@[simp] theorem Part.updFan_ramps (x : Fin 4) (f : Fan → Fan) : (p.updFan x f).ramps = p.ramps := rfl
@[simp] theorem Part.updFan_nextFeeder (x : Fin 4) (f : Fan → Fan) : (p.updFan x f).nextFeeder = p.nextFeeder := rfl
@[simp] theorem Part.updFan_fans (x : Fin 4) (f : Fan → Fan) : (p.updFan x f).fans = p.fans.set x (f p.fans[x]) := rfl
@[simp] theorem Part.updFan_grate (x : Fin 4) (f : Fan → Fan) : (p.updFan x f).grate = p.grate := rfl
@[simp] theorem Part.updFan_air (x : Fin 4) (f : Fan → Fan) : (p.updFan x f).air = p.air := rfl
@[simp] theorem Part.updFan_nextCool (x : Fin 4) (f : Fan → Fan) : (p.updFan x f).nextCool = p.nextCool := rfl
@[simp] theorem Part.updFan_alarms (x : Fin 4) (f : Fan → Fan) : (p.updFan x f).alarms = p.alarms := rfl
@[simp] theorem Part.updFan_shift (x : Fin 4) (f : Fan → Fan) : (p.updFan x f).shift = p.shift := rfl
@[simp] theorem Part.updFan_field (x : Fin 4) (f : Fan → Fan) : (p.updFan x f).field = p.field := rfl
@[simp] theorem Part.updFan_host (x : Fin 4) (f : Fan → Fan) : (p.updFan x f).host = p.host := rfl

@[simp] theorem Part.updGrate_now (f : Grate → Grate) : (p.updGrate f).now = p.now := rfl
@[simp] theorem Part.updGrate_strapStation (f : Grate → Grate) : (p.updGrate f).strapStation = p.strapStation := rfl
@[simp] theorem Part.updGrate_strapRate (f : Grate → Grate) : (p.updGrate f).strapRate = p.strapRate := rfl
@[simp] theorem Part.updGrate_started (f : Grate → Grate) : (p.updGrate f).started = p.started := rfl
@[simp] theorem Part.updGrate_cfg (f : Grate → Grate) : (p.updGrate f).cfg = p.cfg := rfl
@[simp] theorem Part.updGrate_line (f : Grate → Grate) : (p.updGrate f).line = p.line := rfl
@[simp] theorem Part.updGrate_peers (f : Grate → Grate) : (p.updGrate f).peers = p.peers := rfl
@[simp] theorem Part.updGrate_claims (f : Grate → Grate) : (p.updGrate f).claims = p.claims := rfl
@[simp] theorem Part.updGrate_alloc (f : Grate → Grate) : (p.updGrate f).alloc = p.alloc := rfl
@[simp] theorem Part.updGrate_mode (f : Grate → Grate) : (p.updGrate f).mode = p.mode := rfl
@[simp] theorem Part.updGrate_burners (f : Grate → Grate) : (p.updGrate f).burners = p.burners := rfl
@[simp] theorem Part.updGrate_fuel (f : Grate → Grate) : (p.updGrate f).fuel = p.fuel := rfl
@[simp] theorem Part.updGrate_feeders (f : Grate → Grate) : (p.updGrate f).feeders = p.feeders := rfl
@[simp] theorem Part.updGrate_ramps (f : Grate → Grate) : (p.updGrate f).ramps = p.ramps := rfl
@[simp] theorem Part.updGrate_nextFeeder (f : Grate → Grate) : (p.updGrate f).nextFeeder = p.nextFeeder := rfl
@[simp] theorem Part.updGrate_fans (f : Grate → Grate) : (p.updGrate f).fans = p.fans := rfl
@[simp] theorem Part.updGrate_grate (f : Grate → Grate) : (p.updGrate f).grate = f p.grate := rfl
@[simp] theorem Part.updGrate_air (f : Grate → Grate) : (p.updGrate f).air = p.air := rfl
@[simp] theorem Part.updGrate_nextCool (f : Grate → Grate) : (p.updGrate f).nextCool = p.nextCool := rfl
@[simp] theorem Part.updGrate_alarms (f : Grate → Grate) : (p.updGrate f).alarms = p.alarms := rfl
@[simp] theorem Part.updGrate_shift (f : Grate → Grate) : (p.updGrate f).shift = p.shift := rfl
@[simp] theorem Part.updGrate_field (f : Grate → Grate) : (p.updGrate f).field = p.field := rfl
@[simp] theorem Part.updGrate_host (f : Grate → Grate) : (p.updGrate f).host = p.host := rfl

@[simp] theorem Part.updAlarms_now (f : Alarms → Alarms) : (p.updAlarms f).now = p.now := rfl
@[simp] theorem Part.updAlarms_strapStation (f : Alarms → Alarms) :
    (p.updAlarms f).strapStation = p.strapStation := rfl
@[simp] theorem Part.updAlarms_strapRate (f : Alarms → Alarms) : (p.updAlarms f).strapRate = p.strapRate := rfl
@[simp] theorem Part.updAlarms_started (f : Alarms → Alarms) : (p.updAlarms f).started = p.started := rfl
@[simp] theorem Part.updAlarms_cfg (f : Alarms → Alarms) : (p.updAlarms f).cfg = p.cfg := rfl
@[simp] theorem Part.updAlarms_line (f : Alarms → Alarms) : (p.updAlarms f).line = p.line := rfl
@[simp] theorem Part.updAlarms_peers (f : Alarms → Alarms) : (p.updAlarms f).peers = p.peers := rfl
@[simp] theorem Part.updAlarms_claims (f : Alarms → Alarms) : (p.updAlarms f).claims = p.claims := rfl
@[simp] theorem Part.updAlarms_alloc (f : Alarms → Alarms) : (p.updAlarms f).alloc = p.alloc := rfl
@[simp] theorem Part.updAlarms_mode (f : Alarms → Alarms) : (p.updAlarms f).mode = p.mode := rfl
@[simp] theorem Part.updAlarms_burners (f : Alarms → Alarms) : (p.updAlarms f).burners = p.burners := rfl
@[simp] theorem Part.updAlarms_fuel (f : Alarms → Alarms) : (p.updAlarms f).fuel = p.fuel := rfl
@[simp] theorem Part.updAlarms_feeders (f : Alarms → Alarms) : (p.updAlarms f).feeders = p.feeders := rfl
@[simp] theorem Part.updAlarms_ramps (f : Alarms → Alarms) : (p.updAlarms f).ramps = p.ramps := rfl
@[simp] theorem Part.updAlarms_nextFeeder (f : Alarms → Alarms) : (p.updAlarms f).nextFeeder = p.nextFeeder := rfl
@[simp] theorem Part.updAlarms_fans (f : Alarms → Alarms) : (p.updAlarms f).fans = p.fans := rfl
@[simp] theorem Part.updAlarms_grate (f : Alarms → Alarms) : (p.updAlarms f).grate = p.grate := rfl
@[simp] theorem Part.updAlarms_air (f : Alarms → Alarms) : (p.updAlarms f).air = p.air := rfl
@[simp] theorem Part.updAlarms_nextCool (f : Alarms → Alarms) : (p.updAlarms f).nextCool = p.nextCool := rfl
@[simp] theorem Part.updAlarms_alarms (f : Alarms → Alarms) : (p.updAlarms f).alarms = f p.alarms := rfl
@[simp] theorem Part.updAlarms_shift (f : Alarms → Alarms) : (p.updAlarms f).shift = p.shift := rfl
@[simp] theorem Part.updAlarms_field (f : Alarms → Alarms) : (p.updAlarms f).field = p.field := rfl
@[simp] theorem Part.updAlarms_host (f : Alarms → Alarms) : (p.updAlarms f).host = p.host := rfl

@[simp] theorem Part.updPoint_now (x : Fin 62) (f : Point → Point) : (p.updPoint x f).now = p.now := rfl
@[simp] theorem Part.updPoint_strapStation (x : Fin 62) (f : Point → Point) :
    (p.updPoint x f).strapStation = p.strapStation := rfl
@[simp] theorem Part.updPoint_strapRate (x : Fin 62) (f : Point → Point) :
    (p.updPoint x f).strapRate = p.strapRate := rfl
@[simp] theorem Part.updPoint_started (x : Fin 62) (f : Point → Point) : (p.updPoint x f).started = p.started := rfl
@[simp] theorem Part.updPoint_cfg (x : Fin 62) (f : Point → Point) : (p.updPoint x f).cfg = p.cfg := rfl
@[simp] theorem Part.updPoint_line (x : Fin 62) (f : Point → Point) : (p.updPoint x f).line = p.line := rfl
@[simp] theorem Part.updPoint_peers (x : Fin 62) (f : Point → Point) : (p.updPoint x f).peers = p.peers := rfl
@[simp] theorem Part.updPoint_claims (x : Fin 62) (f : Point → Point) : (p.updPoint x f).claims = p.claims := rfl
@[simp] theorem Part.updPoint_alloc (x : Fin 62) (f : Point → Point) : (p.updPoint x f).alloc = p.alloc := rfl
@[simp] theorem Part.updPoint_mode (x : Fin 62) (f : Point → Point) : (p.updPoint x f).mode = p.mode := rfl
@[simp] theorem Part.updPoint_burners (x : Fin 62) (f : Point → Point) : (p.updPoint x f).burners = p.burners := rfl
@[simp] theorem Part.updPoint_fuel (x : Fin 62) (f : Point → Point) : (p.updPoint x f).fuel = p.fuel := rfl
@[simp] theorem Part.updPoint_feeders (x : Fin 62) (f : Point → Point) : (p.updPoint x f).feeders = p.feeders := rfl
@[simp] theorem Part.updPoint_ramps (x : Fin 62) (f : Point → Point) : (p.updPoint x f).ramps = p.ramps := rfl
@[simp] theorem Part.updPoint_nextFeeder (x : Fin 62) (f : Point → Point) :
    (p.updPoint x f).nextFeeder = p.nextFeeder := rfl
@[simp] theorem Part.updPoint_fans (x : Fin 62) (f : Point → Point) : (p.updPoint x f).fans = p.fans := rfl
@[simp] theorem Part.updPoint_grate (x : Fin 62) (f : Point → Point) : (p.updPoint x f).grate = p.grate := rfl
@[simp] theorem Part.updPoint_air (x : Fin 62) (f : Point → Point) : (p.updPoint x f).air = p.air := rfl
@[simp] theorem Part.updPoint_nextCool (x : Fin 62) (f : Point → Point) :
    (p.updPoint x f).nextCool = p.nextCool := rfl
@[simp] theorem Part.updPoint_alarms (x : Fin 62) (f : Point → Point) :
    (p.updPoint x f).alarms = { p.alarms with points := p.alarms.points.set x (f p.alarms.points[x]) } := rfl
@[simp] theorem Part.updPoint_shift (x : Fin 62) (f : Point → Point) : (p.updPoint x f).shift = p.shift := rfl
@[simp] theorem Part.updPoint_field (x : Fin 62) (f : Point → Point) : (p.updPoint x f).field = p.field := rfl
@[simp] theorem Part.updPoint_host (x : Fin 62) (f : Point → Point) : (p.updPoint x f).host = p.host := rfl

@[simp] theorem Part.updOutput_now (f : OutputImage → OutputImage) : (p.updOutput f).now = p.now := rfl
@[simp] theorem Part.updOutput_strapStation (f : OutputImage → OutputImage) :
    (p.updOutput f).strapStation = p.strapStation := rfl
@[simp] theorem Part.updOutput_strapRate (f : OutputImage → OutputImage) :
    (p.updOutput f).strapRate = p.strapRate := rfl
@[simp] theorem Part.updOutput_started (f : OutputImage → OutputImage) : (p.updOutput f).started = p.started := rfl
@[simp] theorem Part.updOutput_cfg (f : OutputImage → OutputImage) : (p.updOutput f).cfg = p.cfg := rfl
@[simp] theorem Part.updOutput_line (f : OutputImage → OutputImage) : (p.updOutput f).line = p.line := rfl
@[simp] theorem Part.updOutput_peers (f : OutputImage → OutputImage) : (p.updOutput f).peers = p.peers := rfl
@[simp] theorem Part.updOutput_claims (f : OutputImage → OutputImage) : (p.updOutput f).claims = p.claims := rfl
@[simp] theorem Part.updOutput_alloc (f : OutputImage → OutputImage) : (p.updOutput f).alloc = p.alloc := rfl
@[simp] theorem Part.updOutput_mode (f : OutputImage → OutputImage) : (p.updOutput f).mode = p.mode := rfl
@[simp] theorem Part.updOutput_burners (f : OutputImage → OutputImage) : (p.updOutput f).burners = p.burners := rfl
@[simp] theorem Part.updOutput_fuel (f : OutputImage → OutputImage) : (p.updOutput f).fuel = p.fuel := rfl
@[simp] theorem Part.updOutput_feeders (f : OutputImage → OutputImage) : (p.updOutput f).feeders = p.feeders := rfl
@[simp] theorem Part.updOutput_ramps (f : OutputImage → OutputImage) : (p.updOutput f).ramps = p.ramps := rfl
@[simp] theorem Part.updOutput_nextFeeder (f : OutputImage → OutputImage) :
    (p.updOutput f).nextFeeder = p.nextFeeder := rfl
@[simp] theorem Part.updOutput_fans (f : OutputImage → OutputImage) : (p.updOutput f).fans = p.fans := rfl
@[simp] theorem Part.updOutput_grate (f : OutputImage → OutputImage) : (p.updOutput f).grate = p.grate := rfl
@[simp] theorem Part.updOutput_air (f : OutputImage → OutputImage) : (p.updOutput f).air = p.air := rfl
@[simp] theorem Part.updOutput_nextCool (f : OutputImage → OutputImage) : (p.updOutput f).nextCool = p.nextCool := rfl
@[simp] theorem Part.updOutput_alarms (f : OutputImage → OutputImage) : (p.updOutput f).alarms = p.alarms := rfl
@[simp] theorem Part.updOutput_shift (f : OutputImage → OutputImage) : (p.updOutput f).shift = p.shift := rfl
@[simp] theorem Part.updOutput_field (f : OutputImage → OutputImage) :
    (p.updOutput f).field = { p.field with output := f p.field.output } := rfl
@[simp] theorem Part.updOutput_host (f : OutputImage → OutputImage) : (p.updOutput f).host = p.host := rfl

@[simp] theorem Part.updHost_now (f : HostPort → HostPort) : (p.updHost f).now = p.now := rfl
@[simp] theorem Part.updHost_strapStation (f : HostPort → HostPort) :
    (p.updHost f).strapStation = p.strapStation := rfl
@[simp] theorem Part.updHost_strapRate (f : HostPort → HostPort) : (p.updHost f).strapRate = p.strapRate := rfl
@[simp] theorem Part.updHost_started (f : HostPort → HostPort) : (p.updHost f).started = p.started := rfl
@[simp] theorem Part.updHost_cfg (f : HostPort → HostPort) : (p.updHost f).cfg = p.cfg := rfl
@[simp] theorem Part.updHost_line (f : HostPort → HostPort) : (p.updHost f).line = p.line := rfl
@[simp] theorem Part.updHost_peers (f : HostPort → HostPort) : (p.updHost f).peers = p.peers := rfl
@[simp] theorem Part.updHost_claims (f : HostPort → HostPort) : (p.updHost f).claims = p.claims := rfl
@[simp] theorem Part.updHost_alloc (f : HostPort → HostPort) : (p.updHost f).alloc = p.alloc := rfl
@[simp] theorem Part.updHost_mode (f : HostPort → HostPort) : (p.updHost f).mode = p.mode := rfl
@[simp] theorem Part.updHost_burners (f : HostPort → HostPort) : (p.updHost f).burners = p.burners := rfl
@[simp] theorem Part.updHost_fuel (f : HostPort → HostPort) : (p.updHost f).fuel = p.fuel := rfl
@[simp] theorem Part.updHost_feeders (f : HostPort → HostPort) : (p.updHost f).feeders = p.feeders := rfl
@[simp] theorem Part.updHost_ramps (f : HostPort → HostPort) : (p.updHost f).ramps = p.ramps := rfl
@[simp] theorem Part.updHost_nextFeeder (f : HostPort → HostPort) : (p.updHost f).nextFeeder = p.nextFeeder := rfl
@[simp] theorem Part.updHost_fans (f : HostPort → HostPort) : (p.updHost f).fans = p.fans := rfl
@[simp] theorem Part.updHost_grate (f : HostPort → HostPort) : (p.updHost f).grate = p.grate := rfl
@[simp] theorem Part.updHost_air (f : HostPort → HostPort) : (p.updHost f).air = p.air := rfl
@[simp] theorem Part.updHost_nextCool (f : HostPort → HostPort) : (p.updHost f).nextCool = p.nextCool := rfl
@[simp] theorem Part.updHost_alarms (f : HostPort → HostPort) : (p.updHost f).alarms = p.alarms := rfl
@[simp] theorem Part.updHost_shift (f : HostPort → HostPort) : (p.updHost f).shift = p.shift := rfl
@[simp] theorem Part.updHost_field (f : HostPort → HostPort) : (p.updHost f).field = p.field := rfl
@[simp] theorem Part.updHost_host (f : HostPort → HostPort) : (p.updHost f).host = f p.host := rfl

@[simp] theorem Part.record_now (f : ShiftRec → ShiftRec) : (p.record f).now = p.now := rfl
@[simp] theorem Part.record_strapStation (f : ShiftRec → ShiftRec) : (p.record f).strapStation = p.strapStation := rfl
@[simp] theorem Part.record_strapRate (f : ShiftRec → ShiftRec) : (p.record f).strapRate = p.strapRate := rfl
@[simp] theorem Part.record_started (f : ShiftRec → ShiftRec) : (p.record f).started = p.started := rfl
@[simp] theorem Part.record_cfg (f : ShiftRec → ShiftRec) : (p.record f).cfg = p.cfg := rfl
@[simp] theorem Part.record_line (f : ShiftRec → ShiftRec) : (p.record f).line = p.line := rfl
@[simp] theorem Part.record_peers (f : ShiftRec → ShiftRec) : (p.record f).peers = p.peers := rfl
@[simp] theorem Part.record_claims (f : ShiftRec → ShiftRec) : (p.record f).claims = p.claims := rfl
@[simp] theorem Part.record_alloc (f : ShiftRec → ShiftRec) : (p.record f).alloc = p.alloc := rfl
@[simp] theorem Part.record_mode (f : ShiftRec → ShiftRec) : (p.record f).mode = p.mode := rfl
@[simp] theorem Part.record_burners (f : ShiftRec → ShiftRec) : (p.record f).burners = p.burners := rfl
@[simp] theorem Part.record_fuel (f : ShiftRec → ShiftRec) : (p.record f).fuel = p.fuel := rfl
@[simp] theorem Part.record_feeders (f : ShiftRec → ShiftRec) : (p.record f).feeders = p.feeders := rfl
@[simp] theorem Part.record_ramps (f : ShiftRec → ShiftRec) : (p.record f).ramps = p.ramps := rfl
@[simp] theorem Part.record_nextFeeder (f : ShiftRec → ShiftRec) : (p.record f).nextFeeder = p.nextFeeder := rfl
@[simp] theorem Part.record_fans (f : ShiftRec → ShiftRec) : (p.record f).fans = p.fans := rfl
@[simp] theorem Part.record_grate (f : ShiftRec → ShiftRec) : (p.record f).grate = p.grate := rfl
@[simp] theorem Part.record_air (f : ShiftRec → ShiftRec) : (p.record f).air = p.air := rfl
@[simp] theorem Part.record_nextCool (f : ShiftRec → ShiftRec) : (p.record f).nextCool = p.nextCool := rfl
@[simp] theorem Part.record_alarms (f : ShiftRec → ShiftRec) : (p.record f).alarms = p.alarms := rfl
@[simp] theorem Part.record_shift (f : ShiftRec → ShiftRec) :
    (p.record f).shift = { p.shift with current := p.shift.current.map f } := rfl
@[simp] theorem Part.record_field (f : ShiftRec → ShiftRec) : (p.record f).field = p.field := rfl
@[simp] theorem Part.record_host (f : ShiftRec → ShiftRec) : (p.record f).host = p.host := rfl

@[simp] theorem Part.setRamp_now (x : Fin 2) (r : Option MixRamp) : (p.setRamp x r).now = p.now := rfl
@[simp] theorem Part.setRamp_strapStation (x : Fin 2) (r : Option MixRamp) :
    (p.setRamp x r).strapStation = p.strapStation := rfl
@[simp] theorem Part.setRamp_strapRate (x : Fin 2) (r : Option MixRamp) :
    (p.setRamp x r).strapRate = p.strapRate := rfl
@[simp] theorem Part.setRamp_started (x : Fin 2) (r : Option MixRamp) : (p.setRamp x r).started = p.started := rfl
@[simp] theorem Part.setRamp_cfg (x : Fin 2) (r : Option MixRamp) : (p.setRamp x r).cfg = p.cfg := rfl
@[simp] theorem Part.setRamp_line (x : Fin 2) (r : Option MixRamp) : (p.setRamp x r).line = p.line := rfl
@[simp] theorem Part.setRamp_peers (x : Fin 2) (r : Option MixRamp) : (p.setRamp x r).peers = p.peers := rfl
@[simp] theorem Part.setRamp_claims (x : Fin 2) (r : Option MixRamp) : (p.setRamp x r).claims = p.claims := rfl
@[simp] theorem Part.setRamp_alloc (x : Fin 2) (r : Option MixRamp) : (p.setRamp x r).alloc = p.alloc := rfl
@[simp] theorem Part.setRamp_mode (x : Fin 2) (r : Option MixRamp) : (p.setRamp x r).mode = p.mode := rfl
@[simp] theorem Part.setRamp_burners (x : Fin 2) (r : Option MixRamp) : (p.setRamp x r).burners = p.burners := rfl
@[simp] theorem Part.setRamp_fuel (x : Fin 2) (r : Option MixRamp) : (p.setRamp x r).fuel = p.fuel := rfl
@[simp] theorem Part.setRamp_feeders (x : Fin 2) (r : Option MixRamp) : (p.setRamp x r).feeders = p.feeders := rfl
@[simp] theorem Part.setRamp_ramps (x : Fin 2) (r : Option MixRamp) : (p.setRamp x r).ramps = p.ramps.set x r := rfl
@[simp] theorem Part.setRamp_nextFeeder (x : Fin 2) (r : Option MixRamp) :
    (p.setRamp x r).nextFeeder = p.nextFeeder := rfl
@[simp] theorem Part.setRamp_fans (x : Fin 2) (r : Option MixRamp) : (p.setRamp x r).fans = p.fans := rfl
@[simp] theorem Part.setRamp_grate (x : Fin 2) (r : Option MixRamp) : (p.setRamp x r).grate = p.grate := rfl
@[simp] theorem Part.setRamp_air (x : Fin 2) (r : Option MixRamp) : (p.setRamp x r).air = p.air := rfl
@[simp] theorem Part.setRamp_nextCool (x : Fin 2) (r : Option MixRamp) : (p.setRamp x r).nextCool = p.nextCool := rfl
@[simp] theorem Part.setRamp_alarms (x : Fin 2) (r : Option MixRamp) : (p.setRamp x r).alarms = p.alarms := rfl
@[simp] theorem Part.setRamp_shift (x : Fin 2) (r : Option MixRamp) : (p.setRamp x r).shift = p.shift := rfl
@[simp] theorem Part.setRamp_field (x : Fin 2) (r : Option MixRamp) : (p.setRamp x r).field = p.field := rfl
@[simp] theorem Part.setRamp_host (x : Fin 2) (r : Option MixRamp) : (p.setRamp x r).host = p.host := rfl

/-! The engineering window renewed and closed (R190, R191). -/

@[simp] theorem HostPort.renew_buffer (t : Time) (h : HostPort) : (h.renew t).buffer = h.buffer := rfl
@[simp] theorem HostPort.renew_overLong (t : Time) (h : HostPort) : (h.renew t).overLong = h.overLong := rfl
@[simp] theorem HostPort.renew_inProgress (t : Time) (h : HostPort) : (h.renew t).inProgress = h.inProgress := rfl
@[simp] theorem HostPort.renew_overrun (t : Time) (h : HostPort) : (h.renew t).overrun = h.overrun := rfl
@[simp] theorem HostPort.renew_run (t : Time) (h : HostPort) : (h.renew t).run = h.run := rfl
@[simp] theorem HostPort.renew_readPos (t : Time) (h : HostPort) : (h.renew t).readPos = h.readPos := rfl
@[simp] theorem HostPort.renew_ready (t : Time) (h : HostPort) : (h.renew t).ready = h.ready := rfl
@[simp] theorem HostPort.renew_enables (t : Time) (h : HostPort) : (h.renew t).enables = h.enables := rfl
@[simp] theorem HostPort.renew_eng (t : Time) (h : HostPort) : (h.renew t).eng = h.eng := rfl
@[simp] theorem HostPort.renew_dataOut (t : Time) (h : HostPort) : (h.renew t).dataOut = h.dataOut := rfl
@[simp] theorem HostPort.renew_window (t : Time) (h : HostPort) :
    (h.renew t).window = some (later t engineeringTime) := rfl
@[simp] theorem HostPort.renew_lapsed (t : Time) (h : HostPort) :
    (h.renew t).lapsed = (h.lapsed || h.window.any (reached t)) := rfl
@[simp] theorem HostPort.closeWindow_buffer (h : HostPort) : h.closeWindow.buffer = h.buffer := rfl
@[simp] theorem HostPort.closeWindow_overLong (h : HostPort) : h.closeWindow.overLong = h.overLong := rfl
@[simp] theorem HostPort.closeWindow_inProgress (h : HostPort) : h.closeWindow.inProgress = h.inProgress := rfl
@[simp] theorem HostPort.closeWindow_overrun (h : HostPort) : h.closeWindow.overrun = h.overrun := rfl
@[simp] theorem HostPort.closeWindow_run (h : HostPort) : h.closeWindow.run = h.run := rfl
@[simp] theorem HostPort.closeWindow_readPos (h : HostPort) : h.closeWindow.readPos = h.readPos := rfl
@[simp] theorem HostPort.closeWindow_ready (h : HostPort) : h.closeWindow.ready = h.ready := rfl
@[simp] theorem HostPort.closeWindow_enables (h : HostPort) : h.closeWindow.enables = h.enables := rfl
@[simp] theorem HostPort.closeWindow_eng (h : HostPort) : h.closeWindow.eng = h.eng := rfl
@[simp] theorem HostPort.closeWindow_dataOut (h : HostPort) : h.closeWindow.dataOut = h.dataOut := rfl
@[simp] theorem HostPort.closeWindow_window (h : HostPort) : h.closeWindow.window = none := rfl
@[simp] theorem HostPort.closeWindow_lapsed (h : HostPort) : h.closeWindow.lapsed = false := rfl

/-- All that an engineering command answered DONE does beyond its own effect (R190). -/
theorem Part.engineeringDone_eq (cmd : Nat) :
    p.engineeringDone cmd = { p with host := p.host.renewed cmd p.now } := rfl

/-- What a tick leaves of the part: the time 1 ms on, and the ENG input as found (log 28). -/
@[simp] theorem State.tick_part (s : State) : s.tick.part = { s.part with
    now := later s.part.now 1,
    host := { s.part.host with eng := s.part.host.eng || engTurned (later s.part.now 1) } } := rfl

end Sys2Proof.Machine
end

