-- ==== Sys2Proof/Laws/Frames.lean ====
section
/-! SUPPORT. Frames: the calculus of `ChangesOnly`, and for each shared operation the blocks it may change. -/

namespace Sys2Proof.Machine

-- One proof at a time: the whole package as one text must not start a thread for each of them.
set_option Elab.async false

open Sys2Proof.Config

/-! ## The calculus -/

theorem ChangesOnly.refl {T : Set Block} {p : Part} : ChangesOnly T p p :=
  ⟨fun b _ => by cases b <;> simp [Block.Same]⟩

theorem Block.Same.trans {b : Block} {p q r : Part} (h : b.Same p q) (g : b.Same q r) : b.Same p r := by
  cases b with
  | eventsOut => exact ⟨h.1.trans g.1, fun l => g.2 (h.2 l)⟩
  | queueOut => exact ⟨fun _ m => g.1 (h.1 m), fun l => g.2 (h.2 l)⟩
  | _ => simp_all [Block.Same]

theorem ChangesOnly.trans {T : Set Block} {p q r : Part} (h : ChangesOnly T p q) (g : ChangesOnly T q r) :
    ChangesOnly T p r := ⟨fun b hb => (h.same b hb).trans (g.same b hb)⟩

theorem ChangesOnly.mono {T U : Set Block} {p q : Part} (h : ChangesOnly T p q)
    (hTU : T ⊆ U := by
      simp only [sendBlocks, leaveBlocks, mixBlocks, burnerBlocks, fanBlocks, pointBlocks, tripBlocks, settleBlocks, settleAllBlocks,
        userBlocks, silentBlocks, heardBlocks, receivedBlocks, Set.insert_subset_iff,
        Set.union_subset_iff, Set.range_subset_iff, Set.singleton_subset_iff, Set.mem_union,
        Set.mem_insert_iff, Set.mem_singleton_iff, Set.mem_range, exists_apply_eq_apply, reduceCtorEq, implies_true,
        exists_false, true_or, or_true, or_false, false_or, and_self, Set.Subset.refl]) :
    ChangesOnly U p q := ⟨fun b hb => h.same b fun hT => hb (hTU hT)⟩

/-- A further change within the blocks. -/
theorem ChangesOnly.next {U V : Set Block} {p q r : Part} (h : ChangesOnly V p q) (g : ChangesOnly U q r)
    (hU : U ⊆ V := by
      simp only [sendBlocks, leaveBlocks, mixBlocks, burnerBlocks, fanBlocks, pointBlocks, tripBlocks, settleBlocks, settleAllBlocks,
        userBlocks, silentBlocks, heardBlocks, receivedBlocks, Set.insert_subset_iff,
        Set.union_subset_iff, Set.range_subset_iff, Set.singleton_subset_iff, Set.mem_union,
        Set.mem_insert_iff, Set.mem_singleton_iff, Set.mem_range, exists_apply_eq_apply, reduceCtorEq, implies_true,
        exists_false, true_or, or_true, or_false, false_or, and_self, Set.Subset.refl]) :
    ChangesOnly V p r := h.trans (g.mono hU)

theorem ChangesOnly.forAll {T : Set Block} {α : Type} {f : α → Part → Part} (h : ∀ a p, ChangesOnly T p (f a p))
    (l : List α) (p : Part) : ChangesOnly T p (p.forAll l f) := by
  induction l generalizing p with
  | nil => exact .refl
  | cons a l ih => exact (h a p).trans (ih (f a p))

theorem ChangesOnly.ite {T : Set Block} {c : Prop} [Decidable c] {p q r : Part} (h : ChangesOnly T p q)
    (g : ChangesOnly T p r) : ChangesOnly T p (if c then q else r) := by
  split
  · exact h
  · exact g

theorem set_other {α : Type} {n : Nat} (v : Vector α n) (i j : Fin n) (x : α) (h : j ≠ i) : (v.set i x)[j] = v[j] := by
  have : i.val ≠ j.val := fun e => h (Fin.ext e.symm)
  simp [this]

/-! ## Named updates -/

theorem Part.updPeer_frame (x : Fin 16) (f : Peer → Peer) (p : Part) : ChangesOnly {.peer x} p (p.updPeer x f) := by
  refine ⟨fun y hy => ?_⟩; cases y <;> simp_all [Block.Same, set_other, -Fin.getElem_fin]

theorem Part.updBurner_frame (x : Fin 2) (f : Burner → Burner) (p : Part) :
    ChangesOnly {.burner x} p (p.updBurner x f) := by
  refine ⟨fun y hy => ?_⟩; cases y <;> simp_all [Block.Same, set_other, -Fin.getElem_fin]

theorem Part.updFan_frame (x : Fin 4) (f : Fan → Fan) (p : Part) : ChangesOnly {.fan x} p (p.updFan x f) := by
  refine ⟨fun y hy => ?_⟩; cases y <;> simp_all [Block.Same, set_other, -Fin.getElem_fin]

theorem Part.setRamp_frame (x : Fin 2) (r : Option MixRamp) (p : Part) : ChangesOnly {.ramp x} p (p.setRamp x r) := by
  refine ⟨fun y hy => ?_⟩; cases y <;> simp_all [Block.Same, set_other, -Fin.getElem_fin]

theorem Part.updGrate_frame (f : Grate → Grate) (p : Part) : ChangesOnly {.grate} p (p.updGrate f) := by
  refine ⟨fun y hy => ?_⟩; cases y <;> simp_all [Block.Same]

theorem Part.record_frame (f : ShiftRec → ShiftRec) (p : Part) : ChangesOnly {.record} p (p.record f) := by
  refine ⟨fun y hy => ?_⟩; cases y <;> simp_all [Block.Same, Shift.closed]

/-- A feeder's drive moves. -/
theorem Part.updFeeder_drive_frame (x : Fin 6) (f : Feeder → Feeder) (p : Part)
    (h : ∀ y : Feeder, (f y).measured = y.measured) : ChangesOnly {.drive x} p (p.updFeeder x f) := by
  refine ⟨fun y hy => ?_⟩
  cases y with
  | feeder i =>
    by_cases e : i = x
    · subst e; simp [Block.Same, h]
    · simp [Block.Same, set_other, e, -Fin.getElem_fin]
  | _ => simp_all [Block.Same, set_other, -Fin.getElem_fin]

theorem Part.updFeeder_frame (x : Fin 6) (f : Feeder → Feeder) (p : Part) :
    ChangesOnly {.drive x, .feeder x} p (p.updFeeder x f) := by
  refine ⟨fun y hy => ?_⟩; cases y <;> simp_all [Block.Same, set_other, -Fin.getElem_fin]

/-! ## Events, frames, responses (R8, R158, R185) -/

theorem Part.offer_frame (k : EventKind) (s v : Nat) (m : Bool) (st : Nat) (o : Option Nat) (p : Part) :
    ChangesOnly {.events} p (p.offer k s v m st o) := by
  refine ⟨fun x hx => ?_⟩
  cases x with
  | eventsOut =>
    simp only [Block.Same, Part.offer, Part.updAlarms]
    split
    · refine ⟨List.prefix_append _ _, fun _ => ?_⟩
      simp; omega
    · exact ⟨List.prefix_rfl, id⟩
  | _ => simp_all [Block.Same, Part.offer] <;> split <;> simp

theorem orderQueue_perm (l : List TxFrame) : (orderQueue l).Perm l :=
  List.filter_append_perm (fun f : TxFrame => f.body.urgent) l

/-- Placing a frame adds it, whatever the phase (R8). -/
theorem Line.place_perm (f : TxFrame) (l : Line) : (l.place f).queue.Perm (l.queue ++ [f]) := by
  unfold Line.place
  split
  · exact orderQueue_perm _
  · rename_i e _
    rw [e]
    exact (orderQueue_perm _).cons _
  · rename_i e _
    rw [e]
    exact .refl _

theorem Part.place_queue (body : FrameBody) (p : Part) :
    (p.place body).line.queue.Perm (p.line.queue ++ [⟨body, 0, none, p.line.nextTag⟩]) :=
  Line.place_perm _ _

theorem Part.place_frame (body : FrameBody) (p : Part) :
    ChangesOnly {.queue, .queueOut} p (p.place body) ∧
    (p.line.queue.length < queueSize → ChangesOnly {.queue} p (p.place body)) := by
  have h : ∀ x : Block, x ≠ .queue → x ≠ .queueOut → x.Same p (p.place body) := by
    intro x hx hy
    cases x <;> simp_all [Block.Same, Part.place, Line.place] <;> split <;> simp
  have o := p.place_queue body
  refine ⟨⟨fun x hx => h x (by rintro rfl; simp at hx) (by rintro rfl; simp at hx)⟩, fun l => ⟨fun x hx => ?_⟩⟩
  by_cases e : x = .queueOut
  · subst e
    refine ⟨fun f hf => o.mem_iff.2 (by simp [hf]), fun _ => ?_⟩
    have := o.length_eq
    simp at this
    omega
  · exact h x (by rintro rfl; simp at hx) e

theorem Part.transmitFailure_frame (p : Part) : ChangesOnly {.txFail, .record} p p.transmitFailure := by
  refine ⟨fun x hx => ?_⟩; cases x <;> simp_all [Block.Same, Part.transmitFailure, Shift.closed]

theorem Part.queueFrame_frame (body : FrameBody) (p : Part) : ChangesOnly sendBlocks p (p.queueFrame body) := by
  unfold Part.queueFrame
  refine .ite .refl (.ite .refl ?_)
  by_cases h : p.line.queue.length < queueSize
  · simp only [h, if_true]
    exact ((p.place_frame body).2 h).mono
  · simp only [h, if_false]
    exact p.transmitFailure_frame.mono

theorem Part.reply_frame (cmd : Nat) (code : Code) (data : List Byte) (p : Part) :
    ChangesOnly {.response} p (p.reply cmd code data) := by
  refine ⟨fun x hx => ?_⟩; cases x <;> simp_all [Block.Same, Part.reply]

/-! ## Claims (chapter 3) -/

theorem Part.updRes_frame (k : Fin 3) (f : Resource → Resource) (p : Part) (T : Set Block)
    (h : ∀ r, (.claim k ∉ T → (f r).state = r.state ∧ (f r).user = r.user ∧ (f r).settle = r.settle ∧
        (f r).note = r.note ∧ (f r).stagger = r.stagger) ∧ (.waitList k ∉ T → (f r).waitList = r.waitList) ∧
      (.reclaim k ∉ T → (f r).reclaim = r.reclaim) ∧
      (.view k ∉ T → (f r).claimant = r.claimant ∧ (f r).released = r.released) ∧
      (.mark k ∉ T → (f r).conflict = r.conflict) := by
        intro r; simp [sendBlocks, leaveBlocks, Resource.toIdle]) :
    ChangesOnly T p (p.updRes k f) := by
  refine ⟨fun y hy => ?_⟩
  cases y with
  | claim i | waitList i | reclaim i | view i | mark i =>
    by_cases e : i = k
    · subst e; simp_all [Block.Same]
    · simp [Block.Same, set_other, e, -Fin.getElem_fin]
  | _ => simp [Block.Same]

theorem Part.service_frame (k : Fin 3) (p : Part) : ChangesOnly {.claim k} p (p.service k) :=
  .ite (p.updRes_frame k _ _) .refl

theorem Part.serviceAll_frame (p : Part) : ChangesOnly (Set.range .claim) p p.serviceAll :=
  .forAll (fun k p => (p.service_frame k).mono) _ p

theorem Part.request_frame (k : Fin 3) (u : Nat) (p : Part) :
    ChangesOnly {.claim k, .waitList k} p (p.request k u) := by
  unfold Part.request
  exact .ite .refl (.ite .refl ((p.updRes_frame k _ _).next (Part.service_frame k _)))

theorem Part.beginReclaim_frame (k : Fin 3) (p : Part) : ChangesOnly {.reclaim k} p (p.beginReclaim k) :=
  p.updRes_frame k _ _

theorem Part.toIdle_frame (k : Fin 3) (p : Part) : ChangesOnly {.claim k} p (p.updRes k Resource.toIdle) := by
  exact p.updRes_frame k _ _

theorem Part.release_frame (k : Fin 3) (p : Part) :
    ChangesOnly ({.claim k, .reclaim k, .events} ∪ sendBlocks) p (p.release k) :=
  ((((p.queueFrame_frame _).mono.next (Part.toIdle_frame k _)).next (Part.offer_frame ..))).next
    (Part.beginReclaim_frame k _)

theorem Part.withdraw_frame (k : Fin 3) (u : Nat) (p : Part) : ChangesOnly (leaveBlocks k) p (p.withdraw k u) := by
  unfold Part.withdraw
  refine .ite (p.release_frame k).mono (.ite ?_ (.ite ?_ (p.updRes_frame k _ _)))
  · exact ((((p.updRes_frame k _ _).next (Part.queueFrame_frame _ _)).next (Part.toIdle_frame k _)).next
      (Part.beginReclaim_frame k _))
  · exact (p.updRes_frame k _ _).next (Part.service_frame k _)

theorem Part.enterClaiming_frame (k : Fin 3) (p : Part) :
    ChangesOnly ({.claim k} ∪ sendBlocks) p (p.enterClaiming k) := by
  unfold Part.enterClaiming
  exact .ite ((p.updRes_frame k _ _).next (Part.queueFrame_frame _ _))
    ((p.updRes_frame k _ _).next (Part.queueFrame_frame _ _))

theorem Part.yieldClaim_frame (k : Fin 3) (p : Part) : ChangesOnly {.claim k} p (p.yieldClaim k) := by
  refine p.updRes_frame k _ _ fun r => ?_
  repeat' split
  all_goals simp

theorem Part.seeClaim_frame (k : Fin 3) (q : Fin 16) (u : Option Nat) (p : Part) :
    ChangesOnly {.view k} p (p.seeClaim k q u) := by
  refine p.updRes_frame k _ _ fun r => ?_
  repeat' split
  all_goals simp

theorem Part.dropClaimant_frame (k : Fin 3) (q : Fin 16) (p : Part) :
    ChangesOnly {.view k} p (p.dropClaimant k q) := by
  refine p.updRes_frame k _ _ fun r => ?_
  repeat' split
  all_goals simp

theorem Part.refreshMarks_frame (p : Part) : ChangesOnly (Set.range .mark) p p.refreshMarks := by
  refine .forAll (fun k p => ?_) _ p
  refine p.updRes_frame k _ _ fun r => ?_
  repeat' split
  all_goals simp

theorem Part.claimNotice_frame (tag : Nat) (sent : Bool) (p : Part) :
    ChangesOnly (Set.range .claim) p (p.claimNotice tag sent) := by
  refine .forAll (fun k p => ?_) _ p
  refine p.updRes_frame k _ _ fun r => ?_
  repeat' split
  all_goals simp

/-! ## Feeder states (R100, R101) and the frozen capacity (R64) -/

theorem Part.writeFeeder_frame (f : Fin 6) (p : Part) : ChangesOnly {.driveOut} p (p.writeFeeder f) := by
  refine ⟨fun x hx => ?_⟩; cases x <;> simp_all [Block.Same, Part.writeFeeder, Field.scanning]

theorem Part.feederTo_frame (f : Fin 6) (st : FeederState) (sp : Nat) (p : Part) :
    ChangesOnly {.drive f, .driveOut} p (p.feederTo f st sp) :=
  ((p.updFeeder_drive_frame f _ (by simp [Feeder.measured])).mono).next (Part.writeFeeder_frame f _)

theorem Part.settleFeeder_frame (f : Fin 6) (p : Part) : ChangesOnly {.drive f, .driveOut} p (p.settleFeeder f) := by
  unfold Part.settleFeeder
  exact .ite .refl (.ite (.ite .refl (p.feederTo_frame f _ _)) (.ite .refl (p.feederTo_frame f _ _)))

theorem Part.settleFeeders_frame (p : Part) : ChangesOnly (Set.range .drive ∪ {.driveOut}) p p.settleFeeders :=
  .forAll (fun f p => (p.settleFeeder_frame f).mono) _ p

theorem Part.settleFeedersOf_frame (b : Fin 2) (p : Part) :
    ChangesOnly (Set.range .drive ∪ {.driveOut}) p (p.settleFeedersOf b) :=
  .forAll (fun f p => (p.settleFeeder_frame f).mono) _ p

theorem Part.freeze_frame (b : Fin 2) (p : Part) : ChangesOnly {.alloc} p (p.freeze b) := by
  refine ⟨fun x hx => ?_⟩; cases x <;> simp_all [Block.Same, Part.freeze]

theorem Part.freezeAll_frame (p : Part) : ChangesOnly {.alloc} p p.freezeAll := .forAll Part.freeze_frame _ p

/-! ## Burners (chapter 5) -/

theorem Part.replaceMix_frame (b : Fin 2) (m : Vector Nat 6) (p : Part) : ChangesOnly mixBlocks p (p.replaceMix b m) := by
  refine (ChangesOnly.mono ?_ (Set.subset_union_left.trans Set.subset_union_left)).next (Part.settleFeedersOf_frame b _)
  refine .forAll (fun f p => ⟨fun y hy => ?_⟩) _ p
  cases y with
  | drive i =>
    by_cases e : i = f
    · subst e; simp [Block.Same]
    · simp [Block.Same, set_other, e, -Fin.getElem_fin]
  | _ => simp_all [Block.Same]

theorem Part.endRamp_frame (b : Fin 2) (p : Part) :
    ChangesOnly ({.ramp b} ∪ mixBlocks ∪ leaveBlocks 2) p (p.endRamp b) := by
  unfold Part.endRamp
  split
  · exact ((Part.replaceMix_frame b _ p).mono.next (Part.setRamp_frame b _ _)).next (Part.withdraw_frame 2 _ _)
  · exact .refl

theorem Part.zeroSetpoints_frame (b : Fin 2) (p : Part) : ChangesOnly (Set.range .drive) p (p.zeroSetpoints b) := by
  refine .forAll (fun f p => (p.updFeeder_drive_frame f _ ?_).mono) _ p
  intro y; split <;> simp [Feeder.measured]

theorem Part.leaveFor_frame (b : Fin 2) (st : BurnerState) (p : Part) :
    ChangesOnly ({.ramp b} ∪ mixBlocks ∪ leaveBlocks 0 ∪ leaveBlocks 2) p (p.leaveFor b st) := by
  have h : ChangesOnly ({.ramp b} ∪ mixBlocks ∪ leaveBlocks 0 ∪ leaveBlocks 2) p
      (if st = .lightWait ∨ st = .igniting ∨ st = .loading then p else p.withdraw 0 b.val) :=
    .ite .refl (p.withdraw_frame 0 _).mono
  exact .ite h (h.next (Part.endRamp_frame b _))

theorem Part.igniter_frame (f : Vector Bool 2 → Vector Bool 2) (p : Part) :
    ChangesOnly {.igniters} p (p.updOutput fun o => { o with igniter := f o.igniter }) := by
  refine ⟨fun x hx => ?_⟩; cases x <;> simp_all [Block.Same, Field.scanning]

theorem Part.burnerTo_frame (b : Fin 2) (st : BurnerState) (fix : Burner → Burner) (p : Part) (mark : Bool) :
    ChangesOnly (burnerBlocks b) p (p.burnerTo b st fix mark) := by
  have h : ∀ q : Part, ChangesOnly (burnerBlocks b) p q → ChangesOnly (burnerBlocks b) p
      ((if st = .off ∨ st = .held ∨ st = .tripped then q.zeroSetpoints b else q).settleFeedersOf b) :=
    fun q hq => (ChangesOnly.ite (hq.next (Part.zeroSetpoints_frame b _)) hq).next (Part.settleFeedersOf_frame b _)
  exact ((h _ (((p.leaveFor_frame b st).mono.next (Part.updBurner_frame b _ _)).next
    (Part.igniter_frame (fun v => v.set b (st == .igniting)) _))).next (Part.record_frame _ _)).next
      (Part.offer_frame ..)

theorem Part.enterLightWait_frame (b : Fin 2) (c : BurnerState) (p : Part) :
    ChangesOnly (burnerBlocks b) p (p.enterLightWait b c) :=
  (p.burnerTo_frame b _ _ _).next (Part.request_frame 0 _ _)

theorem Part.enterFiring_frame (b : Fin 2) (p : Part) : ChangesOnly (burnerBlocks b) p (p.enterFiring b) :=
  p.burnerTo_frame b _ _ _

theorem Part.hold_frame (b : Fin 2) (c : Bool) (p : Part) : ChangesOnly (burnerBlocks b) p (p.hold b c) :=
  p.burnerTo_frame b _ _ _

theorem Part.tripBurner_frame (b : Fin 2) (p : Part) : ChangesOnly (burnerBlocks b) p (p.tripBurner b) :=
  .ite .refl (p.burnerTo_frame b _ _ _)

theorem Part.resume_frame (b : Fin 2) (p : Part) : ChangesOnly (burnerBlocks b) p (p.resume b) := by
  unfold Part.resume
  split
  · exact p.enterFiring_frame b
  · exact p.enterLightWait_frame b _

theorem Part.followCauses_frame (b : Fin 2) (p : Part) : ChangesOnly {.burner b} p (p.followCauses b) :=
  p.updBurner_frame b _

theorem Part.settleHold_frame (b : Fin 2) (p : Part) :
    ChangesOnly (burnerBlocks b) p ((p.followCauses b).autoResume b) :=
  (p.followCauses_frame b).mono.next (.ite (Part.resume_frame b _) .refl)

theorem Part.settleHolds_frame (p : Part) : ChangesOnly (burnerBlocks 0 ∪ burnerBlocks 1) p p.settleHolds := by
  refine .forAll (fun b p => (p.settleHold_frame b).mono ?_) _ p
  match b with
  | 0 => exact Set.subset_union_left
  | 1 => exact Set.subset_union_right

theorem Part.checkStopped_frame (b : Fin 2) (p : Part) : ChangesOnly (burnerBlocks b) p (p.checkStopped b) :=
  .ite (p.burnerTo_frame b _ _ _) .refl

theorem Part.oneBurner (b : Fin 2) : burnerBlocks b ⊆ burnerBlocks 0 ∪ burnerBlocks 1 :=
  match b with
  | 0 => Set.subset_union_left
  | 1 => Set.subset_union_right

/-! ## Feeders (chapter 6) -/

/-- What a local input may change: the drive, an event, a frozen capacity, and perhaps the end of a STOPPING (R87). -/
def localBlocks (f : Fin 6) : Set Block := {.drive f, .driveOut, .events, .alloc} ∪ (burnerBlocks 0 ∪ burnerBlocks 1)

/-- LOCAL entered or left, or the feeder found again. -/
theorem Part.takeLocal_frame (c : Channel Bool) (f : Fin 6) (p : Part) :
    ChangesOnly (localBlocks f) p (p.takeLocal c f) := by
  have drive : ({.drive f, .driveOut} : Set Block) ⊆ localBlocks f := by
    rintro x (rfl | rfl) <;> simp [localBlocks]
  have stop : ∀ (b : Fin 2) (r : Part), ChangesOnly (localBlocks f) r ((r.freeze b).checkStopped b) :=
    fun b r => ((r.freeze_frame b).mono (by simp [localBlocks])).next (Part.checkStopped_frame b _)
      ((Part.oneBurner b).trans Set.subset_union_right)
  unfold Part.takeLocal
  refine .ite .refl (.ite (.ite .refl ?_) (.ite ?_ (.ite .refl ((p.settleFeeder_frame f).mono drive))))
  · exact (((p.feederTo_frame f _ _).mono drive).next (Part.offer_frame ..) (by simp [localBlocks])).trans (stop _ _)
  · refine ChangesOnly.trans ?_ (stop _ _)
    exact ChangesOnly.next (.ite ((p.feederTo_frame f _ _).mono drive) ((p.feederTo_frame f _ _).mono drive))
      (Part.offer_frame ..) (by simp [localBlocks])

/-! ## Allocation (chapter 4) -/

theorem Part.evaluate_frame (p : Part) : ChangesOnly {.alloc, .record} p p.evaluate := by
  unfold Part.evaluate
  refine .ite ?_ .refl
  refine ⟨fun x hx => ?_⟩
  cases x with
  | offer =>
    simp only [Block.Same, Part.record_alloc, Part.evaluated, Part.stageSplit, Part.stageTarget, Part.stageCapacity,
      Part.stageCeiling, Part.stageDemand, Alloc.stageEffective]
    constructor
    · repeat' split
      all_goals rfl
    · repeat' split
      all_goals rfl
  | _ => simp_all [Block.Same, Shift.closed]

theorem Part.deliverHeat_frame (p : Part) : ChangesOnly {.alloc} p p.deliverHeat := by
  refine ⟨fun x hx => ?_⟩; cases x <;> simp_all [Block.Same, Part.deliverHeat]

/-! ## Alarms (chapter 8) -/

theorem Part.points_frame (f : Alarms → Alarms) (p : Part)
    (h : ∀ a, (f a).ext = a.ext ∧ (f a).peerTrips = a.peerTrips ∧ (f a).raisedBy = a.raisedBy ∧
      (f a).tripSeq = a.tripSeq ∧ (f a).firstOut = a.firstOut ∧ (f a).tripNew = a.tripNew ∧ (f a).horn = a.horn ∧
      (f a).events = a.events ∧ (f a).lost = a.lost ∧ (f a).readPos = a.readPos ∧ (f a).readEmpty = a.readEmpty :=
        by simp) : ChangesOnly {.points} p (p.updAlarms f) := by
  refine ⟨fun x hx => ?_⟩; cases x <;> simp_all [Block.Same]

theorem Part.updPoint_frame (i : Fin 62) (f : Point → Point) (p : Part) : ChangesOnly {.points} p (p.updPoint i f) :=
  p.points_frame _

theorem Part.setHorn_frame (on : Bool) (p : Part) : ChangesOnly {.horn, .hornOut} p (p.setHorn on) := by
  refine ⟨fun x hx => ?_⟩; cases x <;> simp_all [Block.Same, Part.setHorn, Field.scanning]

theorem Part.hornCheck_frame (p : Part) : ChangesOnly {.horn, .hornOut} p p.hornCheck :=
  .ite .refl (p.setHorn_frame false)

theorem Part.keepHorn_frame (i : Fin 62) (p : Part) : ChangesOnly {.horn, .hornOut} p (p.keepHorn i) :=
  .ite (p.setHorn_frame true) .refl

theorem Part.offerPoint_frame (i : Fin 62) (st : PointState) (p : Part) :
    ChangesOnly {.events} p (p.offerPoint i st) := p.offer_frame ..

theorem Part.movePoint_frame (i : Fin 62) (st : PointState) (p : Part) :
    ChangesOnly pointBlocks p (p.movePoint i st) :=
  ((p.updPoint_frame i _).mono).next (Part.offerPoint_frame i st _)

theorem Part.fallPoint_frame (i : Fin 62) (p : Part) : ChangesOnly pointBlocks p (p.fallPoint i) := by
  unfold Part.fallPoint
  split
  · exact p.movePoint_frame i _
  · exact .ite (p.movePoint_frame i _) (p.movePoint_frame i _)
  · exact .refl

theorem Part.fillFirstOut_frame (i : Fin 62) (o : Option Origin) (p : Part) :
    ChangesOnly {.firstOut} p (p.fillFirstOut i o) := by
  refine ⟨fun x hx => ?_⟩; cases x <;> simp_all [Block.Same, Part.fillFirstOut]

theorem Part.tripLine_frame (i : Fin 62) (p : Part) : ChangesOnly ({.tripSeq} ∪ sendBlocks) p (p.tripLine i) := by
  have h : ChangesOnly {.tripSeq} p (p.updAlarms fun a => { a with tripSeq := a.tripSeq + 1 }) := by
    refine ⟨fun x hx => ?_⟩; cases x <;> simp_all [Block.Same]
  exact h.mono.next (Part.queueFrame_frame _ _)

theorem Part.tripBound_frame (b : Binding) (p : Part) :
    ChangesOnly (burnerBlocks 0 ∪ burnerBlocks 1) p (p.tripBound b) := by
  unfold Part.tripBound
  split
  · exact .refl
  · exact ((p.tripBurner_frame 0).mono (Part.oneBurner 0)).trans ((Part.tripBurner_frame 1 _).mono (Part.oneBurner 1))
  · exact (p.tripBurner_frame _).mono (Part.oneBurner _)

theorem Part.pointIn : pointBlocks ⊆ tripBlocks := by
  intro x hx
  exact .inl (.inl (.inl (.inl hx)))

theorem Part.burnersIn : burnerBlocks 0 ∪ burnerBlocks 1 ⊆ tripBlocks := by
  intro x hx
  rcases hx with h | h
  · exact .inl (.inr h)
  · exact .inr h

theorem Part.actTrip_frame (i : Fin 62) (p : Part) : ChangesOnly tripBlocks p (p.actTrip i) := by
  have h : ∀ (o : Option Origin) (g : ShiftRec → ShiftRec), ChangesOnly tripBlocks p
      (((p.tripBound (p.pointAttr i).binding).fillFirstOut i o).record g) := fun o g =>
    (((p.tripBound_frame _).mono Part.burnersIn).next (Part.fillFirstOut_frame i o _)).next (Part.record_frame g _)
  exact .ite ((h _ _).next (Part.tripLine_frame i _)) (h _ _)

/-- What an activation does before it trips. -/
theorem Part.activate_frame (i : Fin 62) (p : Part) : ChangesOnly tripBlocks p (p.activate i) ∧
    ((p.pointAttr i).cls ≠ .trip → ChangesOnly pointBlocks p (p.activate i)) := by
  have h : ∀ (f : Point → Point) (g : Alarms → Alarms), (∀ r, ChangesOnly {.points} r (r.updAlarms g)) →
      ChangesOnly pointBlocks p (((p.updPoint i f).offerPoint i .active).updAlarms g) := fun f g hg =>
    ((p.updPoint_frame i f).mono.next (Part.offerPoint_frame i .active _)).next (hg _)
  have k : ∀ (f : Point → Point) (g : Alarms → Alarms) (r : ShiftRec → ShiftRec) (c : Prop) [Decidable c],
      (∀ r, ChangesOnly {.points} r (r.updAlarms g)) → ChangesOnly pointBlocks p
        ((if c then (((p.updPoint i f).offerPoint i .active).updAlarms g).setHorn true
          else ((p.updPoint i f).offerPoint i .active).updAlarms g).record r) := fun f g r c _ hg =>
    (ChangesOnly.ite ((h f g hg).next (Part.setHorn_frame true _)) (h f g hg)).next (Part.record_frame r _)
  constructor
  · exact .ite (((k _ _ _ _ (fun r => r.points_frame _)).mono Part.pointIn).trans (Part.actTrip_frame i _))
      ((k _ _ _ _ (fun r => r.points_frame _)).mono Part.pointIn)
  · intro c
    simp only [Part.activate, if_neg c]
    exact k _ _ _ _ (fun r => r.points_frame _)

theorem Part.risePoint_frame (i : Fin 62) (p : Part) : ChangesOnly tripBlocks p (p.risePoint i) ∧
    ((p.pointAttr i).cls ≠ .trip → ChangesOnly pointBlocks p (p.risePoint i)) := by
  unfold Part.risePoint
  split
  · exact p.activate_frame i
  · exact p.activate_frame i
  · exact ⟨(p.movePoint_frame i _).mono Part.pointIn, fun _ => p.movePoint_frame i _⟩
  · exact ⟨.refl, fun _ => .refl⟩

theorem Part.settlePoint_frame (i : Fin 62) (p : Part) (same : Bool) :
    ChangesOnly tripBlocks p (p.settlePoint i same) ∧
    ((p.pointAttr i).cls ≠ .trip → ChangesOnly pointBlocks p (p.settlePoint i same)) := by
  have u := (p.updPoint_frame i fun x => { x with eff := p.effective i }).mono (U := pointBlocks)
  have r := Part.risePoint_frame i (p.updPoint i fun x => { x with eff := p.effective i })
  have f := u.trans (Part.fallPoint_frame i (p.updPoint i fun x => { x with eff := p.effective i }))
  have low : ChangesOnly pointBlocks p
      (if p.alarms.points[i].state.quietedByFall same = true then
        ((p.updPoint i fun x => { x with eff := p.effective i }).fallPoint i).hornCheck
      else (p.updPoint i fun x => { x with eff := p.effective i }).fallPoint i) :=
    .ite (f.next (Part.hornCheck_frame _)) f
  constructor
  · exact .ite .refl (.ite (u.mono Part.pointIn) (.ite ((u.mono Part.pointIn).trans r.1) (low.mono Part.pointIn)))
  · intro c
    exact .ite .refl (.ite u (.ite (u.trans (r.2 c)) low))

theorem Part.settlePoints_frame (l : List (Fin 62)) (p : Part) : ChangesOnly tripBlocks p (p.settlePoints l) :=
  .forAll (fun i p => (p.settlePoint_frame i false).1) l p

/-- The fixed part of an internal point does not depend on the state (R140). -/
theorem Part.internal_attr (p q : Part) (i : Fin 62) (h : i.val < 46) : p.pointAttr i = q.pointAttr i := by
  fin_cases i <;> first | rfl | (simp at h)

theorem quiet_no_trip : ∀ i ∈ quietPoints, i.val < 46 ∧ ((Part.powerUp 0 0 false).pointAttr i).cls ≠ .trip := by decide

theorem Part.quiet_attr (p : Part) (i : Fin 62) (h : i ∈ quietPoints) : (p.pointAttr i).cls ≠ .trip := by
  rw [p.internal_attr (.powerUp 0 0 false) i (quiet_no_trip i h).1]
  exact (quiet_no_trip i h).2

theorem Part.settleQuiet_frame (p : Part) : ChangesOnly pointBlocks p (p.settlePoints quietPoints) := by
  unfold Part.settlePoints Part.forAll
  have : ∀ l : List (Fin 62), (∀ i ∈ l, i ∈ quietPoints) → ∀ p : Part,
      ChangesOnly pointBlocks p (l.foldl (fun p i => p.settlePoint i) p) := by
    intro l
    induction l with
    | nil => exact fun _ _ => .refl
    | cons i l ih =>
      intro h p
      exact ((p.settlePoint_frame i false).2 (p.quiet_attr i (h i (by simp)))).trans (ih (fun j hj => h j (by simp [hj])) _)
  exact this _ (fun _ h => h) p

theorem Part.settle_frame (p : Part) : ChangesOnly settleBlocks p p.settle :=
  (((p.serviceAll_frame.mono).next (Part.freezeAll_frame _)).next (Part.evaluate_frame _)).next
    (Part.settleQuiet_frame _)

theorem Part.settleAll_frame (p : Part) : ChangesOnly settleAllBlocks p p.settleAll :=
  (((p.settlePoints_frame _).mono Set.subset_union_left).trans ((Part.settleHolds_frame _).mono
    (Part.burnersIn.trans Set.subset_union_left))).trans ((Part.settle_frame _).mono Set.subset_union_right)

end Sys2Proof.Machine
end

