-- ==== Sys2Proof/Laws/Line.lean ====
section
/-! SUPPORT. What read-back finds (R10, R3), how an attempt ends (R11, R12), when a partial frame stands (R14), and the bytes that
the bits of FDI make (R198): one law for each shared operation of the two serial ports. -/

namespace Sys2Proof.Machine

-- One proof at a time: the whole package as one text must not start a thread for each of them.
set_option Elab.async false
open Sys2Proof.Config

/-! ## Read-back (R10) -/

/-- A character that passes the tests of R1 is the one that carries its data bits. -/
theorem charOf_charData : ∀ c : Character, c.getLsbD 0 = false → framingError c = false → parityError c = false →
    c = charOf (charData c) := by decide +kernel

/-- The character that carries a byte passes the tests of R1 and is read as that byte. -/
theorem charOf_sound : ∀ b : Byte, (charOf b).getLsbD 0 = false ∧ framingError (charOf b) = false ∧
    parityError (charOf b) = false ∧ charData (charOf b) = b := by decide +kernel

/-- A character is read back good exactly when the very character sent is received, in step with it. -/
theorem readGood_iff (n : Nat) (b : Byte) (r : ReadBack) : readGood n b r = true ↔ r = .heard (charOf b) (11 * n + 10) := by
  cases r with
  | nothing => simp [readGood]
  | heard c stopAt =>
    simp only [readGood, Bool.and_eq_true, Bool.not_eq_true', beq_iff_eq, ReadBack.heard.injEq]
    constructor
    · rintro ⟨⟨⟨⟨start, framing⟩, parity⟩, data⟩, stop⟩
      exact ⟨data ▸ charOf_charData c start framing parity, stop⟩
    · rintro ⟨rfl, rfl⟩
      obtain ⟨start, framing, parity, data⟩ := charOf_sound b
      exact ⟨⟨⟨⟨start, framing⟩, parity⟩, data⟩, rfl⟩

/-- No mismatch: every character read back is good. -/
theorem mismatchFrom_eq_none (n : Nat) (bs : List Byte) (rs : List ReadBack) : mismatchFrom n bs rs = none ↔
    ∀ (i : Nat) (b : Byte) (r : ReadBack), bs[i]? = some b → rs[i]? = some r → readGood (n + i) b r = true := by
  induction bs generalizing n rs with
  | nil => simp [mismatchFrom]
  | cons b bs ih =>
    cases rs with
    | nil => simp [mismatchFrom]
    | cons r rs =>
      simp only [mismatchFrom]
      by_cases g : readGood n b r = true
      · simp only [g, if_true, ih]
        constructor
        · rintro h (_ | i) c s hc hs
          · simp_all
          · simpa [Nat.add_assoc, Nat.add_comm 1] using h i c s (by simpa using hc) (by simpa using hs)
        · intro h i c s hc hs
          simpa [Nat.add_assoc, Nat.add_comm 1] using h (i + 1) c s (by simpa using hc) (by simpa using hs)
      · simp only [g]
        exact ⟨fun h => (by simp at h), fun h => absurd (by simpa using h 0 b r (by simp) (by simp)) g⟩

/-- A mismatch at character m: it is not good, and every character before it is. -/
theorem mismatchFrom_eq_some (n m : Nat) (bs : List Byte) (rs : List ReadBack) (h : mismatchFrom n bs rs = some m) :
    ∃ i b r, m = n + i ∧ bs[i]? = some b ∧ rs[i]? = some r ∧ readGood m b r = false ∧
      ∀ j < i, ∀ c s, bs[j]? = some c → rs[j]? = some s → readGood (n + j) c s = true := by
  induction bs generalizing n rs with
  | nil => simp [mismatchFrom] at h
  | cons b bs ih =>
    cases rs with
    | nil => simp [mismatchFrom] at h
    | cons r rs =>
      simp only [mismatchFrom] at h
      by_cases g : readGood n b r = true
      · simp only [g, if_true] at h
        obtain ⟨i, c, s, rfl, hc, hs, hg, before⟩ := ih _ _ h
        refine ⟨i + 1, c, s, by omega, by simpa using hc, by simpa using hs, hg, ?_⟩
        rintro (_ | j) hj c s hc hs
        · simp_all
        · simpa [Nat.add_assoc, Nat.add_comm 1] using before j (by omega) c s (by simpa using hc) (by simpa using hs)
      · simp only [g] at h
        obtain rfl : n = m := by simpa using h
        exact ⟨0, b, r, rfl, by simp, by simp, by simpa using g, fun j hj => absurd hj (by omega)⟩

/-- A frame is read back whole exactly when the characters of its attempt come back as they were sent, each in step. -/
theorem Line.readsBack_iff (back : List ReadBack) (l : Line) : l.readsBack back = true ↔
    back = l.output := by
  simp only [Line.output, Line.readsBack, Line.mismatch, Bool.and_eq_true, beq_iff_eq, Option.isNone_iff_eq_none, mismatchFrom_eq_none,
    readGood_iff, Nat.zero_add]
  constructor
  · rintro ⟨len, good⟩
    refine List.ext_getElem (by simpa using len) fun i hi hj => ?_
    have hw : i < l.wire.length := by omega
    simpa using good i l.wire[i] back[i] (List.getElem?_eq_getElem hw) (List.getElem?_eq_getElem hi)
  · rintro rfl
    refine ⟨by simp, fun i b r hb hr => ?_⟩
    simp only [List.getElem?_mapIdx, hb, Option.map_some, Option.some.injEq] at hr
    exact hr.symm

@[simp] theorem Line.readsBack_output (l : Line) : l.readsBack l.output = true := (l.readsBack_iff _).2 rfl

@[simp] theorem Line.mismatch_output (l : Line) : l.mismatch l.output = none := by
  have h := l.readsBack_output
  simp only [Line.readsBack, Bool.and_eq_true, Option.isNone_iff_eq_none] at h
  exact h.2

/-- In LOOPBACK every attempt is read back whole, whatever LRX brings (R3); else by what LRX brings. -/
theorem Part.readsBack_takesBack (back : List ReadBack) (p : Part) :
    p.line.readsBack (p.takesBack back) = (p.loopback || p.line.readsBack back) := by
  unfold Part.takesBack; cases p.loopback <;> simp

/-- In LOOPBACK no character is a mismatch, whatever LRX brings (R3); else by what LRX brings. -/
theorem Part.mismatch_takesBack (back : List ReadBack) (p : Part) :
    p.line.mismatch (p.takesBack back) = if p.loopback then none else p.line.mismatch back := by
  unfold Part.takesBack; cases p.loopback <;> simp

/-! ## The end of an attempt (R11, R12, R19, R24) -/

/-- Whatever a failed attempt is: the frame removed without a count, retried with one more attempt, or given up. -/
theorem Part.failAttempt_cases (h : TxFrame) (t : List TxFrame) (p : Part) :
    (p.line.lastTry = true ∧ p.failAttempt h t = p.updLine fun l => { l with queue := t, lastTry := false }) ∨
    (p.line.lastTry = false ∧ h.attempts < 7 ∧ p.failAttempt h t =
      (p.updLine fun l => { l with queue := orderQueue ({ h with attempts := h.attempts + 1 } :: t),
                                   counts := { l.counts with retries := l.counts.retries + 1 } }).record
        fun r => { r with retries := r.retries + 1 }) ∨
    (p.line.lastTry = false ∧ 7 ≤ h.attempts ∧ p.failAttempt h t =
      ((p.updLine fun l => { l with queue := t }).transmitFailure).claimNotice h.tag false) := by
  unfold Part.failAttempt
  by_cases last : p.line.lastTry = true
  · exact .inl ⟨last, by simp [last]⟩
  · by_cases few : h.attempts + 1 < 8
    · exact .inr (.inl ⟨by simpa using last, by omega, by simp [last, few]⟩)
    · exact .inr (.inr ⟨by simpa using last, by omega, by simp [last, few]⟩)

/-- What a notice of frame `tag` does (R43): each record that waits on it, and no other, is settled or goes back to WAITING. -/
theorem Part.claimNotice_eq (tag : Nat) (sent : Bool) (p : Part) : p.claimNotice tag sent = { p with
    claims := Vector.ofFn fun k =>
      if p.claims[k].state = .claiming ∧ p.claims[k].note = some tag then
        if sent then { p.claims[k] with settle := some (later p.now p.cfg.period), note := none }
        else { p.claims[k] with state := .waiting, settle := none, note := none }
      else p.claims[k] } := by
  have all : (resourceIds : List (Fin 3)) = [0, 1, 2] := rfl
  simp only [Part.claimNotice, all, Part.forAll, List.foldl, Part.updRes]
  congr 1
  ext1 i hi
  have : i = 0 ∨ i = 1 ∨ i = 2 := by omega
  rcases this with rfl | rfl | rfl <;> simp

@[simp] theorem Part.endBreak_phase (p : Part) : p.endBreak.line.phase = .idle := rfl
@[simp] theorem Part.endBreak_receiver (p : Part) : p.endBreak.line.receiver = .deaf := rfl
@[simp] theorem Part.endBreak_queue (p : Part) : p.endBreak.line.queue = p.line.queue := rfl
@[simp] theorem Part.endBreak_lastTry (p : Part) : p.endBreak.line.lastTry = p.line.lastTry := rfl
@[simp] theorem Part.endBreak_now (p : Part) : p.endBreak.now = p.now := rfl

/-! ## Partial frames (R14) -/

/-- A partial frame stands where the receiver takes characters in and there are some. -/
theorem Part.partialStands_iff (chars : List Byte) (p : Part) : p.partialStands chars = true ↔
    (p.line.receiver = .ready ∨ p.line.receiver = .behind) ∧ p.line.assembly ++ chars ≠ [] := by
  unfold Part.partialStands
  cases p.line.receiver <;> cases p.line.assembly <;> cases chars <;> simp [Receiver.takesIn]

/-! ## The bits of FDI (R198) -/

/-- Bit i of a byte on FDI is the i-th from its most significant. -/
theorem fieldByte_getLsbD : ∀ b7 b6 b5 b4 b3 b2 b1 b0 : Bool, ∀ i : Fin 8,
    (fieldByte [b7, b6, b5, b4, b3, b2, b1, b0]).getLsbD (7 - i.val) = [b7, b6, b5, b4, b3, b2, b1, b0][i] := by
  decide +kernel

/-- A byte clocked out is the byte clocked in: FDI is read as FDO is sent. -/
theorem fieldByte_fieldBits : ∀ b : Byte, fieldByte (fieldBits b) = b := by decide +kernel

theorem fieldBits_eq (b : Byte) : fieldBits b =
    [b.getLsbD 7, b.getLsbD 6, b.getLsbD 5, b.getLsbD 4, b.getLsbD 3, b.getLsbD 2, b.getLsbD 1, b.getLsbD 0] := rfl

/-- A block clocked out is the block clocked in. -/
theorem fieldBytes_fieldBits (l : List Byte) : fieldBytes (l.flatMap fieldBits) = l := by
  induction l with
  | nil => rfl
  | cons b l ih =>
    have h := fieldByte_fieldBits b
    rw [fieldBits_eq] at h
    simp only [List.flatMap_cons, fieldBits_eq, List.cons_append, List.nil_append, fieldBytes, h]
    exact congrArg _ ih

/-- Bits 8 n to 8 n + 7 are byte n, the most significant first; bits that make no whole byte are none. -/
theorem fieldBytes_spec (bits : List Bool) : (fieldBytes bits).length = bits.length / 8 ∧
    ∀ (n i : Nat) (b : Bool), i < 8 → n < (fieldBytes bits).length → bits[8 * n + i]? = some b →
      ((fieldBytes bits).getD n 0).getLsbD (7 - i) = b := by
  induction bits using fieldBytes.induct with
  | case1 b7 b6 b5 b4 b3 b2 b1 b0 rest ih =>
    refine ⟨by simp [fieldBytes, ih.1]; omega, ?_⟩
    rintro (_ | n) i b hi hn hb
    · have := fieldByte_getLsbD b7 b6 b5 b4 b3 b2 b1 b0 ⟨i, hi⟩
      simp only [fieldBytes, List.getD_cons_zero, this]
      have hb' : (b7 :: b6 :: b5 :: b4 :: b3 :: b2 :: b1 :: b0 :: rest)[i]? =
          [b7, b6, b5, b4, b3, b2, b1, b0][i]? :=
        List.getElem?_append_left (l₁ := [b7, b6, b5, b4, b3, b2, b1, b0]) (l₂ := rest) hi
      rw [Nat.mul_zero, Nat.zero_add, hb', List.getElem?_eq_getElem (l := [b7, b6, b5, b4, b3, b2, b1, b0]) hi] at hb
      exact Option.some.inj hb
    · simp only [fieldBytes, List.length_cons, List.getD_cons_succ] at hn ⊢
      refine ih.2 n i b hi (by omega) ?_
      rw [← hb, show 8 * (n + 1) + i = 8 * n + i + 1 + 1 + 1 + 1 + 1 + 1 + 1 + 1 by omega]
      simp only [List.getElem?_cons_succ]
  | case2 bits short =>
    have len : bits.length < 8 := by
      rcases bits with _ | ⟨b7, _ | ⟨b6, _ | ⟨b5, _ | ⟨b4, _ | ⟨b3, _ | ⟨b2, _ | ⟨b1, _ | ⟨b0, rest⟩⟩⟩⟩⟩⟩⟩⟩ <;>
        first
        | exact absurd rfl (short _ _ _ _ _ _ _ _ _)
        | simp
    have none : fieldBytes bits = [] := by
      unfold fieldBytes
      split
      · simp only [List.length_cons] at len; omega
      · rfl
    exact ⟨by simp [none]; omega, fun n i b _ hn => by simp [none] at hn⟩

end Sys2Proof.Machine
end

