-- ==== Sys2Proof/Laws/PerInstr.lean ====
section
/-! SUPPORT. The statement made of every row of the table, one lemma for each: a command's bytes are taken as the row they
spell. -/

namespace Sys2Proof.Laws.Spelled

-- One proof at a time: the whole package as one text must not start a thread for each of them.
set_option Elab.async false

open Sys2Proof Sys2Proof.Machine

/-- A well-formed command's bytes pass the form check (R184) and spell that command (R201); other rows have no bytes. -/
def Statement (i : Instr) : Prop :=
  ∀ bytes, i.wellFormed = true → i.spelling = some bytes →
    formCode false bytes = none ∧ hostCommand i.engLevel bytes = some i

theorem byte_back (n : Nat) (h : n < 256) : (byteOf n).toNat = n := by
  simp [byteOf]; omega

theorem word_back (n : Nat) (h : n < 65536) : (byteOf (n / 256)).toNat * 256 + (byteOf n).toNat = n := by
  simp [byteOf]; omega

theorem pinReset (straps rate : Nat) (eng : Bool) : Statement (.pinReset straps rate eng) := by
  rintro _ _ ⟨⟩

theorem commandByteWrite (b : Byte) : Statement (.commandByteWrite b) := by
  rintro _ _ ⟨⟩

theorem submit : Statement .submit := by
  rintro _ _ ⟨⟩

theorem responseByteRead : Statement .responseByteRead := by
  rintro _ _ ⟨⟩

theorem interruptEnablesWrite (b : Byte) : Statement (.interruptEnablesWrite b) := by
  rintro _ _ ⟨⟩

theorem eventWindowRead : Statement .eventWindowRead := by
  rintro _ _ ⟨⟩

theorem eventWindowWrite (b : Byte) : Statement (.eventWindowWrite b) := by
  rintro _ _ ⟨⟩

theorem configureStation (zone airCeiling fallback heatUp period mixTime : Nat) :
    Statement (.configureStation zone airCeiling fallback heatUp period mixTime) := by
  rintro _ hw ⟨⟩
  simp only [Instr.wellFormed, bytesFit, wordsFit, List.all_cons, List.all_nil, Bool.and_eq_true,
    Bool.and_true, decide_eq_true_eq] at hw
  simp [formCode, operandCount, hostCommand, byteAt, wordAt, be16, byte_back, word_back, hw]

theorem startStation : Statement .startStation := by
  rintro _ _ ⟨⟩
  exact ⟨rfl, rfl⟩

theorem restartStation : Statement .restartStation := by
  rintro _ _ ⟨⟩
  exact ⟨rfl, rfl⟩

theorem readStation : Statement .readStation := by
  rintro _ _ ⟨⟩
  exact ⟨rfl, rfl⟩

theorem openEngineering (eng : Bool) : Statement (.openEngineering eng) := by
  rintro _ _ ⟨⟩
  exact ⟨rfl, rfl⟩

theorem closeEngineering : Statement .closeEngineering := by
  rintro _ _ ⟨⟩
  exact ⟨rfl, rfl⟩

theorem engineeringDeadline : Statement .engineeringDeadline := by
  rintro _ _ ⟨⟩

theorem engNegated : Statement .engNegated := by
  rintro _ _ ⟨⟩

theorem readLineStatus : Statement .readLineStatus := by
  rintro _ _ ⟨⟩
  exact ⟨rfl, rfl⟩

theorem readPeerChanges : Statement .readPeerChanges := by
  rintro _ _ ⟨⟩
  exact ⟨rfl, rfl⟩

theorem readPeerEntry (station : Nat) : Statement (.readPeerEntry station) := by
  rintro _ hw ⟨⟩
  simp only [Instr.wellFormed, bytesFit, List.all_cons, List.all_nil, Bool.and_true, decide_eq_true_eq] at hw
  simp [formCode, operandCount, hostCommand, byteAt, byte_back, hw]

theorem readResources : Statement .readResources := by
  rintro _ _ ⟨⟩
  exact ⟨rfl, rfl⟩

theorem offerDemand (heat : Nat) : Statement (.offerDemand heat) := by
  rintro _ hw ⟨⟩
  simp only [Instr.wellFormed, wordsFit, List.all_cons, List.all_nil, Bool.and_true, decide_eq_true_eq] at hw
  simp [formCode, operandCount, hostCommand, byteAt, wordAt, be16, word_back, hw]

theorem withdrawDemand : Statement .withdrawDemand := by
  rintro _ _ ⟨⟩
  exact ⟨rfl, rfl⟩

theorem readAllocation : Statement .readAllocation := by
  rintro _ _ ⟨⟩
  exact ⟨rfl, rfl⟩

theorem setMode (mode : Nat) : Statement (.setMode mode) := by
  rintro _ hw ⟨⟩
  simp only [Instr.wellFormed, bytesFit, List.all_cons, List.all_nil, Bool.and_true, decide_eq_true_eq] at hw
  simp [formCode, operandCount, hostCommand, byteAt, byte_back, hw]

theorem configureBurner (burner used feeder rate ignition proving loading flameFail threshold held autoResume : Nat) :
    Statement (.configureBurner burner used feeder rate ignition proving loading flameFail threshold held autoResume) := by
  rintro _ hw ⟨⟩
  simp only [Instr.wellFormed, bytesFit, wordsFit, List.all_cons, List.all_nil, Bool.and_eq_true,
    Bool.and_true, decide_eq_true_eq] at hw
  simp [formCode, operandCount, hostCommand, byteAt, wordAt, be16, byte_back, word_back, hw]

theorem startBurner (burner : Nat) : Statement (.startBurner burner) := by
  rintro _ hw ⟨⟩
  simp only [Instr.wellFormed, bytesFit, List.all_cons, List.all_nil, Bool.and_true, decide_eq_true_eq] at hw
  simp [formCode, operandCount, hostCommand, byteAt, byte_back, hw]

theorem stopBurner (burner : Nat) : Statement (.stopBurner burner) := by
  rintro _ hw ⟨⟩
  simp only [Instr.wellFormed, bytesFit, List.all_cons, List.all_nil, Bool.and_true, decide_eq_true_eq] at hw
  simp [formCode, operandCount, hostCommand, byteAt, byte_back, hw]

theorem resumeBurner (burner : Nat) : Statement (.resumeBurner burner) := by
  rintro _ hw ⟨⟩
  simp only [Instr.wellFormed, bytesFit, List.all_cons, List.all_nil, Bool.and_true, decide_eq_true_eq] at hw
  simp [formCode, operandCount, hostCommand, byteAt, byte_back, hw]

theorem resetTripPoint (point : Nat) : Statement (.resetTripPoint point) := by
  rintro _ hw ⟨⟩
  simp only [Instr.wellFormed, bytesFit, List.all_cons, List.all_nil, Bool.and_true, decide_eq_true_eq] at hw
  simp [formCode, operandCount, hostCommand, byteAt, byte_back, hw]

theorem resetTripBurner (burner : Nat) : Statement (.resetTripBurner burner) := by
  rintro _ hw ⟨⟩
  simp only [Instr.wellFormed, bytesFit, List.all_cons, List.all_nil, Bool.and_true, decide_eq_true_eq] at hw
  simp [formCode, operandCount, hostCommand, byteAt, byte_back, hw]

theorem readBurner (burner : Nat) : Statement (.readBurner burner) := by
  rintro _ hw ⟨⟩
  simp only [Instr.wellFormed, bytesFit, List.all_cons, List.all_nil, Bool.and_true, decide_eq_true_eq] at hw
  simp [formCode, operandCount, hostCommand, byteAt, byte_back, hw]

theorem configureFuel (index cv : Nat) : Statement (.configureFuel index cv) := by
  rintro _ hw ⟨⟩
  simp only [Instr.wellFormed, bytesFit, wordsFit, List.all_cons, List.all_nil, Bool.and_eq_true,
    Bool.and_true, decide_eq_true_eq] at hw
  simp [formCode, operandCount, hostCommand, byteAt, wordAt, be16, byte_back, word_back, hw]

theorem writeFuel (index cv : Nat) : Statement (.writeFuel index cv) := by
  rintro _ hw ⟨⟩
  simp only [Instr.wellFormed, bytesFit, wordsFit, List.all_cons, List.all_nil, Bool.and_eq_true,
    Bool.and_true, decide_eq_true_eq] at hw
  simp [formCode, operandCount, hostCommand, byteAt, wordAt, be16, byte_back, word_back, hw]

theorem readFuelTable : Statement .readFuelTable := by
  rintro _ _ ⟨⟩
  exact ⟨rfl, rfl⟩

theorem configureFeeder (feeder used burner fuel minRate maxRate ramp window gain deviation mix weight : Nat) :
    Statement (.configureFeeder feeder used burner fuel minRate maxRate ramp window gain deviation mix weight) := by
  rintro _ hw ⟨⟩
  simp only [Instr.wellFormed, bytesFit, wordsFit, List.all_cons, List.all_nil, Bool.and_eq_true,
    Bool.and_true, decide_eq_true_eq] at hw
  simp [formCode, operandCount, hostCommand, byteAt, wordAt, be16, byte_back, word_back, hw]

theorem setMix (burner m0 m1 m2 m3 m4 m5 : Nat) : Statement (.setMix burner m0 m1 m2 m3 m4 m5) := by
  rintro _ hw ⟨⟩
  simp only [Instr.wellFormed, bytesFit, wordsFit, List.all_cons, List.all_nil, Bool.and_eq_true,
    Bool.and_true, decide_eq_true_eq] at hw
  simp [formCode, operandCount, hostCommand, byteAt, wordAt, be16, byte_back, word_back, hw]

theorem writePulseWeight (feeder weight : Nat) : Statement (.writePulseWeight feeder weight) := by
  rintro _ hw ⟨⟩
  simp only [Instr.wellFormed, bytesFit, wordsFit, List.all_cons, List.all_nil, Bool.and_eq_true,
    Bool.and_true, decide_eq_true_eq] at hw
  simp [formCode, operandCount, hostCommand, byteAt, wordAt, be16, byte_back, word_back, hw]

theorem readFeeder (feeder : Nat) : Statement (.readFeeder feeder) := by
  rintro _ hw ⟨⟩
  simp only [Instr.wellFormed, bytesFit, List.all_cons, List.all_nil, Bool.and_true, decide_eq_true_eq] at hw
  simp [formCode, operandCount, hostCommand, byteAt, byte_back, hw]

theorem configureFan (fan used destination base apf minFlow maxFlow airFactor gain startTime : Nat) :
    Statement (.configureFan fan used destination base apf minFlow maxFlow airFactor gain startTime) := by
  rintro _ hw ⟨⟩
  simp only [Instr.wellFormed, bytesFit, wordsFit, List.all_cons, List.all_nil, Bool.and_eq_true,
    Bool.and_true, decide_eq_true_eq] at hw
  simp [formCode, operandCount, hostCommand, byteAt, wordAt, be16, byte_back, word_back, hw]

theorem startFan (fan : Nat) : Statement (.startFan fan) := by
  rintro _ hw ⟨⟩
  simp only [Instr.wellFormed, bytesFit, List.all_cons, List.all_nil, Bool.and_true, decide_eq_true_eq] at hw
  simp [formCode, operandCount, hostCommand, byteAt, byte_back, hw]

theorem stopFan (fan : Nat) : Statement (.stopFan fan) := by
  rintro _ hw ⟨⟩
  simp only [Instr.wellFormed, bytesFit, List.all_cons, List.all_nil, Bool.and_true, decide_eq_true_eq] at hw
  simp [formCode, operandCount, hostCommand, byteAt, byte_back, hw]

theorem resetFan (fan : Nat) : Statement (.resetFan fan) := by
  rintro _ hw ⟨⟩
  simp only [Instr.wellFormed, bytesFit, List.all_cons, List.all_nil, Bool.and_true, decide_eq_true_eq] at hw
  simp [formCode, operandCount, hostCommand, byteAt, byte_back, hw]

theorem configureGrate (used minSpeed maxSpeed gain low high initial highLimit : Nat) :
    Statement (.configureGrate used minSpeed maxSpeed gain low high initial highLimit) := by
  rintro _ hw ⟨⟩
  simp only [Instr.wellFormed, bytesFit, wordsFit, List.all_cons, List.all_nil, Bool.and_eq_true,
    Bool.and_true, decide_eq_true_eq] at hw
  simp [formCode, operandCount, hostCommand, byteAt, wordAt, be16, byte_back, word_back, hw]

theorem startGrate : Statement .startGrate := by
  rintro _ _ ⟨⟩
  exact ⟨rfl, rfl⟩

theorem stopGrate : Statement .stopGrate := by
  rintro _ _ ⟨⟩
  exact ⟨rfl, rfl⟩

theorem setBedPressure (pressure : Nat) : Statement (.setBedPressure pressure) := by
  rintro _ hw ⟨⟩
  simp only [Instr.wellFormed, wordsFit, List.all_cons, List.all_nil, Bool.and_true, decide_eq_true_eq] at hw
  simp [formCode, operandCount, hostCommand, byteAt, wordAt, be16, word_back, hw]

theorem readCooler : Statement .readCooler := by
  rintro _ _ ⟨⟩
  exact ⟨rfl, rfl⟩

theorem acknowledge (point : Nat) : Statement (.acknowledge point) := by
  rintro _ hw ⟨⟩
  simp only [Instr.wellFormed, bytesFit, List.all_cons, List.all_nil, Bool.and_true, decide_eq_true_eq] at hw
  simp [formCode, operandCount, hostCommand, byteAt, byte_back, hw]

theorem acknowledgeAll : Statement .acknowledgeAll := by
  rintro _ _ ⟨⟩
  exact ⟨rfl, rfl⟩

theorem resetAlarm (point : Nat) : Statement (.resetAlarm point) := by
  rintro _ hw ⟨⟩
  simp only [Instr.wellFormed, bytesFit, List.all_cons, List.all_nil, Bool.and_true, decide_eq_true_eq] at hw
  simp [formCode, operandCount, hostCommand, byteAt, byte_back, hw]

theorem shelve (point minutes : Nat) : Statement (.shelve point minutes) := by
  rintro _ hw ⟨⟩
  simp only [Instr.wellFormed, bytesFit, wordsFit, List.all_cons, List.all_nil, Bool.and_eq_true,
    Bool.and_true, decide_eq_true_eq] at hw
  simp [formCode, operandCount, hostCommand, byteAt, wordAt, be16, byte_back, word_back, hw]

theorem unshelve (point : Nat) : Statement (.unshelve point) := by
  rintro _ hw ⟨⟩
  simp only [Instr.wellFormed, bytesFit, List.all_cons, List.all_nil, Bool.and_true, decide_eq_true_eq] at hw
  simp [formCode, operandCount, hostCommand, byteAt, byte_back, hw]

theorem shelvingExpiry (point : Fin 62) : Statement (.shelvingExpiry point) := by
  rintro _ _ ⟨⟩

theorem configureExternalPoint (n used cls latching binding lineWide mask source : Nat) :
    Statement (.configureExternalPoint n used cls latching binding lineWide mask source) := by
  rintro _ hw ⟨⟩
  simp only [Instr.wellFormed, bytesFit, List.all_cons, List.all_nil, Bool.and_eq_true, Bool.and_true,
    decide_eq_true_eq] at hw
  simp [formCode, operandCount, hostCommand, byteAt, byte_back, hw]

theorem raiseExternal (n : Nat) : Statement (.raiseExternal n) := by
  rintro _ hw ⟨⟩
  simp only [Instr.wellFormed, bytesFit, List.all_cons, List.all_nil, Bool.and_true, decide_eq_true_eq] at hw
  simp [formCode, operandCount, hostCommand, byteAt, byte_back, hw]

theorem clearExternal (n : Nat) : Statement (.clearExternal n) := by
  rintro _ hw ⟨⟩
  simp only [Instr.wellFormed, bytesFit, List.all_cons, List.all_nil, Bool.and_true, decide_eq_true_eq] at hw
  simp [formCode, operandCount, hostCommand, byteAt, byte_back, hw]

theorem discardPeerTrip (station : Nat) : Statement (.discardPeerTrip station) := by
  rintro _ hw ⟨⟩
  simp only [Instr.wellFormed, bytesFit, List.all_cons, List.all_nil, Bool.and_true, decide_eq_true_eq] at hw
  simp [formCode, operandCount, hostCommand, byteAt, byte_back, hw]

theorem readFirstOut : Statement .readFirstOut := by
  rintro _ _ ⟨⟩
  exact ⟨rfl, rfl⟩

theorem resetFirstOut : Statement .resetFirstOut := by
  rintro _ _ ⟨⟩
  exact ⟨rfl, rfl⟩

theorem readSummary : Statement .readSummary := by
  rintro _ _ ⟨⟩
  exact ⟨rfl, rfl⟩

theorem clearSummary : Statement .clearSummary := by
  rintro _ _ ⟨⟩
  exact ⟨rfl, rfl⟩

theorem silenceHorn : Statement .silenceHorn := by
  rintro _ _ ⟨⟩
  exact ⟨rfl, rfl⟩

theorem readPoint (point : Nat) : Statement (.readPoint point) := by
  rintro _ hw ⟨⟩
  simp only [Instr.wellFormed, bytesFit, List.all_cons, List.all_nil, Bool.and_true, decide_eq_true_eq] at hw
  simp [formCode, operandCount, hostCommand, byteAt, byte_back, hw]

theorem readPointStates : Statement .readPointStates := by
  rintro _ _ ⟨⟩
  exact ⟨rfl, rfl⟩

theorem closeShift (number : Nat) : Statement (.closeShift number) := by
  rintro _ hw ⟨⟩
  simp only [Instr.wellFormed, wordsFit, List.all_cons, List.all_nil, Bool.and_true, decide_eq_true_eq] at hw
  simp [formCode, operandCount, hostCommand, byteAt, wordAt, be16, word_back, hw]

theorem readShiftRecord (index sect : Nat) : Statement (.readShiftRecord index sect) := by
  rintro _ hw ⟨⟩
  simp only [Instr.wellFormed, bytesFit, List.all_cons, List.all_nil, Bool.and_eq_true, Bool.and_true,
    decide_eq_true_eq] at hw
  simp [formCode, operandCount, hostCommand, byteAt, byte_back, hw]

theorem writeShiftNote (note : Nat) : Statement (.writeShiftNote note) := by
  rintro _ hw ⟨⟩
  simp only [Instr.wellFormed, wordsFit, List.all_cons, List.all_nil, Bool.and_true, decide_eq_true_eq] at hw
  simp [formCode, operandCount, hostCommand, byteAt, wordAt, be16, word_back, hw]

theorem readField : Statement .readField := by
  rintro _ _ ⟨⟩
  exact ⟨rfl, rfl⟩

theorem accessGapReached (idle : Nat) : Statement (.accessGapReached idle) := by
  rintro _ _ ⟨⟩

theorem frameSentWhole (back : List ReadBack) : Statement (.frameSentWhole back) := by
  rintro _ _ ⟨⟩

theorem readBackMismatch (back : List ReadBack) : Statement (.readBackMismatch back) := by
  rintro _ _ ⟨⟩

theorem breakEnded : Statement .breakEnded := by
  rintro _ _ ⟨⟩

theorem statusPeriodExpiry : Statement .statusPeriodExpiry := by
  rintro _ _ ⟨⟩

theorem frameReceived (chars : List Byte) : Statement (.frameReceived chars) := by
  rintro _ _ ⟨⟩

theorem badHeaderDiscard (chars : List Byte) : Statement (.badHeaderDiscard chars) := by
  rintro _ _ ⟨⟩

theorem partialFrameDiscard (cause : Disturbance) (chars : List Byte) :
    Statement (.partialFrameDiscard cause chars) := by
  rintro _ _ ⟨⟩

theorem interCharacterGap (chars : List Byte) : Statement (.interCharacterGap chars) := by
  rintro _ _ ⟨⟩

theorem duplicateDeadlineExpiry : Statement .duplicateDeadlineExpiry := by
  rintro _ _ ⟨⟩

theorem lineStuckSet : Statement .lineStuckSet := by
  rintro _ _ ⟨⟩

theorem lineStuckCleared : Statement .lineStuckCleared := by
  rintro _ _ ⟨⟩

theorem peerAgingExpiry (peer : Fin 16) : Statement (.peerAgingExpiry peer) := by
  rintro _ _ ⟨⟩

theorem staggerEnd (k : Fin 3) : Statement (.staggerEnd k) := by
  rintro _ _ ⟨⟩

theorem settleDeadline (k : Fin 3) : Statement (.settleDeadline k) := by
  rintro _ _ ⟨⟩

theorem claimantExpiry (k : Fin 3) : Statement (.claimantExpiry k) := by
  rintro _ _ ⟨⟩

theorem reclaimDelayEnd (k : Fin 3) : Statement (.reclaimDelayEnd k) := by
  rintro _ _ ⟨⟩

theorem airHoldExpiry : Statement .airHoldExpiry := by
  rintro _ _ ⟨⟩

theorem feederControlPeriod : Statement .feederControlPeriod := by
  rintro _ _ ⟨⟩

theorem mixRampStep (b : Fin 2) : Statement (.mixRampStep b) := by
  rintro _ _ ⟨⟩

theorem deviationTime (f : Fin 6) : Statement (.deviationTime f) := by
  rintro _ _ ⟨⟩

theorem noFlowTime (f : Fin 6) : Statement (.noFlowTime f) := by
  rintro _ _ ⟨⟩

theorem lightWaitExpiry (b : Fin 2) : Statement (.lightWaitExpiry b) := by
  rintro _ _ ⟨⟩

theorem flameProven (b : Fin 2) : Statement (.flameProven b) := by
  rintro _ _ ⟨⟩

theorem ignitionDeadline (b : Fin 2) : Statement (.ignitionDeadline b) := by
  rintro _ _ ⟨⟩

theorem loadingDeadline (b : Fin 2) : Statement (.loadingDeadline b) := by
  rintro _ _ ⟨⟩

theorem flameFailTime (b : Fin 2) : Statement (.flameFailTime b) := by
  rintro _ _ ⟨⟩

theorem flameWeakTime (b : Fin 2) : Statement (.flameWeakTime b) := by
  rintro _ _ ⟨⟩

theorem heldDeadline (b : Fin 2) : Statement (.heldDeadline b) := by
  rintro _ _ ⟨⟩

theorem fieldScanStart : Statement .fieldScanStart := by
  rintro _ _ ⟨⟩

theorem fieldScanComplete (fdi : List Bool) : Statement (.fieldScanComplete fdi) := by
  rintro _ _ ⟨⟩

theorem fanStartDeadline (n : Fin 4) : Statement (.fanStartDeadline n) := by
  rintro _ _ ⟨⟩

theorem fanFeedbackLoss (n : Fin 4) : Statement (.fanFeedbackLoss n) := by
  rintro _ _ ⟨⟩

theorem heldFlowExpiry (n : Fin 4) : Statement (.heldFlowExpiry n) := by
  rintro _ _ ⟨⟩

theorem coolingPeriod : Statement .coolingPeriod := by
  rintro _ _ ⟨⟩

theorem grateFeedbackLoss : Statement .grateFeedbackLoss := by
  rintro _ _ ⟨⟩

theorem bedPressureHighTime : Statement .bedPressureHighTime := by
  rintro _ _ ⟨⟩

end Sys2Proof.Laws.Spelled
end

