-- ==== Sys2Proof/Laws/UserFrames.lean ====
section
/-! SUPPORT. Frames of the users of line resources, of shift records, and of reception. -/

namespace Sys2Proof.Machine

-- One proof at a time: the whole package as one text must not start a thread for each of them.
set_option Elab.async false

open Sys2Proof.Config

/-! ## Fans and grate (chapter 7) -/

theorem Part.fanOut_frame (n : Fin 4) (st : FanState) (p : Part) :
    ChangesOnly {.fanOut} p (p.updOutput (OutputImage.fanTo n st)) := by
  refine ⟨fun x hx => ?_⟩
  cases x <;> cases st <;> simp_all [Block.Same, Field.scanning, OutputImage.fanTo]

theorem Part.fanTo_frame (n : Fin 4) (st : FanState) (p : Part) : ChangesOnly (fanBlocks n) p (p.fanTo n st) := by
  have h : ∀ q : Part, ChangesOnly (fanBlocks n) p q → ChangesOnly (fanBlocks n) p
      (((q.updFan n fun x => x.cleared st).updOutput (OutputImage.fanTo n st)).record
        (ShiftRec.updFan n (FanTotals.entered st)) |>.offer .fan n.val st.code) := fun q hq =>
    (((hq.next (q.updFan_frame n _)).next (Part.fanOut_frame n st _)).next (Part.record_frame _ _)).next
      (Part.offer_frame ..)
  exact h _ (.ite .refl (p.withdraw_frame 1 _).mono)

theorem Part.enterStarting_frame (n : Fin 4) (p : Part) : ChangesOnly (fanBlocks n) p (p.enterStarting n) :=
  (p.fanTo_frame n _).next (Part.updFan_frame n _ _)

theorem fanFail_quiet : ∀ n : Fin 4, fanFailPoint n ∈ quietPoints ∧ fanTripPoint n ∈ quietPoints := by decide

theorem Part.failStart_frame (n : Fin 4) (p : Part) :
    ChangesOnly (fanBlocks n ∪ pointBlocks) p (p.failStart n) :=
  (((p.updFan_frame n _).mono.next ((Part.settlePoint_frame _ _ _).2 (Part.quiet_attr _ _ (fanFail_quiet n).1))
    Set.subset_union_right).next (Part.fanTo_frame n _ _) Set.subset_union_left).next
    ((Part.settlePoint_frame _ _ _).2 (Part.quiet_attr _ _ (fanFail_quiet n).1)) Set.subset_union_right

theorem Part.keepAborted_frame (before : Vector Fan 4) (p : Part) :
    ChangesOnly {.horn, .hornOut} p (p.keepAborted before) :=
  .forAll (fun _ q => .ite (q.keepHorn_frame _) .refl) _ p

/-- An event that leaves the fans as they were aborts no start. -/
theorem Part.keepAborted_same (before : Vector Fan 4) (p : Part) (h : p.fans = before) : p.keepAborted before = p := by
  have : ∀ l : List (Fin 4), p.forAll l (fun n q =>
      if before[n].state = .starting ∧ q.fans[n].state = .tripped then q.keepHorn (fanFailPoint n) else q) = p := by
    intro l
    induction l with
    | nil => rfl
    | cons n l ih =>
      have hn : ¬(before[n].state = .starting ∧ p.fans[n].state = .tripped) := by
        subst h; rintro ⟨h1, h2⟩; exact absurd (h1.symm.trans h2) (by decide)
      simp only [Part.forAll, List.foldl_cons] at ih ⊢
      rw [if_neg hn]; exact ih
  exact this _

theorem Part.loseFan_frame (n : Fin 4) (p : Part) :
    ChangesOnly (fanBlocks n ∪ pointBlocks) p (p.loseFan n) :=
  (((p.updFan_frame n _).mono.next ((Part.settlePoint_frame _ _ _).2 (Part.quiet_attr _ _ (fanFail_quiet n).2))
    Set.subset_union_right).next (Part.fanTo_frame n _ _) Set.subset_union_left).next
    ((Part.settlePoint_frame _ _ _).2 (Part.quiet_attr _ _ (fanFail_quiet n).2)) Set.subset_union_right

theorem Part.grateTo_frame (st : GrateState) (p : Part) :
    ChangesOnly {.grate, .grateOut, .events} p (p.grateTo st) := by
  have h : ∀ q : Part, ChangesOnly {.grateOut} q (q.updOutput fun o =>
      if st = .running then { o with grateRun := true, grateSpeed := q.grate.cfg.minSpeed }
      else { o with grateRun := false, grateSpeed := 0 }) := fun q => by
    refine ⟨fun x hx => ?_⟩
    cases x <;> cases st <;> simp_all [Block.Same, Field.scanning]
  exact ((p.updGrate_frame _).mono.next (h _)).next (Part.offer_frame ..)

theorem Part.faultGrate_frame (p : Part) :
    ChangesOnly ({.grate, .grateOut} ∪ tripBlocks) p p.faultGrate :=
  (((p.updGrate_frame _).mono.next (Part.settlePoint_frame _ _ _).1 Set.subset_union_right).next
    (Part.grateTo_frame _ _)).next (Part.settlePoint_frame _ _ _).1 Set.subset_union_right

/-! ## Users told (R45, R47, R51) -/

theorem Part.burnerIn (b : Fin 2) : burnerBlocks b ⊆ userBlocks :=
  ((Part.oneBurner b).trans Part.burnersIn).trans Set.subset_union_left

theorem Part.fanIn (n : Fin 4) : fanBlocks n ∪ pointBlocks ⊆ userBlocks := by
  simp only [fanBlocks, pointBlocks, leaveBlocks, sendBlocks, userBlocks, tripBlocks, burnerBlocks, mixBlocks,
    Set.insert_subset_iff, Set.union_subset_iff, Set.singleton_subset_iff, Set.mem_union, Set.mem_insert_iff,
    Set.mem_singleton_iff, Set.mem_range, exists_apply_eq_apply, reduceCtorEq, exists_false, or_true, or_false, and_self]

theorem Part.rampIn (b : Fin 2) : ({.ramp b} ∪ mixBlocks ∪ leaveBlocks 2 : Set Block) ⊆ userBlocks := by
  refine Set.Subset.trans ?_ (Part.burnerIn b)
  simp only [leaveBlocks, sendBlocks, burnerBlocks, mixBlocks, Set.insert_subset_iff, Set.union_subset_iff,
    Set.singleton_subset_iff, Set.mem_union, Set.mem_insert_iff, Set.range_subset_iff,
    Set.mem_singleton_iff, Set.mem_range, exists_apply_eq_apply, reduceCtorEq, exists_false, or_true, or_false, and_self,
    implies_true]

theorem Part.startRamp_frame (b : Fin 2) (p : Part) : ChangesOnly {.ramp b} p (p.startRamp b) := p.setRamp_frame b _

theorem Part.tellGranted_frame (k : Fin 3) (u : Nat) (p : Part) : ChangesOnly userBlocks p (p.tellGranted k u) := by
  unfold Part.tellGranted
  refine .ite ((p.enterStarting_frame _).mono (Set.subset_union_left.trans (Part.fanIn _))) (.ite ?_ (.ite ?_ ?_))
  · exact (p.startRamp_frame _).mono (Set.Subset.trans (fun x hx => .inl (.inl hx)) (Part.rampIn _))
  · exact (p.burnerTo_frame _ _ _ _).mono (Part.burnerIn _)
  · exact (p.burnerTo_frame _ _ _ _).mono (Part.burnerIn _)

theorem Part.holdOnConflict_frame (b : Fin 2) (p : Part) : ChangesOnly userBlocks p (p.holdOnConflict b) :=
  ((p.hold_frame b true).mono (Part.burnerIn b)).next (Part.settlePoint_frame _ _ _).1 Set.subset_union_left

theorem Part.tellAborted_frame (k : Fin 3) (u : Nat) (p : Part) : ChangesOnly userBlocks p (p.tellAborted k u) :=
  .ite ((p.failStart_frame _).mono (Part.fanIn _)) (.ite ((p.endRamp_frame _).mono (Part.rampIn _))
    (p.holdOnConflict_frame _))

theorem Part.tellRefused_frame (k : Fin 3) (u : Nat) (p : Part) : ChangesOnly userBlocks p (p.tellRefused k u) :=
  .ite ((p.fanTo_frame _ _).mono (Set.subset_union_left.trans (Part.fanIn _)))
    (.ite ((p.endRamp_frame _).mono (Part.rampIn _)) ((p.burnerTo_frame _ _ _ _).mono (Part.burnerIn _)))

theorem Part.grant_frame (k : Fin 3) (p : Part) : ChangesOnly userBlocks p (p.grant k) := by
  unfold Part.grant
  split
  · exact ((((p.updRes_frame k _ {.claim k, .waitList k}).mono.next (Part.tellGranted_frame k _ _) subset_rfl)).next
      (Part.queueFrame_frame _ _)).next (Part.offer_frame ..)
  · exact .refl

theorem Part.conflict_frame (k : Fin 3) (q : Fin 16) (p : Part) : ChangesOnly userBlocks p (p.conflict k q) := by
  unfold Part.conflict
  split
  · exact (((((p.toIdle_frame k).mono.next (Part.tellAborted_frame k _ _) subset_rfl)).next
      (Part.beginReclaim_frame k _)).next (Part.offer_frame ..)).next (Part.updRes_frame k _ _ {.mark k})
  · exact .refl

theorem Part.refuseSilent_frame (k : Fin 3) (p : Part) : ChangesOnly userBlocks p (p.refuseSilent k) := by
  refine ChangesOnly.trans (ChangesOnly.mono (p.updRes_frame k _ {.claim k, .waitList k} fun r => ?_)) (.forAll (Part.tellRefused_frame k) _ _)
  split <;> simp [Resource.toIdle]

theorem Part.setSilent_frame (p : Part) : ChangesOnly silentBlocks p p.setSilent := by
  have h : ChangesOnly {.silent, .queue, .queueOut, .sending, .statusTimer} p
      (p.updLine fun l => { l.emptyQueue with silent := true }) := by
    refine ⟨fun x hx => ?_⟩; cases x <;> simp_all [Block.Same, Line.emptyQueue]
  exact h.mono.trans (.forAll (fun k p => (p.refuseSilent_frame k).mono Set.subset_union_right) _ _)

/-! ## Shift records (chapter 9) -/

theorem Part.closeRecord_frame (restarted : Bool) (p : Part) :
    ChangesOnly {.record, .shift} p (p.closeRecord restarted) := by
  unfold Part.closeRecord
  split
  · refine ⟨fun x hx => ?_⟩; cases x <;> simp_all [Block.Same]
  · exact .refl

theorem Part.openRecord_frame (n : Nat) (o : OpenOrigin) (i g : Bool) (p : Part) :
    ChangesOnly {.record, .shift} p (p.openRecord n o i g) := by
  refine ⟨fun x hx => ?_⟩; cases x <;> simp_all [Block.Same, Part.openRecord]

theorem Part.changeShift_frame (m : Nat) (o : OpenOrigin) (st : Nat) (p : Part) :
    ChangesOnly {.record, .shift, .events} p (p.changeShift m o st) :=
  (((p.closeRecord_frame false).mono.next (Part.openRecord_frame ..)).next (Part.offer_frame ..)).next
    (Part.offer_frame ..)

theorem Part.renumber_frame (m st : Nat) (p : Part) : ChangesOnly {.record, .shift, .events} p (p.renumber m st) := by
  unfold Part.renumber
  refine ChangesOnly.next ?_ (Part.offer_frame ..)
  refine ⟨fun x hx => ?_⟩; cases x <;> simp_all [Block.Same]

theorem Part.hearShift_frame (m st : Nat) (p : Part) : ChangesOnly {.record, .shift, .events} p (p.hearShift m st) :=
  .ite .refl (.ite (p.renumber_frame ..) (p.changeShift_frame ..))

/-! ## Reception (chapters 1 and 2) -/

/-- Reception and the renewal of the sender's entry. -/
theorem Part.badFrame_frame (p : Part) : ChangesOnly {.lineCounts, .record} p p.badFrame := by
  refine ⟨fun x hx => ?_⟩; cases x <;> simp_all [Block.Same, Part.badFrame, Shift.closed]

theorem Part.discardPartial_frame (d : Receiver) (p : Part) :
    ChangesOnly {.lineCounts, .record, .receiving} p (p.discardPartial d) := by
  refine ⟨fun x hx => ?_⟩; cases x <;> simp_all [Block.Same, Part.discardPartial, Part.badFrame, Shift.closed]

theorem Part.renewPeer_frame (q : Fin 16) (s : Byte) (p : Part) : ChangesOnly {.peer q, .record} p (p.renewPeer q s) :=
  (p.updPeer_frame q _).mono.next (Part.record_frame _ _)

theorem Part.losePeer_frame (q : Fin 16) (p : Part) : ChangesOnly ({.peer q} ∪ Set.range .view) p (p.losePeer q) :=
  (p.updPeer_frame q _).mono.next (.forAll (fun k p => (p.dropClaimant_frame k q).mono) _ _) Set.subset_union_right

theorem Part.hearClaim_frame (k : Fin 3) (u : Nat) (q : Fin 16) (p : Part) :
    ChangesOnly ({.claim k, .view k} ∪ sendBlocks) p (p.hearClaim k u q) := by
  unfold Part.hearClaim
  refine .ite .refl ?_
  have h : ChangesOnly ({.claim k, .view k} ∪ sendBlocks) p
      (if q < p.strapStation then (p.seeClaim k q (some u)).yieldClaim k else p.seeClaim k q (some u)) :=
    .ite ((p.seeClaim_frame k q _).mono.next (Part.yieldClaim_frame k _)) (p.seeClaim_frame k q _).mono
  exact .ite (h.next (Part.queueFrame_frame _ _)) h

theorem Part.hearRelease_frame (k : Fin 3) (q : Fin 16) (p : Part) : ChangesOnly {.view k} p (p.hearRelease k q) :=
  (p.updRes_frame k _ {.view k}).next (Part.dropClaimant_frame k q _)

theorem Part.hearView_frame (c : List Byte) (q : Fin 16) (k : Fin 3) (p : Part) :
    ChangesOnly {.view k} p (p.hearView c q k) :=
  .ite ((p.updRes_frame k _ {.view k}).next (Part.seeClaim_frame k q none _))
    ((p.updRes_frame k _ {.view k}).next (Part.dropClaimant_frame k q _))

theorem Part.hearYield_frame (c : List Byte) (q : Fin 16) (k : Fin 3) (p : Part) :
    ChangesOnly {.claim k} p (p.hearYield c q k) := .ite (p.yieldClaim_frame k) .refl

theorem Part.hearConflict_frame (c : List Byte) (q : Fin 16) (k : Fin 3) (p : Part) :
    ChangesOnly userBlocks p (p.hearConflict c q k) := .ite (p.conflict_frame k q) .refl

theorem Part.hearSets_frame (c : List Byte) (q : Fin 16) (p : Part) :
    ChangesOnly (Set.range .view ∪ userBlocks) p (p.hearSets c q) :=
  ((ChangesOnly.forAll (fun k r => (r.hearView_frame c q k).mono) _ p).trans
    (.forAll (fun k r => (r.hearYield_frame c q k).mono) _ _)).trans
    (.forAll (fun k r => (r.hearConflict_frame c q k).mono Set.subset_union_right) _ _)

theorem Part.peerTrips_frame (f : Alarms → Alarms) (p : Part)
    (h : ∀ a, (f a).points = a.points ∧ (f a).seen = a.seen ∧ (f a).autoResume = a.autoResume ∧ (f a).ext = a.ext ∧
      (f a).tripSeq = a.tripSeq ∧ (f a).firstOut = a.firstOut ∧ (f a).tripNew = a.tripNew ∧ (f a).horn = a.horn ∧
      (f a).events = a.events ∧ (f a).lost = a.lost ∧ (f a).readPos = a.readPos ∧ (f a).readEmpty = a.readEmpty :=
        by simp) : ChangesOnly {.peerTrips} p (p.updAlarms f) := by
  refine ⟨fun x hx => ?_⟩; cases x <;> simp_all [Block.Same]

theorem Part.setPeerTrip_frame (q : Fin 16) (t : PeerTrip) (p : Part) :
    ChangesOnly {.peerTrips} p (p.setPeerTrip q t) := p.peerTrips_frame _

theorem Part.removePeerTrip_frame (q : Fin 16) (p : Part) : ChangesOnly {.peerTrips} p (p.removePeerTrip q) :=
  p.peerTrips_frame _

theorem Part.hearTripFlag_frame (c : List Byte) (q : Fin 16) (p : Part) :
    ChangesOnly {.peerTrips} p (p.hearTripFlag c q) :=
  .ite (p.setPeerTrip_frame q _) (p.removePeerTrip_frame q)

theorem Part.userHeard (q : Fin 16) : userBlocks ⊆ heardBlocks q := Set.subset_union_right

theorem Part.takeStatus_frame (q : Fin 16) (c : List Byte) (p : Part) :
    ChangesOnly (heardBlocks q) p (p.takeStatus q c) := by
  have hs : (Set.range .view ∪ userBlocks : Set Block) ⊆ heardBlocks q := by
    rintro x (hx | hx)
    · exact .inl (.inr hx)
    · exact .inr hx
  exact .ite (((((p.updPeer_frame q _).mono.next (Part.hearSets_frame c q _) hs).next
    (Part.hearTripFlag_frame c q _)).next (Part.settlePoint_frame _ _ _).1
      (Set.subset_union_left.trans (Part.userHeard q))).next (Part.hearShift_frame ..)) .refl

theorem Part.handOn_frame (q : Fin 16) (kind : Byte) (c : List Byte) (p : Part) :
    ChangesOnly (heardBlocks q) p (p.handOn q kind c) := by
  unfold Part.handOn
  refine .ite (p.takeStatus_frame q c) (.ite ?_ (.ite ?_ (.ite (.ite (p.setPeerTrip_frame q _).mono .refl)
    (p.hearShift_frame ..).mono)))
  · split
    · exact (p.hearClaim_frame _ _ _).mono
    · exact .refl
  · split
    · exact (p.hearRelease_frame _ _).mono
    · exact .refl

theorem Part.acceptFrame_frame (q : Fin 16) (l : List Byte) (p : Part) :
    ChangesOnly (heardBlocks q) p (p.acceptFrame q l) := by
  have h : ChangesOnly {.lineCounts} p
      (p.updLine fun x => { x with counts := { x.counts with accepted := x.counts.accepted + 1 } }) := by
    refine ⟨fun x hx => ?_⟩; cases x <;> simp_all [Block.Same]
  exact (((h.mono.next (Part.record_frame _ _)).next
    (Part.renewPeer_frame q _ _)).next (Part.handOn_frame q _ _ _) subset_rfl).next (Part.refreshMarks_frame _)

theorem Part.duplicateFrame_frame (p : Part) : ChangesOnly ({.duplicate, .lineCounts} ∪ silentBlocks) p p.duplicateFrame := by
  have h : ChangesOnly {.duplicate, .lineCounts} p (p.updLine fun l =>
      { l with counts := { l.counts with duplicates := l.counts.duplicates + 1 },
               dupDeadline := some (later p.now p.agingTime) }) := by
    refine ⟨fun x hx => ?_⟩; cases x <;> simp_all [Block.Same]
  have g := h.mono.next (Part.settlePoint_frame 1 _ false).1 (V := {.duplicate, .lineCounts} ∪ silentBlocks)
    ((Set.subset_union_left.trans Set.subset_union_right).trans Set.subset_union_right)
  exact .ite (.ite g (g.next (Part.setSilent_frame _) Set.subset_union_right)) h.mono

theorem Part.wholeFrame_frame (l : List Byte) (p : Part) : ChangesOnly receivedBlocks p (p.wholeFrame l) := by
  have h : ChangesOnly {.stuck} p (p.updLine fun x => { x with stuck := false }) := by
    refine ⟨fun x hx => ?_⟩; cases x <;> simp_all [Block.Same]
  refine .ite ?_ p.badFrame_frame.mono
  split
  · exact .ite (h.mono.next (Part.duplicateFrame_frame _)) (h.mono.next (Part.acceptFrame_frame _ _ _))
  · exact h.mono

/-- What has been heard of a frame, and what the receiver does next. -/
theorem Part.hearing_frame (a : List Byte) (r : Receiver) (p : Part) :
    ChangesOnly {.receiving} p (p.updLine fun l => { l with assembly := a, receiver := r }) := by
  refine ⟨fun x hx => ?_⟩; cases x <;> simp_all [Block.Same]

theorem Part.lineIdled_frame (chars : List Byte) (p : Part) :
    ChangesOnly {.lineCounts, .record, .receiving} p (p.lineIdled chars) :=
  .ite (p.discardPartial_frame _) (p.hearing_frame p.line.assembly .ready).mono

theorem Part.assemble_frame (chars : List Byte) (p : Part) : ChangesOnly receivedBlocks p (p.assemble chars) := by
  have g := (p.hearing_frame [] .behind).mono.trans
    (Part.wholeFrame_frame ((p.line.assembly ++ chars).take (frameSize (p.line.assembly ++ chars))) _)
  exact .ite (p.discardPartial_frame _).mono (.ite (p.hearing_frame _ p.line.receiver).mono
    (.ite (g.next (Part.discardPartial_frame _ _)) g))

theorem Part.takeChars_frame (chars : List Byte) (p : Part) : ChangesOnly receivedBlocks p (p.takeChars chars) := by
  unfold Part.takeChars
  split
  · exact p.assemble_frame chars
  · exact .ite .refl (p.discardPartial_frame _).mono
  all_goals exact .refl

end Sys2Proof.Machine
end

