-- ==== Sys2Proof/Laws/PlantFrames.lean ====
section
/-! SUPPORT. Frames of the operations of the rows themselves: periods, scans, mixes, failures, and the station's starts. -/

namespace Sys2Proof.Machine

-- One proof at a time: the whole package as one text must not start a thread for each of them.
set_option Elab.async false

open Sys2Proof.Config

/-- A timer row changes nothing but what its effect may change. -/
theorem Part.whenDue_frame {T : Set Block} (d : Option Time) (f : Part → Part) (p : Part)
    (h : ∀ q, ChangesOnly T q (f q)) : ChangesOnly T p (p.whenDue d f) := by
  unfold Part.whenDue
  split
  · exact .ite (h p) .refl
  · exact .refl

/-- A timer row taken once its instant has come. -/
theorem Part.whenDue_come (t : Time) (f : Part → Part) (p : Part) (h : reached p.now t = true) :
    p.whenDue (some t) f = f p := if_pos h

/-- A timer row taken while its instant lies ahead. -/
theorem Part.whenDue_ahead (t : Time) (f : Part → Part) (p : Part) (h : reached p.now t = false) :
    p.whenDue (some t) f = p := by simp [Part.whenDue, h]

/-- An instant has come once it is there. -/
theorem reached_self (t : Time) : reached t t = true := by simp [reached, timeWrap]

/-- Where a renewal has found the deadline come, the closing is due at once (R191). -/
theorem Part.engineeringDue_lapsed (p : Part) (t : Time) (h : p.host.window = some t) (l : p.host.lapsed = true) :
    p.engineeringDue = some p.now := by simp [Part.engineeringDue, h, l]

/-- Where none has, the closing is due at the deadline. -/
theorem Part.engineeringDue_kept (p : Part) (l : p.host.lapsed = false) : p.engineeringDue = p.host.window := by
  simp [Part.engineeringDue, l]

/-! ## Alarms -/

theorem Part.ackPoint_frame (i : Fin 62) (p : Part) : ChangesOnly {.points} p (p.ackPoint i) := by
  unfold Part.ackPoint
  split
  · exact p.updPoint_frame i _
  · exact .refl

theorem Part.endShelving_frame (i : Fin 62) (p : Part) : ChangesOnly tripBlocks p (p.endShelving i) :=
  .ite ((p.updPoint_frame i _).mono.trans (Part.activate_frame i _).1) (p.updPoint_frame i _).mono

theorem Part.setExt_frame (n : Fin 16) (x : Ext) (p : Part) : ChangesOnly {.ext} p (p.setExt n x) := by
  refine ⟨fun y hy => ?_⟩; cases y <;> simp_all [Block.Same, Part.setExt]

/-! ## Burners -/

theorem Part.failLightOff_frame (b : Fin 2) (p : Part) : ChangesOnly tripBlocks p (p.failLightOff b) :=
  (((p.updBurner_frame b _).mono (Set.Subset.trans (by simp [burnerBlocks]) (Part.burnersIn.trans' (Part.oneBurner b)))).trans
    (Part.settlePoint_frame _ _ _).1).trans (Part.settlePoint_frame _ _ _).1

theorem Part.failFlame_frame (b : Fin 2) (p : Part) : ChangesOnly tripBlocks p (p.failFlame b) :=
  (((p.updBurner_frame b _).mono (Set.Subset.trans (by simp [burnerBlocks]) (Part.burnersIn.trans' (Part.oneBurner b)))).trans
    (Part.settlePoint_frame _ _ _).1).trans (Part.settlePoint_frame _ _ _).1

theorem Part.coolBurner_frame (b : Fin 2) (p : Part) : ChangesOnly (burnerBlocks b) p (p.coolBurner b) := by
  unfold Part.coolBurner
  refine .ite .refl ?_
  split
  · exact p.burnerTo_frame b _ _ _
  · exact p.burnerTo_frame b _ _ _
  · exact p.burnerTo_frame b _ _ _
  · exact p.burnerTo_frame b _ _ _
  · exact p.burnerTo_frame b _ _ _
  · exact .refl

theorem Part.changeMode_frame (m : PlantMode) (p : Part) :
    ChangesOnly ({.mode} ∪ settleAllBlocks) p (p.changeMode m) := by
  have h : ChangesOnly {.mode} p { p with mode := m } := by
    refine ⟨fun x hx => ?_⟩; cases x <;> simp_all [Block.Same]
  have c : ∀ q : Part, ChangesOnly ({.mode} ∪ settleAllBlocks) q (q.forAll burnerIds Part.coolBurner) := fun q =>
    .forAll (fun b r => (r.coolBurner_frame b).mono
      (((Part.oneBurner b).trans Part.burnersIn).trans (Set.subset_union_left.trans Set.subset_union_right))) _ q
  have g : ChangesOnly ({.mode} ∪ settleAllBlocks) p
      (if m = .coolDown then Part.forAll burnerIds Part.coolBurner { p with mode := m } else { p with mode := m }) :=
    .ite (h.mono.trans (c _)) h.mono
  exact (g.next (Part.offer_frame ..)).next (Part.settleAll_frame _) Set.subset_union_right

/-! ## Feeders -/

theorem Part.totalize_frame (f : Fin 6) (p : Part) :
    ChangesOnly {.feeder f, .drive f, .record} p (p.totalize f) :=
  ((p.updFeeder_frame f _).mono).next (Part.record_frame _ _)

theorem Part.secondOfFeeder_frame (f : Fin 6) (p : Part) :
    ChangesOnly (Set.range .feeder ∪ Set.range .drive ∪ {.record}) p (p.secondOfFeeder f) := by
  have c : ∀ q : Part, ChangesOnly {.feeder f, .drive f, .record} q (q.countRunning f) := fun q =>
    .ite ((q.updFeeder_frame f _).mono.next (Part.record_frame _ _)) .refl
  exact .ite (((p.totalize_frame f).trans (c _)).trans ((Part.updFeeder_frame f _ _).mono)).mono .refl

theorem Part.stationSecond_frame (p : Part) :
    ChangesOnly (Set.range .feeder ∪ Set.range .drive ∪ {.record}) p p.stationSecond := by
  have z : ChangesOnly {.record} p p.zoneSecond := .ite (p.record_frame _) .refl
  exact (z.mono.next (.forAll (T := {.record}) (fun b q => .ite (q.record_frame _) .refl) _ _)).trans
    (.forAll Part.secondOfFeeder_frame _ _)

theorem Feeder.moveSetpoint_measured (t : Nat) (x : Feeder) : (x.moveSetpoint t).measured = x.measured := by
  cases x with | mk _ _ st => ?_
  cases st <;> simp [Feeder.moveSetpoint, Feeder.ramp, Feeder.measured]
  repeat' split
  all_goals simp

theorem Part.dose_frame (p : Part) : ChangesOnly (Set.range .drive ∪ {.driveOut}) p p.dose := by
  have h1 : ∀ (l : List (Fin 6)) (r : Part), ChangesOnly (Set.range .drive ∪ {.driveOut}) r
      (r.forAll l fun f s => s.updFeeder f (Feeder.moveSetpoint s.alloc.massF[f])) := fun l r =>
    .forAll (fun f s => (s.updFeeder_drive_frame f _ (Feeder.moveSetpoint_measured _)).mono) _ _
  have h2 : ∀ (l : List (Fin 6)) (r : Part), ChangesOnly (Set.range .drive ∪ {.driveOut}) r
      (r.forAll l fun f s => (s.updFeeder f Feeder.updateTrim).writeFeeder f) := fun l r =>
    .forAll (fun f s => (s.updFeeder_drive_frame f _ fun y => by
      unfold Feeder.updateTrim; split <;> simp [Feeder.measured]).mono.next (Part.writeFeeder_frame f _)) _ _
  have h3 : ∀ (l : List (Fin 6)) (r : Part), ChangesOnly (Set.range .drive ∪ {.driveOut}) r
      (r.forAll l fun f s => s.updFeeder f (Feeder.testTimers s.now s.field.output.speed[f])) := fun l r =>
    .forAll (fun f s => (s.updFeeder_drive_frame f _ fun y => by
      unfold Feeder.testTimers; split <;> simp [Feeder.measured]).mono) _ _
  unfold Part.dose
  refine ChangesOnly.trans (ChangesOnly.trans ?_ (h2 _ _)) (h3 _ _)
  exact (h1 _ p).next (Part.settleFeeders_frame _)

theorem Part.checkLoaded_frame (b : Fin 2) (p : Part) : ChangesOnly (burnerBlocks b) p (p.checkLoaded b) :=
  .ite (p.enterFiring_frame b) .refl

theorem Part.controlPeriod_frame (t : Time) (p : Part) :
    ChangesOnly ({.feederClock} ∪ (burnerBlocks 0 ∪ burnerBlocks 1) ∪ settleBlocks) p (p.controlPeriod t) := by
  have h : ChangesOnly {.feederClock} p { p with nextFeeder := nextMultiple t feederPeriod } := by
    refine ⟨fun x hx => ?_⟩; cases x <;> simp_all [Block.Same]
  have g : ∀ (c : Prop) [Decidable c] (q : Part),
      ChangesOnly ({.feederClock} ∪ (burnerBlocks 0 ∪ burnerBlocks 1) ∪ settleBlocks) q
        (if c then q.stationSecond else q) := fun c _ q => .ite (q.stationSecond_frame).mono .refl
  have k : ∀ (f : Fin 2 → Part → Part), (∀ b q, ChangesOnly (burnerBlocks b) q (f b q)) → ∀ q,
      ChangesOnly ({.feederClock} ∪ (burnerBlocks 0 ∪ burnerBlocks 1) ∪ settleBlocks) q (q.forAll burnerIds f) :=
    fun f hf q => .forAll (fun b r => (hf b r).mono
      ((Part.oneBurner b).trans (Set.subset_union_right.trans Set.subset_union_left))) _ q
  exact (((((h.mono.trans (g _ _)).next (Part.dose_frame _)).next (Part.deliverHeat_frame _)).trans
    (k _ Part.checkLoaded_frame _)).trans (k _ Part.checkStopped_frame _)).next (Part.settle_frame _)
      Set.subset_union_right

/-! ## Mixes -/

theorem Part.rampStep_frame (b : Fin 2) (r : MixRamp) (p : Part) :
    ChangesOnly ({.ramp b} ∪ mixBlocks ∪ leaveBlocks 2) p (p.rampStep b r) :=
  .ite (((p.replaceMix_frame b _).mono.next (Part.setRamp_frame b _ _)).next (Part.withdraw_frame 2 _ _))
    ((p.replaceMix_frame b _).mono.next (Part.setRamp_frame b _ _))

theorem Part.setMix_frame (b : Fin 2) (m : Vector Nat 6) (p : Part) :
    ChangesOnly ({.ramp b} ∪ mixBlocks ∪ leaveBlocks 2) p (p.setMix b m) := by
  unfold Part.setMix
  split
  · exact .ite ((p.setRamp_frame b _).mono.next (Part.withdraw_frame 2 _ _)) (p.setRamp_frame b _).mono
  · exact .ite (p.replaceMix_frame b _).mono (.ite .refl ((p.setRamp_frame b _).mono.next (Part.request_frame 2 _ _)))

/-! ## Cooler -/

theorem Part.fanSpeed_frame (f : OutputImage → Vector Nat 4) (p : Part) :
    ChangesOnly {.fanOut} p (p.updOutput fun o => { o with fanSpeed := f o }) := by
  refine ⟨fun x hx => ?_⟩; cases x <;> simp_all [Block.Same, Field.scanning]

theorem Part.grateSpeed_frame (f : OutputImage → Nat) (p : Part) :
    ChangesOnly {.grateOut} p (p.updOutput fun o => { o with grateSpeed := f o }) := by
  refine ⟨fun x hx => ?_⟩; cases x <;> simp_all [Block.Same, Field.scanning]

theorem Part.controlFan_frame (n : Fin 4) (p : Part) :
    ChangesOnly (Set.range .fan ∪ {.fanOut}) p (p.controlFan n) :=
  .ite (.ite ((p.updFan_frame n _).mono.next (Part.fanSpeed_frame _ _)) (p.updFan_frame n _).mono) .refl

theorem Part.controlGrate_frame (p : Part) : ChangesOnly {.grateOut} p p.controlGrate :=
  .ite (p.grateSpeed_frame _) .refl

theorem Part.formAir_frame (p : Part) : ChangesOnly (Set.range .fan ∪ {.air}) p p.formAir := by
  have a : ∀ (q : Part) (x : Air), ChangesOnly {.air} q { q with air := x } := fun q x => by
    refine ⟨fun x hx => ?_⟩; cases x <;> simp_all [Block.Same]
  exact ChangesOnly.next (.forAll (fun n q => (q.updFan_frame n _).mono) _ _) (a _ _)

theorem Part.coolingPeriod_frame (t : Time) (p : Part) :
    ChangesOnly ({.fanClock, .fanOut, .grateOut, .air, .record} ∪ Set.range .fan ∪ settleBlocks) p
      (p.coolingPeriod t) := by
  have h : ChangesOnly {.fanClock} p { p with nextCool := nextMultiple t second } := by
    refine ⟨fun x hx => ?_⟩; cases x <;> simp_all [Block.Same]
  have r : ∀ q : Part, ChangesOnly {.record} q (q.forAll fanIds Part.fanSecond) := fun q =>
    .forAll (fun n r => .ite (r.record_frame _) .refl) _ q
  exact ((((((h.mono.next (.forAll Part.controlFan_frame _ _)).next (Part.controlGrate_frame _)).next
    (Part.formAir_frame _)).next (r _)).next (Part.record_frame _ _))).next (Part.settle_frame _)
      Set.subset_union_right

/-! ## Scans -/

theorem Part.scanFeeder_frame (v : Vector (Channel Bool) 6) (f : Fin 6) (p : Part) :
    ChangesOnly settleAllBlocks p (p.scanFeeder v f) :=
  .ite ((((p.updFeeder_frame f _).mono).next (Part.takeLocal_frame _ f _)
    (Set.union_subset (by
      rintro x (rfl | rfl | rfl | rfl) <;>
        simp [settleAllBlocks, settleBlocks, tripBlocks, pointBlocks, burnerBlocks, mixBlocks])
      (Part.burnersIn.trans Set.subset_union_left)))) .refl

theorem Part.scanPermit_frame (b : Fin 2) (p : Part) : ChangesOnly (burnerBlocks b) p (p.scanPermit b) := by
  unfold Part.scanPermit
  refine .ite .refl ?_
  split
  · exact p.burnerTo_frame b _ _ _
  · exact p.hold_frame b _
  · exact p.hold_frame b _
  · exact p.hold_frame b _
  · exact .refl

theorem Part.scanFan_frame (n : Fin 4) (p : Part) : ChangesOnly (fanBlocks n) p (p.scanFan n) :=
  ChangesOnly.next (q := if p.startComplete n then p.fanTo n .running else p) (U := {.fan n})
    (.ite (p.fanTo_frame n _) .refl) (by unfold Part.scanFan; exact Part.updFan_frame n _ _)

theorem Part.scanExternal_frame (n : Fin 16) (p : Part) : ChangesOnly {.ext} p (p.scanExternal n) := by
  refine ⟨fun y hy => ?_⟩; cases y <;> simp_all [Block.Same, Part.scanExternal]

/-- What a scan may change (R180). -/
def scanBlocks : Set Block := {.grate, .ext, .fanOut} ∪ Set.range .fan ∪ leaveBlocks 1 ∪ settleAllBlocks

theorem Part.handScan_frame (v : Vector (Channel Bool) 6) (p : Part) : ChangesOnly scanBlocks p (p.handScan v) := by
  have hb : ∀ b, burnerBlocks b ⊆ scanBlocks := fun b =>
    ((Part.oneBurner b).trans Part.burnersIn).trans (Set.subset_union_left.trans Set.subset_union_right)
  have flame : ∀ (b : Fin 2) (q : Part), ChangesOnly scanBlocks q (q.scanFlame b) := fun b q =>
    .ite ((q.updBurner_frame b _).mono ((Set.singleton_subset_iff.2 (.inl (.inl (.inl (.inl rfl))))).trans (hb b))) .refl
  have fan : ∀ (n : Fin 4) (q : Part), ChangesOnly scanBlocks q (q.scanFan n) := fun n q =>
    (q.scanFan_frame n).mono (by
      refine Set.union_subset ?_ (Set.subset_union_right.trans Set.subset_union_left)
      simp [scanBlocks, Set.insert_subset_iff])
  exact ((((((((p.settlePoint_frame 0 false).1.mono (Set.subset_union_left.trans Set.subset_union_right)).trans
    (.forAll (fun f q => (q.scanFeeder_frame v f).mono Set.subset_union_right) _ _)).trans
    (.forAll flame _ _)).trans (.forAll (fun b q => (q.scanPermit_frame b).mono (hb b)) _ _)).trans
    (.forAll fan _ _)).next (Part.updGrate_frame _ _) (by simp)).trans
    (.forAll (fun n q => (q.scanExternal_frame n).mono (by simp)) _ _)).next (Part.settleAll_frame _)
      Set.subset_union_right

theorem Field.move_output (good : Bool) (l : List Byte) (f : Field) : (f.move good l).output = f.output := by
  unfold Field.move
  repeat' split
  all_goals rfl

theorem Part.completeScan_frame (l : List Byte) (p : Part) :
    ChangesOnly ({.scan, .image} ∪ scanBlocks) p (p.completeScan l) := by
  refine ChangesOnly.trans ?_ ((Part.handScan_frame _ _).mono Set.subset_union_right)
  refine ⟨fun x hx => ?_⟩
  cases x <;> first | (simp [Block.Same, Field.move_output, Field.count]; done) | simp_all

theorem Part.startScan_frame (t : Time) (p : Part) : ChangesOnly {.scan} p (p.startScan t) := by
  refine ⟨fun x hx => ?_⟩; cases x <;> simp_all [Block.Same, Part.startScan]

end Sys2Proof.Machine
end

