-- ==== Sys2Proof/Laws/RowFrames.lean ====
section
/-! SUPPORT. Frames of the checks that host commands begin with, and of the station's start and restart. -/

namespace Sys2Proof.Machine

-- One proof at a time: the whole package as one text must not start a thread for each of them.
set_option Elab.async false
open Sys2Proof.Config

theorem Part.updHost_frame (f : HostPort → HostPort) (p : Part) (T : Set Block)
   (h : ∀ x : HostPort, (.buffer ∉ T → (f x).buffer = x.buffer ∧ (f x).overLong = x.overLong) ∧
     (.response ∉ T → (f x).run = x.run ∧ (f x).readPos = x.readPos ∧ (f x).ready = x.ready ∧ (f x).inProgress = x.inProgress ∧ (f x).overrun = x.overrun) ∧
     (.enables ∉ T → (f x).enables = x.enables) ∧
     (.engineering ∉ T → (f x).window = x.window ∧ (f x).lapsed = x.lapsed ∧ (f x).eng = x.eng) ∧
     (.dataOut ∉ T → (f x).dataOut = x.dataOut) := by intro x; simp) : ChangesOnly T p (p.updHost f) := by
  refine ⟨fun x hx => ?_⟩
  have := h p.host
  cases x <;> simp_all [Block.Same]

theorem Part.engineeringDone_frame (cmd : Nat) (p : Part) : ChangesOnly {.engineering, .response} p (p.engineeringDone cmd) := by
  exact (Part.updHost_frame _ p _).trans ((Part.reply_frame _ _ _ _).mono)

theorem Part.engineering_frame {T : Set Block} (cmd : Nat) (f : Part → Part) (p : Part) (h : ChangesOnly T p (f p)) :
    ChangesOnly ({.response} ∪ T) p (p.engineering cmd f) := by
  unfold Part.engineering
  exact .ite (h.mono Set.subset_union_right) (Part.reply_frame ..).mono

theorem Part.burnerCommand_frame {T : Fin 2 → Set Block} (cmd n : Nat) (f : Fin 2 → Part → Part) (p : Part)
   (h : ∀ b, ChangesOnly (T b) p (f b p)) : ChangesOnly ({.response} ∪ {x | ∃ b : Fin 2, b.val = n ∧ x ∈ T b}) p (p.burnerCommand cmd n f) := by
  unfold Part.burnerCommand finOf
  refine .ite (Part.reply_frame ..).mono ?_
  by_cases hn : n < 2
  · simp only [hn, dite_true]
    exact .ite ((h _).mono fun x hx => .inr ⟨_, rfl, hx⟩) (Part.reply_frame ..).mono
  · simp only [hn, dite_false]; exact (Part.reply_frame ..).mono

theorem Part.fanCommand_frame {T : Fin 4 → Set Block} (cmd n : Nat) (f : Fin 4 → Part → Part) (p : Part)
   (h : ∀ b, ChangesOnly (T b) p (f b p)) : ChangesOnly ({.response} ∪ {x | ∃ b : Fin 4, b.val = n ∧ x ∈ T b}) p (p.fanCommand cmd n f) := by
  unfold Part.fanCommand finOf
  refine .ite (Part.reply_frame ..).mono ?_
  by_cases hn : n < 4
  · simp only [hn, dite_true]
    exact .ite ((h _).mono fun x hx => .inr ⟨_, rfl, hx⟩) (Part.reply_frame ..).mono
  · simp only [hn, dite_false]; exact (Part.reply_frame ..).mono

theorem Part.pointCommand_frame {T : Set Block} (cmd n : Nat) (f : Fin 62 → Part → Part) (p : Part)
   (h : ∀ b, ChangesOnly T p (f b p)) : ChangesOnly ({.response} ∪ T) p (p.pointCommand cmd n f) := by
  unfold Part.pointCommand
  refine .ite (Part.reply_frame ..).mono ?_
  split
  · exact (Part.reply_frame ..).mono
  · exact (h _).mono Set.subset_union_right

theorem Part.grateCommand_frame {T : Set Block} (cmd : Nat) (f : Part → Part) (p : Part)
   (h : ChangesOnly T p (f p)) : ChangesOnly ({.response} ∪ T) p (p.grateCommand cmd f) := by
  unfold Part.grateCommand
  exact .ite (Part.reply_frame ..).mono (.ite (h.mono Set.subset_union_right) (Part.reply_frame ..).mono)

theorem Part.start_frame (p : Part) : ChangesOnly ({.started, .shift, .statusTimer, .mode, .grate, .air, .feederClock, .fanClock, .response} ∪ Set.range .fan ∪
      settleAllBlocks) p p.start := by
  have h1 : ChangesOnly {.started} p {p with started := true} := by
    refine ⟨fun x hx => ?_⟩; cases x <;> simp_all [Block.Same]
  have h2 : ∀ q : Part, ChangesOnly {.shift, .record, .events} q q.openAtStart := fun q =>
    (q.openRecord_frame _ _ _ _).mono.next (Part.offer_frame ..)
  have h3 : ∀ q : Part, ChangesOnly {.statusTimer} q (q.updLine fun l => { l with statusDue := some (later q.now q.cfg.period) }) := fun q => by
    refine ⟨fun x hx => ?_⟩; cases x <;> simp_all [Block.Same]
  have h4 : ∀ q : Part, ChangesOnly ({.mode, .grate, .air} ∪ Set.range .fan ∪ Set.range .burner ∪ Set.range .feeder ∪ Set.range .drive) q q.blocksInitial := fun q => by
    refine ⟨fun x hx => ?_⟩; cases x <;> simp_all [Block.Same, Part.blocksInitial]
  have h5 : ∀ q : Part, ChangesOnly {.driveOut} q q.writeFeeders := fun q =>
    .forAll (fun f q => q.writeFeeder_frame f) _ _
  have h6 : ∀ (q : Part) (a b : Nat), ChangesOnly {.feederClock, .fanClock} q {q with nextFeeder := a, nextCool := b} := fun q a b => by
    refine ⟨fun x hx => ?_⟩; cases x <;> simp_all [Block.Same]
  have hb : ∀ b : Fin 2, (.burner b : Block) ∈ settleAllBlocks := fun b => .inl (Part.burnersIn (Part.oneBurner b (.inl (.inl (.inl (.inl rfl))))))
  unfold Part.start
  refine ChangesOnly.next ?_ (Part.settleAll_frame _) Set.subset_union_right
  refine ChangesOnly.next ?_ (Part.points_frame _ _)
  refine ChangesOnly.next ?_ (Part.evaluate_frame _)
  refine ChangesOnly.next ?_ (h6 _ _ _)
  refine ChangesOnly.next ?_ (h5 _)
  refine ChangesOnly.next ?_ (h4 _) ?_
  · refine ChangesOnly.next ?_ (h3 _)
    refine ChangesOnly.next ?_ (Part.queueFrame_frame _ _)
    exact h1.mono.next (h2 _)
  · rintro x ((((h | ⟨n, rfl⟩) | ⟨b, rfl⟩) | ⟨f, rfl⟩) | ⟨f, rfl⟩)
    · rcases h with rfl | rfl | rfl <;> simp
    · simp
    · exact .inr (hb b)
    · exact .inr (.inl (Part.burnersIn (Part.oneBurner 0 (.inl (.inl (.inr (.inl (.inl ⟨f, rfl⟩))))))))
    · exact .inr (.inl (Part.burnersIn (Part.oneBurner 0 (.inl (.inl (.inr (.inl (.inr ⟨f, rfl⟩))))))))

theorem Part.restart_frame (p : Part) : ChangesOnly ({.started, .queue, .queueOut, .sending, .statusTimer, .txFail, .silent, .record, .shift, .mode, .grate, .air, .offer, .alloc,
      .points, .ext, .firstOut, .horn, .events, .eventsOut, .window, .driveOut, .igniters, .fanOut, .grateOut, .hornOut, .enables,
      .response} ∪ Set.range .burner ∪ Set.range .feeder ∪ Set.range .drive ∪ Set.range .ramp ∪ Set.range .fan ∪
      Set.range .claim ∪ Set.range .waitList ∪ Set.range .reclaim ∪ Set.range .mark) p p.restart := by
  have h1 : ChangesOnly {.queue, .queueOut, .sending, .statusTimer, .txFail, .silent} p p.restartLine := by
    have a1 : ChangesOnly {.queue, .queueOut, .sending, .statusTimer, .txFail, .silent} p (p.updLine fun l => { l.emptyQueue with txFail := false }) := by
      refine ⟨fun x hx => ?_⟩; cases x <;> simp_all [Block.Same, Line.emptyQueue]
    have a2 : ∀ q : Part, ChangesOnly {.queue, .queueOut, .sending, .statusTimer, .txFail, .silent} q (q.forAll resourceIds Part.restartRelease) := fun q =>
      .forAll (fun k q => .ite (Part.place_frame _ _).1.mono .refl) _ _
    have a3 : ∀ q : Part, ChangesOnly {.queue, .queueOut, .sending, .statusTimer, .txFail, .silent} q (q.updLine fun l => { l with silent := false }) := fun q => by
      refine ⟨fun x hx => ?_⟩; cases x <;> simp_all [Block.Same]
    exact (a1.trans (a2 _)).trans (a3 _)
  have h2 : ∀ (b : Fin 2) (q : Part), ChangesOnly (mixBlocks ∪ Set.range .ramp) q ( match q.ramps[b] with
    | some r => (q.replaceMix b r.target).setRamp b none
    | none => q) := fun b q => by
    split
    · exact (q.replaceMix_frame _ _).mono.next (Part.setRamp_frame _ _ _)
    · exact .refl
  have h3 : ∀ q : Part, ChangesOnly ({.mode, .grate, .air, .alloc, .offer, .started} ∪ Set.range .fan ∪ Set.range .burner ∪ Set.range .feeder ∪ Set.range .drive ∪
      Set.range .claim ∪ Set.range .waitList ∪ Set.range .reclaim ∪ Set.range .mark) q { q.blocksInitial with claims := Vector.ofFn fun k => q.claims[k].restarted, alloc := .reset, started := false } := fun q => by
    refine ⟨fun x hx => ?_⟩; cases x <;> simp_all [Block.Same, Part.blocksInitial, Resource.restarted, Resource.toIdle]
  have h4 : ∀ q : Part, ChangesOnly {.points, .ext, .firstOut, .horn, .events, .eventsOut, .window} q (q.updAlarms Alarms.restarted) := fun q => by
    refine ⟨fun x hx => ?_⟩
    cases x with
    | points | ext | firstOut | horn | events | eventsOut | window => simp at hx
    | peerTrips => simp only [Block.Same, Part.updAlarms, Alarms.restarted, and_self]
    | tripSeq => simp only [Block.Same, Part.updAlarms, Alarms.restarted]
    | queueOut => exact ⟨fun _ h => h, id⟩
    | _ => simp only [Block.Same, Part.updAlarms, and_self]
  have h5 : ∀ q : Part, ChangesOnly {.driveOut, .igniters, .fanOut, .grateOut, .hornOut} q (q.updOutput fun _ => .off) := fun q => by
    refine ⟨fun x hx => ?_⟩; cases x <;> simp_all [Block.Same, Field.scanning]
  unfold Part.restart
  refine ChangesOnly.next ?_ (Part.updHost_frame _ _ {.enables})
  refine ChangesOnly.next ?_ (h5 _)
  refine ChangesOnly.next ?_ (h4 _)
  refine ChangesOnly.next ?_ (Part.updGrate_frame _ _)
  refine ChangesOnly.next ?_ (h3 _)
  refine ChangesOnly.next ?_ (.forAll h2 _ _)
  exact h1.mono.next (Part.closeRecord_frame true _)

end Sys2Proof.Machine
end

