-- ==== Sys2Proof/Tests/Slice0.lean ====
section
/-! SUPPORT. Tests: ill-formed rows refused, the manual's worked examples in one step each, and for every statement with
hypotheses a part that meets them, clause by clause at their boundaries. -/

namespace Sys2Proof.Tests

-- One proof at a time: the whole package as one text must not start a thread for each of them.
set_option Elab.async false

open Sys2Proof Sys2Proof.Machine Sys2Proof.Config

/-! ## Parts to test on -/

/-- The part a row leaves. -/
def taken (c : Instr) (p : Part) : Part := match exec c ⟨p, []⟩ with | .next s => s.part | _ => p

/-- Right after a pin reset: UNSTARTED. -/
def idle : Part := State.reset.part

/-- An input image with every channel valid, permits present, fans' feedback negated. -/
def goodImage : InputImage :=
  { pulses := .replicate 6 ⟨0, true⟩, inLocal := .replicate 6 ⟨false, true⟩, running := .replicate 6 ⟨true, true⟩,
    flame := .replicate 2 ⟨200, true⟩, permit := .replicate 2 ⟨true, true⟩, flow := .replicate 4 ⟨2100, true⟩,
    fanRun := .replicate 4 ⟨false, true⟩, bed := ⟨5300, true⟩, grateRun := ⟨true, true⟩,
    discrete := .replicate 16 ⟨false, true⟩ }

/-- An UNSTARTED station with two burners, six feeders, four fans, a grate and an external TRIP point configured. -/
def ready : Part :=
  { idle with
    now := 5000, cfg := { StationCfg.reset with zone := .kiln, airCeiling := true },
    line := { Line.reset with receiver := .ready },
    burners := .replicate 2 { Burner.reset with cfg := { BurnerCfg.reset with used := true } },
    fuel := .replicate 8 26800,
    feeders := .ofFn fun f => { Feeder.reset with
      cfg := { FeederCfg.reset with used := true, burner := if f < 3 then 0 else 1, maxRate := 65000, weight := 500 },
      mix := if f = 0 ∨ f = 3 then 1000 else 0, state := .stopped },
    fans := .replicate 4 { Fan.reset with state := .stopped, cfg := { FanCfg.reset with
      used := true, base := 3000, apf := 30, minFlow := 2000, maxFlow := 9000, airFactor := 60, gain := 50 } },
    grate := { Grate.reset with state := .stopped, cfg := { GrateCfg.reset with
      used := true, minSpeed := 150, maxSpeed := 900, gain := 20, low := 4000, high := 7000 } },
    alarms := { Alarms.reset with ext := .ofFn fun n =>
      if n = 0 then ⟨true, ⟨.trip, true, .station, false, 15⟩, .host, false⟩
      else if n = 1 then ⟨true, ⟨.alarm, true, .none, false, 15⟩, .field, false⟩ else Ext.reset },
    field := { Field.reset with image := goodImage, state := .good, badRun := 0 },
    host := { HostPort.reset true with window := some 905000 } }

/-- The same station STARTED in RUN, with its record open under shift 1. -/
def up : Part := ({ ready with started := true, mode := .run }).openRecord 1 .start true false

/-- Burner 0 of it in a state. -/
def lit (s : BurnerState) (f : Burner → Burner := id) : Part := up.updBurner 0 fun x => f { x with state := s }

/-- Fan 0 of it in a state. -/
def blown (s : FanState) (f : Fan → Fan := id) : Part := up.updFan 0 fun x => f { x with state := s }

/-- A point of it in a state. -/
def alarmed (i : Fin 62) (s : PointState) (f : Point → Point := id) : Part := up.updPoint i fun x => f { x with state := s }

/-- The first 5 characters of a frame assembled. -/
def begun (l : List Byte) : Part := up.updLine fun x => { x with assembly := l.take 5 }

/-- Its window CLOSED, its line SILENT, its receiver in a state, its time t. -/
def keyed (p : Part) : Part := { p with host := { p.host with window := none } }
def mute (p : Part) : Part := p.updLine fun l => { l with silent := true }
def hearing (r : Receiver) (p : Part := up) : Part := p.updLine fun l => { l with receiver := r }
def at_ (t : Time) (p : Part := up) : Part := { p with now := t }

/-- A transmit queue of n STATUS frames with a attempts each, in a phase. -/
def sending (n a : Nat) (ph : TxPhase) (last : Bool := false) : Part :=
  up.updLine fun l => { l with queue := List.replicate n ⟨.status, a, none, 0⟩, phase := ph, lastTry := last }

/-- That queue in the middle of an attempt at a RELEASE for resource 0, and its 7 characters taken back as they were sent. -/
def attempt (a : Nat) (last : Bool := false) : Part :=
  (sending 1 a .sending last).updLine fun l => { l with queue := [⟨.release 0, a, some 7, 0⟩], wire := up.frameBytes (.release 0) 7 }
def echo : List ReadBack := (up.frameBytes (.release 0) 7).zipIdx.map fun x => .heard (charOf x.1) (11 * x.2 + 10)

/-- A frame of a station with good CHECK. -/
def frame (src kind : Nat) (payload : List Byte) : List Byte :=
  withCrc ([byteOf src, byteOf kind, byteOf payload.length, 7] ++ payload)

/-- An input block: ready bit, all channels 0, and its CRC. -/
def block (ready : Byte) : List Byte := withCrc (ready :: List.replicate 36 0)

/-- A block as it arrives on FDI. -/
def clocked (l : List Byte) : List Bool := l.flatMap fieldBits

/-- A sound input block with every channel valid: feeder 0 in LOCAL, permits present, flows of 2 000, the run feedback of fan
0 and of the grate asserted, a bed pressure, all else 0. -/
def scanned (bed : Nat) : List Byte :=
  withCrc (1 :: List.replicate 12 0 ++ [1, 0, 200, 0, 3, 7, 208, 7, 208, 7, 208, 7, 208, 17] ++ be16 bed ++ [0, 0] ++
    List.replicate 6 255)

/-- A mix-ramp record of 60 s after e steps, from 500, 300, 200 to 334, 333, 333 on the feeders of burner 1. -/
def rampAt (e : Nat) (on : Bool := true) : MixRamp := ⟨on, #v[0, 0, 0, 500, 300, 200], #v[0, 0, 0, 334, 333, 333], 60, e, 6000⟩

/-- Resource k in a claim state for user u, its timers at t. -/
def claimed (k : Fin 3) (s : ClaimState) (u : Nat) (t : Option Time) (p : Part := up) : Part :=
  p.updRes k fun r => { r with state := s, user := some u, settle := t, stagger := t, waitList := [u] }

/-! ## Ill-formed rows (Sys2Proof/WellFormed.lean) -/

theorem test_wellFormed_refuses_bytes :
    [Instr.readPeerEntry 256, .setMode 256, .startBurner 256, .stopBurner 256, .resumeBurner 256, .resetTripPoint 256,
      .resetTripBurner 256, .readBurner 256, .readFeeder 256, .startFan 256, .stopFan 256, .resetFan 256,
      .acknowledge 256, .resetAlarm 256, .unshelve 256, .raiseExternal 256, .clearExternal 256, .discardPeerTrip 256,
      .readPoint 256, .readShiftRecord 0 256, .configureExternalPoint 0 1 0 1 1 0 15 256].all (!·.wellFormed) = true := by
  decide

theorem test_wellFormed_refuses_words :
    [Instr.pinReset 16 0 false, .pinReset 0 4 false, .offerDemand 65536, .setBedPressure 65536, .closeShift 65536,
      .writeShiftNote 65536, .shelve 0 65536, .configureFuel 0 65536, .writeFuel 0 65536, .writePulseWeight 0 65536,
      .configureStation 0 0 0 0 0 65536, .configureBurner 0 0 0 65536 0 0 0 0 0 0 0,
      .configureFeeder 0 0 0 0 0 0 0 0 0 0 0 65536, .setMix 0 0 0 0 0 0 65536, .configureFan 0 0 0 65536 0 0 0 0 0 0,
      .configureGrate 0 65536 0 0 0 0 0 0, .fieldScanComplete [true], .frameSentWhole [], .readBackMismatch [.heard 1 10], .frameReceived [], .partialFrameDiscard (.badCharacter 1) [],
      .badHeaderDiscard [1, 2, 3, 4]].all (!·.wellFormed) = true := by
  decide

/-! ## The manual's worked figures -/

/-- 12.1: the check value of the nine characters 31h to 39h. -/
theorem test_crc_check_value : crc ((List.range 9).map fun i => byteOf (0x31 + i)) = 0x29B1 := by decide +kernel

/-- 6.4, the ring filling after start. -/
theorem test_ring_rates : [[], [4], [4, 5], [4, 5, 4], [4, 5, 4, 5], [5, 4, 5, 4]].map (ringRate · 500) =
    [0, 7200, 8100, 7800, 8100, 8100] ∧ joinRing 4 4 [4, 5, 4, 5] = [5, 4, 5, 4] := by decide +kernel

/-- 6.5, the second bucket of the example: 2 kg and 500 g, 19 kWh and 1 800 000. -/
theorem test_bucket_totals :
    let q := taken .feederControlPeriod ({ up.updFeeder 0 fun x => { x with bucket := 5, energyRem := 3200000 } with
      nextFeeder := 5000 })
    (q.feeders[0].kg, q.feeders[0].gramRem, q.feeders[0].kWh, q.feeders[0].energyRem) = (2, 500, 19, 1800000) := by
  decide +kernel

/-- 6.9, the mix ramp on three feeders at e = 1, 30, 59 and 60. -/
theorem test_mix_ramp_table : [1, 30, 59, 60].map (fun e => (up.steppedMix 1 (rampAt e)).toList.drop 3) =
    [[497, 300, 203], [417, 316, 267], [336, 333, 331], [334, 333, 333]] := by decide +kernel

/-- 7.4, the setpoint and the speeds of periods 1, 28, 29 and 30. -/
theorem test_fan_setpoints : [18000, 22000, 0].map (up.fans[0].cfg.setpoint ·) = [8400, 9000, 3000] ∧
    [(2100, 200), (8200, 740), (8300, 750), (8450, 755)].map (fun x => up.fans[0].cfg.speed 8400 x.1 x.2) =
      [220, 750, 755, 753] := by decide +kernel

/-- 7.5, a flow of 8 000 at a factor of 60. -/
theorem test_air_contribution : up.fans[0].contributes ⟨8000, true⟩ = 0 ∧
    (blown .running).fans[0].contributes ⟨8000, true⟩ = 4800 := by decide +kernel

/-- 7.6, the grate following the bed. -/
theorem test_grate_speeds : [(5300, 400), (5900, 406), (5620, 416), (5040, 426), (4930, 426)].map
    (fun x => up.grate.cfg.speed 5000 x.1 x.2) = [406, 416, 426, 426, 425] := by decide +kernel

/-- 7.6, SET BED PRESSURE 3 000 with limits 4 000 and 7 000: CLAMPED (02h), 4 000. -/
theorem test_bed_pressure_clamped : (taken (.setBedPressure 3000) up).grate.psp = 4000 ∧
    (taken (.setBedPressure 3000) up).host.run.head? = some 2 := by decide +kernel

/-- R184: an empty submit is UNKNOWN, and a whole command is in progress until its block takes it. -/
theorem test_submit : (taken .submit idle).host.run.head? = some 3 ∧
    (taken .submit { idle with host := { idle.host with buffer := [0x28, 1] } }).host.inProgress = some [0x28, 1] := by
  decide +kernel

/-- R81, R42: a start waits for LIGHT-OFF with a stagger of 20 ms for station 1. -/
theorem test_start_burner : (taken (.startBurner 0) up).burners[0].lightWait = some 605000 ∧
    (taken (.startBurner 0) up).claims[0].stagger = some 5020 := by decide +kernel

/-- R45, R82: the grant lights the igniter for the ignition time of 15 s. -/
theorem test_grant_ignites :
    let q := taken (.settleDeadline 0) (claimed 0 .claiming 0 (some 5000) (lit .lightWait))
    q.burners[0].ignition = some 20000 ∧ q.field.output.igniter[0] = true := by decide +kernel

/-- R88, R146: an external TRIP point bound to the station trips both burners. -/
theorem test_external_trip :
    let q := taken (.raiseExternal 0) (lit .firing)
    q.burners[0].state = .tripped ∧ q.burners[1].state = .off ∧ q.alarms.horn = true := by decide +kernel

/-- R82 to R85, R156: FLAME FAIL rises and falls as the burner trips, FLAME WEAK falls with it, and the horn sounds on. -/
theorem test_flame_fail_sounds :
    let weak := (lit .firing fun x => { x with absent := some 3000, weak := some ⟨0, true⟩ }).updPoint 12 fun x =>
      { x with state := .active, eff := true }
    let q := taken (.flameFailTime 0) weak
    q.alarms.points[10].state = .cleared ∧ q.alarms.points[12].state = .cleared ∧ q.field.output.horn = true := by
  decide +kernel

/-- R74: the mode pairs RUN to HEAT-UP and RUN to STOP. -/
theorem test_set_mode : (taken (.setMode 1) up).mode = .heatUp ∧ (taken (.setMode 0) up).host.run.head? = some 7 := by
  decide +kernel

/-- R18, R19: a good frame under the own number makes a STARTED station SILENT. -/
theorem test_own_frame_silences : (taken (.frameReceived (frame 1 0x85 [0, 1])) up).line.silent = true := by
  decide +kernel

/-- R192: with no row waiting, a millisecond passes; whether the key is turned by then is left free. -/
theorem test_idle_step :
    step State.reset = .next ⟨{ idle with now := 1, host := { idle.host with eng := false || engTurned 1 } }, []⟩ := by
  rfl

/-- R42: a stagger that ends at 5 020 ms does nothing at 5 019, and has the record claim at 5 020. -/
theorem test_row_before_its_instant :
    [5019, 5020].map (fun t => (taken (.staggerEnd 0) (at_ t (claimed 0 .waiting 0 (some 5020)))).claims[0].state) =
      [.waiting, .claiming] := by decide +kernel

/-- R13, R14: a SHIFT frame of station 4 is taken in by a ready receiver only. Behind a frame its characters are one bad
frame, and one that waits for idle or is deaf does not count them. -/
theorem test_receiver_waits_for_idle :
    [Receiver.ready, .behind, .waiting, .deaf].map (fun r =>
      let q := taken (.frameReceived (frame 4 0x85 [0, 1])) (hearing r)
      (q.line.counts.accepted, q.line.counts.bad)) = [(1, 0), (0, 1), (0, 0), (0, 0)] := by decide +kernel

/-- R14, R23: after a pin reset a character with a parity error counts as a partial frame, one behind it does not, and a break
counts nothing. -/
theorem test_bad_character_while_waiting :
    let bad := Instr.partialFrameDiscard (.badCharacter (charOf 0x51 ^^^ 0x200)) []
    let q := taken bad idle
    (q.line.counts.bad, (taken bad q).line.counts.bad, (taken (.partialFrameDiscard .lineBreak []) idle).line.counts.bad) =
      (1, 1, 0) := by decide +kernel

/-- R10: a frame is sent whole only if every character comes back: not with a parity bit turned, a stop bit late or early, other
data, a character missing or none at all in its place. -/
theorem test_read_back :
    ([echo, echo.set 6 (.heard (charOf 0x51) 76), echo.set 0 (.heard (charOf 1 ^^^ 0x200) 10), echo.set 3 (.heard (charOf 7) 44),
      echo.take 6, echo.set 2 .nothing].map fun b => (taken (.frameSentWhole b) (attempt 0)).line.counts.sent) =
      [1, 0, 0, 0, 0, 0] := by decide +kernel

/-- R3: in LOOPBACK the part's own output is read back, so that a frame is sent whole whatever LRX brings, and never broken. -/
theorem test_read_back_in_loopback :
    let p := { attempt 0 with strapRate := 3 }
    ((taken (.frameSentWhole [.nothing]) p).line.counts.sent, (taken (.readBackMismatch [.nothing]) p).line.phase) =
      (1, .sending) := by decide +kernel

/-- 1.5, times 14 and 16: the fourth character is read back with a parity error; four characters are sent, and the retry counts
when the break ends. -/
theorem test_mismatch_then_break :
    let q := taken (.readBackMismatch (echo.take 3 ++ [.heard (charOf 7 ^^^ 0x200) 43])) (attempt 0)
    let r := taken .breakEnded q
    (q.line.phase, q.line.wire.length, q.line.counts.retries) = (.breaking, 4, 0) ∧
      (r.line.phase, r.line.queue, r.line.counts.retries) = (.idle, [⟨.release 0, 1, some 7, 0⟩], 1) := by decide +kernel

/-- R12, R19: an eighth attempt is given up when its break ends, and one on its last try is removed uncounted. -/
theorem test_break_ends_attempts :
    [attempt 7, attempt 0 true].map (fun p =>
      let r := taken .breakEnded (taken (.readBackMismatch [.nothing]) p)
      (r.line.queue.length, r.line.counts.failures, r.line.txFail)) = [(0, 1, true), (0, 0, false)] := by decide +kernel

/-- R191: a WRITE PULSE WEIGHT taken as the deadline passes is answered DONE and renews it, and the closing then removes it;
one taken a millisecond before keeps the window OPEN. -/
theorem test_deadline_behind_renewal :
    [904999, 905000].map (fun t =>
      let q := taken (.writePulseWeight 0 500) (at_ t)
      (q.host.window.isSome, (taken .engineeringDeadline q).host.window.isSome)) = [(true, true), (true, false)] := by
  decide +kernel

/-- What station 3 shows held, and its line-trip flag, taken by station 4. -/
def shown (held flags : Nat) (p : Part) : Part :=
  taken (.frameReceived (frame 3 0x51 ([1, 2, byteOf flags, byteOf held] ++ List.replicate 21 0))) { p with strapStation := 3 }

/-- R142: in one STATUS a conflict holds burner 0 and the line trip trips it: BURNER HELD rises and falls. -/
theorem test_held_rises_and_falls :
    let q := shown 1 2 (claimed 0 .held 0 none (lit .igniting))
    q.burners[0].state = .tripped ∧ q.alarms.points[13].state = .cleared ∧
    (q.alarms.events.filter fun e => e.kind = .point ∧ e.subject = 13).map Event.value = [1, 3] := by decide +kernel

/-- R39: a conflict over LIGHT-OFF takes the waiting ramp of burner 0 from MIX-CHANGE; the same STATUS shows MIX-CHANGE held,
whatever release note stood, so no stagger starts for the ramp of burner 1. -/
theorem test_conflict_meets_new_view :
    let ramps := ((claimed 0 .held 0 none (lit .loading)).setRamp 0 (some (rampAt 0 false))).updRes 2 fun r =>
      { r with waitList := [0, 1], released := .replicate 16 true }
    [1, 5].map (fun held => ((shown held 0 ramps).claims[2].state, (shown held 0 ramps).claims[2].waitList)) =
      [(.waiting, [1]), (.idle, [1])] := by decide +kernel

/-- R131: a held flow that has ended is not armed again while the flow stays BAD. -/
theorem test_held_flow_ends :
    let lost := blown .running fun x => { x with lastGood := some 3000, heldFlow := some 3000, holdUntil := some 5000 }
    (taken (.fieldScanComplete (clocked (block 1))) (taken (.heldFlowExpiry 0) lost)).fans[0].heldFlow = none := by decide +kernel

/-- R123, R136: a fan configured as used enters STOPPED and offers its FAN event, once. -/
theorem test_configured_fan_event :
    let row := Instr.configureFan 2 1 0 0 0 0 0 0 0 5
    let q := taken row idle
    q.alarms.events = [⟨.fan, 2, 1, false, 0, 0, none⟩] ∧ (taken row q).alarms.events = q.alarms.events := by
  decide +kernel

/-- R132, R136: a grate no longer used offers a GRATE event with value UNUSED. -/
theorem test_configured_grate_event :
    (taken (.configureGrate 0 0 0 0 0 0 0 0) ready).alarms.events = [⟨.grate, 0, 0, false, 5000, 0, none⟩] := by
  decide +kernel

/-- R156: the fall of FAN TRIP, asserted again while CLEARED_ACKED, turns off a horn that a CLEARED point left on. -/
theorem test_reasserted_fall_quiets :
    let sounding := ((blown .running fun x => { x with fbLoss := some 3000 }).setHorn true).updPoint 10 fun x =>
      { x with state := .cleared }
    let q := taken (.fanFeedbackLoss 0) (sounding.updPoint 36 fun x => { x with state := .clearedAcked })
    q.alarms.points[36].state = .clearedAcked ∧ q.alarms.horn = false ∧ q.field.output.horn = false ∧
      (taken (.fanFeedbackLoss 0) sounding).alarms.horn = true := by decide +kernel

/-- R28, R151: a line-trip origin of 61 is the entry's point; one of 62 is ignored, and the trip stands all the same. -/
theorem test_line_trip_origin_ranges :
    let heard := fun n => taken (.frameReceived (frame 4 0x51
      ([1, 2, 2] ++ List.replicate 18 0 ++ [byteOf n] ++ List.replicate 3 0))) up
    [61, 62].map (fun n => (heard n).alarms.peerTrips[3]) = [some ⟨some 61, none⟩, some ⟨none, none⟩] ∧
      (heard 62).alarms.points[2].state = .active := by decide +kernel

/-- R1: 51h, least significant bit first, with parity 0 for its three marking bits. -/
theorem test_character_bits :
    bitsOf (charOf 0x51) = [false, true, false, false, false, true, false, true, false, false, true] := by decide

/-- R1, R14: of 51h as sent, with its parity bit and with its stop bit turned, and of 11 spacing bits, the second and third
count a bad frame where nothing is assembled. -/
theorem test_character_errors :
    let heard := fun c => taken (.partialFrameDiscard (.badCharacter c) []) up
    [charOf 0x51, charOf 0x51 ^^^ 0x200, charOf 0x51 ^^^ 0x400, 0].map (fun c => (heard c).line.counts.bad) = [0, 1, 1, 0] ∧
      [charOf 0x51, 0].map (fun c => (heard c).line.receiver) = [.ready, .deaf] := by decide +kernel

/-- R198, R200: the first bit of FDO is the most significant of the first speed, and FDO ends at 0. -/
theorem test_fdo :
    let fast := up.updOutput fun o => { o with speed := o.speed.set 0 0x0300 }
    let f := (taken .fieldScanStart { fast with field := { fast.field with nextScan := 5000 } }).field
    f.fdoBits.length = 312 ∧ f.fdoBits.take 8 = [false, false, false, false, false, false, true, true] ∧
      f.fdoBytes.drop 27 = [f.sentBlock.getD 27 0, 0, 0, 0, 0, 0, 0, 0, 0, 0, 0, 0] := by decide +kernel

/-- R198: the first bit of FDI is the most significant of its byte: 1100 0001 and 0000 0010 arrive as C1h and 02h. -/
theorem test_fdi : fieldBytes [true, true, false, false, false, false, false, true,
    false, false, false, false, false, false, true, false] = [0xC1, 0x02] := by decide

/-- R135: the bed-high timer runs before START STATION. -/
theorem test_bed_high_unstarted :
    (taken (.fieldScanComplete (clocked (scanned 20000))) ({ ready with grate := { ready.grate with
      cfg := { ready.grate.cfg with highLimit := 19999 } } })).grate.bedHigh = some ⟨5000, false⟩ := by decide +kernel

/-- R111: a feeder with a mix of 0 that leaves LOCAL with a setpoint and no measured rate is RUNNING until the next period. -/
theorem test_leaves_local_running :
    let held := (lit .firing).updFeeder 1 fun x => { x with state := .inLocal, setpoint := 100 }
    let q := taken (.fieldScanComplete (clocked (scanned 0))) { held with
      field := { held.field with image := { goodImage with inLocal := .replicate 6 ⟨true, true⟩ } } }
    (q.feeders[1].state, q.feeders[1].setpoint, q.field.output.run[1]) = (.running, 0, true) := by decide +kernel

/-- R179: a feedback held through a bad scan starts no timer. -/
theorem test_held_feedback_starts_no_timer :
    let runs := up.updGrate fun g => { g with state := .running }
    let p := { runs with field := { runs.field with image := { goodImage with grateRun := ⟨false, true⟩ } } }
    [(block 1).set 5 1, block 1].map (fun l => (taken (.fieldScanComplete (clocked l)) p).grate.fbLoss) = [none, some 5000] := by
  decide +kernel

/-! ## Hypotheses that are met: machine, host port, configuration -/

theorem witness_IdleStepPassesOneMillisecond : (0 : Nat) = (429496729599 + 1) % 429496729600 := by decide

theorem witness_PinResetValues : (15 : Nat) < 16 ∧ (3 : Nat) < 4 := by decide

/-- The host port with n bytes in its buffer. -/
def typed (l : List Byte) (long : Bool := false) : Part := { up with host := { up.host with buffer := l, overLong := long } }

theorem witness_HostPortWrites :
    (typed (.replicate 63 0)).host.buffer.length < 64 ∧ 64 ≤ (typed (.replicate 64 0)).host.buffer.length ∧
    ({ up.host with inProgress := some [0x13] }).inProgress.isSome = true ∧
    up.host.inProgress = none ∧ up.host.buffer = [] ∧ (typed [0xFF]).host.buffer = 0xFF :: [] ∧ operandCount 0xFF = none ∧
    operandCount 0x28 = some 1 ∧ (typed [0x28] true).host.overLong = true ∧ ([] : List Byte).length ≠ 1 ∧
    (typed [0x28, 3]).host.buffer = 0x28 :: [3] ∧ ([3] : List Byte).length = 1 ∧ (typed [0x28, 3]).host.overLong = false := by
  decide +kernel

theorem witness_ResponseByteReadOut :
    let h := { up.host with run := [1, 0, 0x13, 0, 0], readPos := 4 }
    h.inProgress = none ∧ h.run[h.readPos]? = some 0 ∧ ({ h with inProgress := some [0x13] }).inProgress.isSome = true ∧
    ({ h with readPos := 5 }).run.length ≤ 5 := by decide +kernel

theorem witness_EventWindowElevenReads :
    let e : Event := ⟨.mode, 0, 1, false, 5000, 0, none⟩
    let p := up.updAlarms fun a => { a with events := [e], lost := 255 }
    p.alarms.readPos = 0 ∧ p.alarms.events = e :: [] ∧ idle.alarms.readPos = 0 ∧ idle.alarms.events = [] := by
  decide +kernel

theorem witness_CommandBytesSpellTheirRow :
    (Instr.setBedPressure 65535).wellFormed = true ∧ (Instr.setBedPressure 65535).spelling = some [0x3F, 0xFF, 0xFF] := by
  decide +kernel

theorem witness_ConfigureOnlyWhileUnstarted : up.started = true := by decide +kernel

/-- Peer 3 LIVE, last heard of at time 1 000. -/
def heard (p : Part) : Part := p.updPeer 3 fun x => { x with state := .live, lastTime := some 1000, lastSeq := some 9 }

theorem witness_ConfigureStationTaken :
    idle.started = false ∧
    (2 ≤ 2 ∧ 1 ≤ 1 ∧ 65535 ≤ 65535 ∧ (1000 = 250 ∨ 1000 = 500 ∨ 1000 = 1000) ∧ 60 ≤ 1800 ∧ 1800 ≤ 1800) ∧ ¬ (60 ≤ 59) ∧
    (3 : Fin 16) ≠ (heard ready).strapStation ∧ (heard ready).peers[3].state = .live ∧
    (heard ready).peers[3].lastTime = some 1000 ∧ reached (heard ready).now (later 1000 (4 * 1000)) = true ∧
    reached { heard ready with now := 4999 }.now (later 1000 (4 * 1000)) = false ∧ ready.peers[2].state ≠ .live := by
  decide +kernel

theorem witness_ConfigureFuelWritesEntry :
    up.started = true ∧ idle.started = false ∧ 8 ≤ 8 ∧ ¬ (4999 = 0 ∨ 5000 ≤ 4999 ∧ 4999 ≤ 50000) ∧
    (0 = 0 ∨ 5000 ≤ 0) ∧ (5000 ≤ 5000 ∧ 50000 ≤ 50000) ∧ (∀ i : Fin 8, up.fuel[i] = 26800) ∧
    5000 ≤ 26800 ∧ 26800 ≤ 50000 := by decide +kernel

theorem witness_ConfigureFuelWritesEntry_rows :
    Takes (.pinReset 15 3 true) up (taken (.pinReset 15 3 true) up) ∧
    Takes .restartStation up (taken .restartStation up) ∧ step ⟨up, [.writeFuel 7 0]⟩ = .next ⟨taken (.writeFuel 7 0) up, []⟩ :=
  ⟨fun _ => by simp only [taken, exec, execPinReset, State.act], fun _ => by simp only [taken, exec, execRestartStation, State.act],
    by simp only [step, taken, exec, execWriteFuel, State.act]⟩

theorem witness_ConfigureBurnerAndFeeder :
    idle.started = false ∧ (1 : Fin 2).val = 1 ∧ (5 : Fin 6).val = 5 ∧
    (1 ≤ 1 ∧ 65000 ≤ 65000 ∧ 5 ≤ 60 ∧ 60 ≤ 60 ∧ 1 ≤ 10 ∧ 10 ≤ 10 ∧ 30 ≤ 600 ∧ 600 ≤ 600 ∧ 1 ≤ 5 ∧ 5 ≤ 5 ∧ 20 ≤ 235 ∧
      235 ≤ 235 ∧ 60 ≤ 3600 ∧ 3600 ≤ 3600) ∧ ¬ (2 ≤ 1) ∧ (7 : Fin 8).val = 7 ∧
    (65000 ≤ 65000 ∧ 1 ≤ 65000 ∧ 1 ≤ 5000 ∧ 5000 ≤ 5000 ∧ 2 ≤ 10 ∧ 10 ≤ 10 ∧ 100 ≤ 100 ∧ 1000 ≤ 1000 ∧ 1 ≤ 10000 ∧
      10000 ≤ 10000) ∧ ¬ (6 ≤ 5) := by decide

theorem witness_ConfigureFanAndGrate :
    idle.started = false ∧ (3 : Fin 4).val = 3 ∧ Destination.exhaust.code = 2 ∧
    (1 ≤ 1 ∧ 65535 ≤ 65535 ∧ 255 ≤ 255 ∧ 5 ≤ 120 ∧ 120 ≤ 120) ∧ ¬ (4 ≤ 3) ∧
    idle.fans[3].state = .unused ∧ idle.grate.state = .unused ∧ ready.started = false ∧ ready.fans[3].state = .stopped ∧
    (1000 ≤ 1000 ∧ 20000 ≤ 20000 ∧ 255 ≤ 255) ∧ ¬ (1001 ≤ 1000) := by decide +kernel

theorem witness_ConfigureExternalPoint :
    idle.started = false ∧ (15 : Fin 16).val = 15 ∧
    (AlarmClass.trip.code = 0 ∧ (Binding.burner 1).code = 3 ∧ (0 = 0 → 1 = 1 ∧ 3 ≠ 0)) ∧
    (AlarmClass.notice.code = 3 ∧ Binding.none.code = 0 ∧ (3 ≠ 0 → 0 = 0 ∧ 0 = 0)) ∧ 15 ≤ 15 ∧ ¬ (16 ≤ 15) := by
  decide +kernel

/-- `ready` with one thing wrong for START STATION. -/
def spoilt (k : Nat) : Part :=
  match k with
  | 0 => ready.updLine fun l => { l with dupDeadline := some 9000 }
  | 1 => ready.updBurner 1 fun x => { x with cfg := { x.cfg with used := false } }
  | 2 => ready
  | 3 => ready.updFeeder 0 fun x => { x with mix := 999 }
  | _ => { lightOwn with cfg := { ready.cfg with zone := .none } }
where
  /-- Burner 1 lit by a feeder of its own. -/
  lightOwn : Part := ready.updBurner 1 fun x => { x with cfg := { x.cfg with feeder := 3 } }

theorem witness_StartStationChecks :
    up.started = true ∧ (spoilt 0).line.dupDeadline.isSome = true ∧ (spoilt 1).line.dupDeadline = none ∧
    ((spoilt 1).feeders[3].cfg.used = true ∧ (spoilt 1).burners[(spoilt 1).feeders[3].cfg.burner].cfg.used = false ∧
      ∀ g < (3 : Fin 6), (spoilt 1).burners[(spoilt 1).feeders[g].cfg.burner].cfg.used = true) ∧
    ((spoilt 2).burners[1].cfg.used = true ∧ (spoilt 2).burners[1].cfg.feeder ∉ (spoilt 2).feedersOf 1 ∧
      (spoilt 2).burners[0].cfg.feeder ∈ (spoilt 2).feedersOf 0) := by decide +kernel

theorem witness_StartStationChecks_later :
    let p := (spoilt 3).updBurner 1 fun x => { x with cfg := { x.cfg with feeder := 3 } }
    (sumOver (p.feedersOf 0) (fun f => p.feeders[f].mix) ≠ 1000 ∧ p.burners[0].cfg.feeder ∈ p.feedersOf 0 ∧
      p.burners[1].cfg.feeder ∈ p.feedersOf 1) ∧
    ((spoilt 4).cfg.zone = .none ∧ (spoilt 4).burners[0].cfg.used = true ∧
      sumOver ((spoilt 4).feedersOf 0) (fun f => (spoilt 4).feeders[f].mix) = 1000 ∧
      sumOver ((spoilt 4).feedersOf 1) (fun f => (spoilt 4).feeders[f].mix) = 1000) := by decide +kernel

theorem witness_StartStationStarts :
    spoilt.lightOwn.started = false ∧ spoilt.lightOwn.line.dupDeadline = none ∧ spoilt.lightOwn.startRefusal = none ∧
    spoilt.lightOwn.line.silent = false ∧ spoilt.lightOwn.line.queue.length < 8 := by decide +kernel

/-- Started with an own offer, and air known from peer 3 or not at all; with FIELD SCAN FAIL found, and with nothing found. -/
theorem witness_StartStationStarts_found :
    let p := spoilt.lightOwn
    let offers := { p with alloc := { p.alloc with offered := true, offer := 9000 } }
    let peer := heard p |>.updPeer 3 fun x => { x with contents := some ([1, 2] ++ List.replicate 15 0 ++ [1] ++ List.replicate 7 0) }
    let dark := { p with field := Field.reset }
    p.cfg.zone ≠ .none ∧ p.cfg.airCeiling = true ∧ p.alloc.ceilState = .disabled ∧
    (taken .startStation offers).demandSource = some 0 ∧ (taken .startStation p).demandSource = none ∧
    (taken .startStation p).airKnown = false ∧ (taken .startStation peer).airKnown = true ∧
    { p.cfg with airCeiling := false }.airCeiling = false ∧ (taken .startStation dark).effective 0 = true ∧
    dark.alarms.points[0] = ⟨.normal, false, none, none, none⟩ ∧ (p.pointAttr 0).latching = true ∧
    (p.pointAttr 0).cls = .trip ∧ (taken .startStation dark).shift.current.isSome = true ∧
    (∀ i : Fin 62, (taken .startStation p).effective i = true → (p.pointAttr i).latching = false) := by decide +kernel

theorem witness_RestartStationClears :
    idle.started = false ∧ up.started = true ∧ (claimed 0 .held 0 none).claims[0].state = .held ∧
    (claimed 0 .claiming 0 none).claims[0].state = .claiming ∧ up.line.silent = false ∧ (mute up).line.silent = true ∧
    up.alarms.ext[0].source = .host ∧ up.shift.current.isSome = true ∧ (sending 1 0 .sending).line.phase = .sending ∧
    (sending 1 0 .breaking).line.phase ≠ .idle ∧
    (sending 1 0 .sending).line.queue = ⟨.status, 0, none, 0⟩ :: [] ∧ up.feeders[3].cfg.used = true ∧
    (up.setRamp 1 (some (rampAt 30))).ramps[(up.feeders[3].cfg.burner : Fin 2)] = some (rampAt 30) ∧
    up.ramps[(up.feeders[3].cfg.burner : Fin 2)] = none := by decide +kernel

theorem witness_EngineeringWindow :
    (keyed up).host.window = none ∧ up.host.window = some 905000 ∧ reached (at_ 905000).now 905000 = true ∧
    reached (at_ 904999).now 905000 = false ∧ up.host.lapsed = false ∧
    (let q := taken (.writePulseWeight 0 500) (at_ 905000)
     q.host.lapsed = true ∧ q.host.window.isSome = true ∧ q.now = 905000 ∧
      q.host = (at_ 905000).host.renewed 0x35 905000) := by decide +kernel

theorem witness_CalibrationWrites :
    up.host.window.isSome = true ∧ (8 ≤ 8 ∨ ¬ 5000 ≤ 4999) ∧ (5000 ≤ 50000 ∧ 50000 ≤ 50000) ∧ up.shift.current.isSome = true ∧
    up.started = true ∧ up.cfg.zone ≠ .none ∧ up.feeders[0].cfg.used = true ∧ up.feeders[0].cfg.fuel = 0 ∧ 6 ≤ 6 ∧
    idle.feeders[0].cfg.used = false ∧ 10000 < 10001 ∧ (1 ≤ 10000 ∧ 10000 ≤ 10000) := by decide +kernel

theorem witness_ReadCommands :
    (16 : Nat) < 17 ∧ (0 : Fin 16) = up.strapStation ∧ (15 : Fin 16) ≠ up.strapStation ∧ (7 < 8 ∧ 8 ≠ 255) ∧ 6 < 7 ∧
    idle.shift.current = none ∧ idle.shift.store.length ≤ 0 ∧ up.shift.current.isSome = true ∧
    ((taken (.closeShift 2) up).shift.store[0]?).isSome = true := by decide +kernel

/-! ## Line, peers, resources, allocation -/

theorem witness_AttemptBegins :
    up.strapRate ≠ 3 ∧ 2 < 3 ∧ (hearing .deaf).line.receiver = .deaf ∧
    (hearing .waiting).line.receiver = .waiting ∧ (up.updLine fun l => { l with assembly := [4] }).line.assembly ≠ [] ∧
    (sending 1 7 .idle).line.phase = .idle ∧ (sending 1 7 .idle).line.queue = ⟨.status, 7, none, 0⟩ :: [] ∧
    20 + (up.strapStation.val + 1) + 8 * 7 ≤ 77 ∧ 76 < 20 + (up.strapStation.val + 1) + 8 * 7 ∧
    (sending 1 0 .breaking).line.phase ≠ .idle ∧ up.line.queue = [] := by decide +kernel

theorem witness_FramesSentAreReadAsSent :
    (alarmed 0 .active).frameBytes .status 255 = (alarmed 0 .active).frameBytes .status 255 ∧
    (taken (.raiseExternal 0) up).lineTripPoint = none ∧
    ((alarmed 45 .active).lineTripPoint = some 45 ∨ (alarmed 45 .active).lineTripPoint = none) ∧
    (sending 1 0 .sending).line.phase = .sending ∧ (sending 1 0 .breaking).line.phase = .breaking ∧
    (let sent := (sending 1 0 .sending).updLine fun l => { l with wire := [1, 255] }
     sent.line.wire[1]? = some 255) := by decide +kernel

theorem witness_AttemptEnds :
    (attempt 0).line.phase = .sending ∧ (attempt 0).line.queue = ⟨.release 0, 0, some 7, 0⟩ :: [] ∧
    (attempt 0).strapRate ≠ 3 ∧ ({ attempt 0 with strapRate := 3 }).strapRate = 3 ∧
    (sending 0 0 .sending).line.queue = [] ∧ (sending 1 0 .idle).line.phase ≠ .sending ∧
    (sending 1 0 .breaking true).line.lastTry = true ∧ (sending 1 6 .breaking).line.lastTry = false ∧ 6 < 7 ∧ 7 ≤ 7 ∧
    (sending 1 0 .breaking).line.phase = .breaking ∧ (sending 1 6 .breaking).line.queue = ⟨.status, 6, none, 0⟩ :: [] ∧
    (sending 0 0 .breaking).line.queue = [] ∧ (sending 1 0 .sending).line.phase ≠ .breaking := by decide +kernel

/-- What is read back good, to the last character; a mismatch at the first and at the last; and one that is not whole. -/
theorem witness_AttemptEnds_readBack :
    let good := fun (n : Nat) (b : Byte) => echo[n]? = some (.heard (charOf b) (11 * n + 10))
    let sound := fun (c : Character) (b : Byte) => c.getLsbD 0 = false ∧ c.getLsbD 10 = true ∧
      ((List.range 9).filter fun i => c.getLsbD (1 + i)).length % 2 = 1 ∧ ∀ i < 8, c.getLsbD (1 + i) = b.getLsbD i
    echo.length = (attempt 0).line.wire.length ∧ (∀ x ∈ (attempt 0).line.wire.zipIdx, good x.2 x.1 ∧ sound (charOf x.1) x.1) ∧
    (attempt 0).line.wire[0]? = some 1 ∧ 0 < [ReadBack.nothing].length ∧ [ReadBack.nothing][0]? = some .nothing ∧
    (attempt 0).line.wire.length = 7 ∧ 6 < (echo.set 6 .nothing).length ∧ (echo.set 6 .nothing)[6]? = some .nothing ∧
    (echo.set 6 .nothing).take 6 = echo.take 6 ∧ (echo.take 6).length ≠ (attempt 0).line.wire.length := by decide +kernel

theorem witness_LineTimersAndStuckLine :
    let due := fun p : Part => p.updLine fun l => { l with statusDue := some 5000, dupDeadline := some 5000 }
    idle.line.statusDue = none ∧ (due up).line.statusDue = some 5000 ∧ (due up).started = true ∧
    (due up).line.silent = false ∧ (due up).line.statusWaiting = false ∧ (due up).line.queue.length < 8 ∧
    8 ≤ ((due up).updLine fun l => { l with queue := List.replicate 8 ⟨.release 0, 0, none, 0⟩ }).line.queue.length ∧
    (mute up).line.silent = true ∧ (due up).line.dupDeadline = some 5000 ∧ idle.line.dupDeadline = none ∧
    reached (due up).now 5000 = true ∧ ({ up with strapRate := 3 }).strapRate = 3 ∧ up.strapRate ≠ 3 := by decide +kernel

/-- A STATUS payload that can be taken: zone KILN, mode RUN, nothing else. -/
def plainStatus : List Byte := [1, 2] ++ List.replicate 23 0

theorem witness_WholeFramesReceived :
    let own := frame 1 0x51 plainStatus
    let peer := frame 4 0x51 plainStatus
    up.strapRate ≠ 3 ∧ up.line.phase = .idle ∧ up.line.receiver = .ready ∧ up.line.assembly = [] ∧ headerGood own = true ∧
    own.length = frameSize own ∧ up.line.silent = false ∧ 1 ∈ (claimed 0 .waiting 1 none).claims[0].waitList ∧
    3 ∈ (claimed 1 .claiming 3 none).claims[1].waitList ∧ 1 ∈ (claimed 2 .waiting 1 none).claims[2].waitList ∧
    (up.setRamp 1 (some (rampAt 0 false))).ramps[1] = some (rampAt 0 false) ∧
    checkGood own = true ∧ byteAt own 0 = up.strapStation.val + 1 ∧ checkGood (own.set 5 99) = false ∧
    headerGood (own.set 5 99) = true ∧ headerGood peer = true ∧ peer.length = frameSize peer ∧ checkGood peer = true ∧
    byteAt peer 0 = (3 : Fin 16).val + 1 ∧ statusTakeable ((peer.drop 4).take 25) = true ∧
    statusTakeable ((frame 4 0x51 (plainStatus.set 0 3)).drop 4 |>.take 25) = false ∧
    (heard up).peers[3].state = .live ∧ (heard up).peers[3].lastSeq = some 9 ∧ up.peers[3].state ≠ .live ∧
    (begun peer).line.assembly ++ (peer.drop 5 ++ [17]) = peer ++ [17] ∧ (begun peer).line.receiver = .ready ∧
    up.line.assembly ++ own = own ++ [] := by
  decide +kernel

theorem witness_UrgentFramesHandedOn :
    let good := fun l : List Byte => headerGood l && (l.length == frameSize l) && checkGood l
    good (frame 16 0x62 [2, 1]) = true ∧ byteAt (frame 16 0x62 [2, 1]) 5 < userCount 2 ∧ userCount 2 ≤ 2 ∧
    good (frame 16 0x62 [2, 2]) = true ∧ up.claims[2].claimant = none ∧ good (frame 16 0x63 [0]) = true ∧
    good (frame 16 0x74 [61, 255, 0]) = true ∧ good (frame 16 0x74 [61, 255, 1]) = true ∧
    good (frame 16 0x85 [0, 2]) = true ∧ up.shift.number < wordAt (frame 16 0x85 [0, 2]) 4 ∧ up.shift.number ≠ 0 ∧
    (up.openRecord 0 .start true false).shift.number = 0 ∧ (15 : Fin 16) ≠ up.strapStation ∧
    byteAt (frame 16 0x63 [0]) 0 = (15 : Fin 16).val + 1 ∧
    (let l := frame 16 0x63 [0]
     (begun l).line.assembly ++ (l.drop 5 ++ [17]) = l ++ [17] ∧
      up.line.assembly ++ l = l ++ []) := by decide +kernel

/-- Claims and STATUS frames at the boundaries of their rules: the own station has number 4. -/
theorem witness_UrgentFramesHandedOn_claims :
    let own := fun p : Part => { p with strapStation := 3 }
    let shows := fun at_ bits : Nat => (frame 3 0x51 (plainStatus.set at_ (byteOf bits)))
    let said := fun l : List Byte => (l.drop 4).take 25
    up.line.receiver = .ready ∧ (own (claimed 0 .claiming 0 none)).claims[0].state = .claiming ∧ (2 : Fin 16) < 3 ∧
    byteAt (frame 3 0x62 [0, 1]) 0 = (2 : Fin 16).val + 1 ∧
    (∀ x : Fin 16, (own (up.updRes 0 fun r => { r with claimant := some ⟨x, 9000, none⟩ })).claims[0].claimant =
      some ⟨x, 9000, none⟩) ∧
    (own (claimed 0 .held 0 none)).claims[0].state = .held ∧ up.started = true ∧ up.line.silent = false ∧
    up.line.queue.length < 8 ∧ (own (claimed 0 .held 0 none)).claims[0].user = some (0 : Fin 2).val ∧
    (own (claimed 1 .held 3 none)).claims[1].user = some (3 : Fin 4).val ∧
    (own (claimed 2 .held 1 none)).claims[2].user = some (1 : Fin 2).val ∧
    (headerGood (shows 3 7) && checkGood (shows 3 7) && statusTakeable (said (shows 3 7))) = true ∧
    (∀ k : Fin 3, statHeld (said (shows 3 7)) k = true ∧ statClaiming (said (shows 4 7)) k = true) ∧
    statLineTrip (said (shows 2 2)) = true ∧ statLineTrip (said (shows 2 0)) = false ∧
    byteAt ((plainStatus.set 2 2).set 21 61) 21 ≤ 61 ∧ 61 < byteAt ((plainStatus.set 2 2).set 21 62) 21 ∧
    statHeld (said (shows 3 4)) 0 = false ∧ (up.setRamp 1 (some (rampAt 30))).ramps[1] = some (rampAt 30) := by
  decide +kernel

theorem witness_DiscardedCharacters :
    ({ up with strapRate := 3 }).strapRate = 3 ∧ (sending 1 0 .sending).line.phase ≠ .idle ∧ up.strapRate ≠ 3 ∧
    up.line.phase = .idle ∧ (hearing .deaf).line.receiver = .deaf ∧ idle.line.receiver = .waiting ∧ (hearing .behind).line.receiver = .behind ∧
    ([17] : List Byte) ≠ [] ∧ up.line.receiver = .ready ∧ headerGood (up.line.assembly ++ [17]) = false ∧
    headerGood (up.line.assembly ++ [4, 0x85]) = true ∧ (up.line.assembly ++ [4, 0x85]).length < 3 ∧
    headerGood (up.line.assembly ++ [4, 0x85, 2]) = true ∧
    (up.line.assembly ++ [4, 0x85, 2]).length < frameSize (up.line.assembly ++ [4, 0x85, 2]) ∧
    (let bad := charOf 0x51 ^^^ 0x200
     bad.getLsbD 0 = false ∧ bad.getLsbD 10 = true ∧
       ((List.range 9).filter fun i => bad.getLsbD (1 + i)).length % 2 = 0 ∧ bad ≠ 0) ∧
    ((charOf 0x51).getLsbD 10 = true ∧ ((List.range 9).filter fun i => (charOf 0x51).getLsbD (1 + i)).length % 2 = 1) ∧
    (let wrong := (frame 4 0x85 [0, 1]).set 5 9
     up.line.assembly ++ (wrong ++ [0]) = wrong ++ [0] ∧ headerGood wrong = true ∧ wrong.length = frameSize wrong ∧
      checkGood wrong = false) ∧
    up.line.assembly ++ [17] ≠ [] ∧ up.line.assembly = [] := by decide +kernel

theorem witness_PeerAging :
    (3 : Fin 16) ≠ (heard up).strapStation ∧ (heard up).peers[3].state = .live ∧
    (heard up).peers[3].lastTime = some 1000 ∧ reached (heard up).now (later 1000 (4 * (heard up).cfg.period)) = true ∧
    reached (at_ 4999 (heard up)).now (later 1000 (4 * up.cfg.period)) = false ∧ (0 : Fin 16) = up.strapStation ∧
    up.peers[3].state ≠ .live := by
  decide +kernel

theorem witness_ResourceTimersMove :
    let p := claimed 1 .waiting 3 (some 5000)
    let taken' := { p.updRes 1 (fun r => { r with claimant := some ⟨2, 5000, none⟩ }) with strapStation := 3 }
    let listed := (up.updRes 1 fun r => { r with waitList := [3], reclaim := some 5000 })
    up.claims[1].state ≠ .waiting ∧ p.claims[1].state = .waiting ∧ p.claims[1].stagger = some 5000 ∧
    p.viewFree 1 = true ∧ taken'.viewFree 1 = false ∧ p.claims[1].user = some 3 ∧ p.line.queue.length < 8 ∧
    8 ≤ (p.updLine fun l => { l with queue := List.replicate 8 ⟨.status, 0, none, 0⟩ }).line.queue.length ∧
    up.claims[1].claimant = none ∧ up.claims[1].reclaim = none ∧ taken'.claims[1].claimant = some ⟨2, 5000, none⟩ ∧
    reached p.now 5000 = true ∧ reached taken'.now 5000 = true ∧
    listed.claims[1].reclaim = some 5000 ∧ listed.claims[1].state = .idle ∧ listed.claims[1].waitList = 3 :: [] ∧
    listed.viewFree 1 = true ∧ listed.line.silent = false := by decide +kernel

theorem witness_SettleDeadlineGrants :
    let lightOff := fun c : Option BurnerState => claimed 0 .claiming 1 (some 5000) (up.updBurner 1 fun x => { x with
      state := .lightWait, cont := c })
    let mix := claimed 2 .claiming 1 (some 5000) ((up.updBurner 1 fun x => { x with state := .firing }).setRamp 1
      (some (rampAt 0 false)))
    up.claims[0].state ≠ .claiming ∧ (claimed 1 .claiming 3 (some 5000)).claims[1].settle = some 5000 ∧
    reached up.now 5000 = true ∧ (claimed 1 .claiming 3 (some 5000)).claims[1].waitList.Pairwise (· < ·) ∧
    (claimed 1 .claiming 3 (some 5000)).claims[1].user = some (3 : Fin 4).val ∧
    (lightOff (some .loading)).burners[1].cont = some .loading ∧ (lightOff (some .igniting)).burners[1].cont ≠ some .loading ∧
    (lightOff none).claims[0].user = some (1 : Fin 2).val ∧
    (∀ i : Fin 62, (lightOff none).bindsBurner 1 i = true → (lightOff none).effective i = false) ∧
    mix.burners[1].state.fires = true ∧ mix.ramps[1] = some (rampAt 0 false) ∧ mix.claims[2].state = .claiming ∧
    mix.claims[2].user = some (1 : Fin 2).val ∧
    (∀ i : Fin 62, mix.bindsBurner 1 i = true → mix.effective i = false) ∧ mix.line.queue.length < 7 := by
  decide +kernel

theorem witness_OfferAndWithdrawDemand :
    let noZone : Part := { up with cfg := { up.cfg with zone := .none } }
    let offering : Part := { up with alloc := { up.alloc with offered := true, offer := 65535 } }
    idle.started = false ∧ noZone.cfg.zone = .none ∧ up.cfg.zone ≠ .none ∧ offering.alloc.offered = true ∧
    offering.alloc.offer = 65535 ∧ up.alloc.offered = false ∧ up.line.silent = false ∧ up.line.queue.length < 8 ∧
    (∀ x : Fin 16, x ≠ up.strapStation → up.offers x = false) ∧ (∀ x < up.strapStation, up.offers x = false) := by
  decide +kernel

theorem witness_HeatTargetsSumExactly :
    up.feeders[0].cfg.used = true ∧ up.feeders[0].cfg.maxRate = 65000 ∧ (up.setFuel 0 50000).fuel[0] = 50000 ∧
    idle.fuel[0] = 0 ∧ up.burners[1].cfg.used = true ∧ 3 ∈ up.feedersOf 1 ∧ up.feeders[4].mix = 0 ∧
    ((up.feedersOf 1).map fun f => up.feeders[f].mix).sum = 1000 := by decide +kernel

/-! ## Burners and feeders -/

theorem witness_PlantModeTable :
    idle.started = false ∧ up.started = true ∧ 4 ≤ 4 ∧ up.mode = .run ∧ PlantMode.stop ≠ up.mode ∧
    idle.mode = .stop ∧ (∀ b : Fin 2, up.burners[b].state = .off) ∧
    ({ up with mode := .coolDown }).mode = .coolDown := by decide +kernel

theorem witness_PlantModeTable_rows :
    Takes (.pinReset 0 0 true) up (taken (.pinReset 0 0 true) up) ∧ Takes .restartStation up (taken .restartStation up) ∧
    Takes .startStation spoilt.lightOwn (taken .startStation spoilt.lightOwn) ∧
    Takes (.setMode 1) up (taken (.setMode 1) up) :=
  ⟨fun _ => by simp only [taken, exec, execPinReset, State.act], fun _ => by simp only [taken, exec, execRestartStation, State.act],
    fun _ => by simp only [taken, exec, execStartStation, State.act], fun _ => by simp only [taken, exec, execSetMode, State.act]⟩

theorem witness_PlantModeTable_changes :
    (taken .startStation spoilt.lightOwn).started = true ∧ (taken (.setMode 1) up).mode ≠ up.mode := by decide +kernel

theorem witness_CoolDownStopsBurners :
    up.started = true ∧ PlantMode.coolDown ≠ up.mode ∧ up.modeAllowed .coolDown = true ∧ up.burners[0].cfg.used = true ∧
    [BurnerState.lightWait, .igniting, .held, .loading, .firing].map (fun s => (lit s).burners[0].state) =
      [.lightWait, .igniting, .held, .loading, .firing] ∧ up.burners[0].state = .off ∧ up.cfg.zone ≠ .none := by
  decide +kernel

theorem witness_StartBurnerWaitsForLightOff :
    up.burners[0].cfg.used = true ∧ (lit .tripped).burners[0].state ≠ .off ∧ up.burners[0].state = .off ∧
    (mute up).line.silent = true ∧ up.line.silent = false ∧ idle.fuel[0] = 0 ∧ up.mode = .run ∧
    up.field.image.permit[0] = ⟨true, true⟩ ∧
    (∀ i : Fin 62, (up.pointAttr i).cls = .trip → up.alarms.points[i].state = .normal) ∧
    (∀ f : Fin 6, up.fuel[up.feeders[f].cfg.fuel] ≠ 0) := by decide +kernel

theorem witness_BurnerCommandsTaken :
    (lit .held).burners[0].state = .held ∧ up.feeders[0].state ≠ .inLocal ∧ (0 : Fin 6) ∈ up.feedersOf 0 ∧
    (claimed 0 .held 0 none (lit .igniting)).claims[0].state = .held ∧ (lit .loading).burners[0].state = .loading ∧
    (lit .stopping).burners[0].state = .stopping ∧ (lit .tripped).tripStands 0 = false ∧
    ((lit .tripped).updPoint 0 fun x => { x with state := .cleared }).tripStands 0 = true ∧
    (lit .held fun x => { x with causePermit := true }).burners[0].causePermit = true ∧
    (lit .held).burners[0].causePermit = false ∧ (lit .held).burners[0].causeConflict = false ∧
    (lit .held fun x => { x with flame := true, heldStep := some .firing }).burners[0].heldStep = some .firing ∧
    (lit .held fun x => { x with flame := true, heldStep := some .loading }).burners[0].flame = true ∧
    (mute (lit .held)).line.silent = true := by decide +kernel

theorem witness_BurnerTimersMove :
    reached up.now 5000 = true ∧ reached up.now (later 2000 (up.burners[0].cfg.proving * 1000)) = true ∧
    (lit .lightWait fun x => { x with lightWait := some 5000 }).burners[0].lightWait = some 5000 ∧
    (lit .igniting fun x => { x with proving := some 2000 }).burners[0].proving = some 2000 ∧
    (lit .loading fun x => { x with loading := some 5000 }).burners[0].loading = some 5000 ∧
    (lit .held fun x => { x with heldUntil := some 5000 }).burners[0].heldUntil = some 5000 ∧
    (lit .firing).burners[0].lightWait = none ∧ (lit .firing).burners[0].state ≠ .igniting := by decide +kernel

theorem witness_BurnerFailuresTrip :
    up.started = true ∧ up.burners[0].cfg.used = true ∧ reached up.now 5000 = true ∧
    reached up.now (later 3000 (up.burners[0].cfg.flameFail * 1000)) = true ∧
    (lit .igniting fun x => { x with ignition := some 5000 }).burners[0].ignition = some 5000 ∧
    (lit .firing fun x => { x with absent := some 3000 }).burners[0].absent = some 3000 ∧
    (lit .firing).burners[0].flameFail = false ∧ up.alarms.points[11].state = .normal ∧
    up.alarms.points[10].eff = false ∧ up.alarms.points[10].shelvedUntil = none ∧ up.alarms.firstOut = none ∧
    (lit .off).burners[0].state.fires = false ∧ (lit .igniting).burners[0].ignition = none := by decide +kernel

theorem witness_ObjectNumbersChecked :
    idle.started = false ∧ up.started = true ∧ 2 ≤ 2 ∧ 4 ≤ 4 ∧ 62 ≤ 62 ∧ 16 ≤ 16 ∧ idle.burners[0].cfg.used = false ∧
    (up.updBurner 0 fun x => { x with cfg := { x.cfg with used := false } }).burners[0].cfg.used = false ∧
    (up.updFan 3 fun x => { x with cfg := { x.cfg with used := false } }).fans[3].cfg.used = false ∧
    up.alarms.ext[15].used = false ∧ up.alarms.ext[1].used = true ∧ up.alarms.ext[1].source = .field ∧
    (up.updGrate fun g => { g with cfg := { g.cfg with used := false } }).grate.cfg.used = false := by decide +kernel

theorem witness_MixChanges :
    let m : Vector Nat 6 := #v[0, 0, 0, 334, 333, 333]
    let firing := up.updBurner 1 fun x => { x with state := .firing }
    (∀ f : Fin 6, m[f] ≤ 1000) ∧ (∀ f : Fin 6, f ∉ up.feedersOf 1 → m[f] = 0) ∧
    ((up.feedersOf 1).map fun f => m[f]).sum = 1000 ∧ ((up.feedersOf 0).map fun f => m[f]).sum ≠ 1000 ∧
    firing.burners[1].state.fires = true ∧ firing.ramps[1] = none ∧ (mute firing).line.silent = true ∧
    up.burners[1].state.fires = false ∧ firing.line.silent = false ∧ m ≠ firing.presentMix 1 ∧
    ((up.feedersOf 1).map fun f => (firing.presentMix 1)[f]).sum = 1000 ∧
    (firing.setRamp 1 (some (rampAt 30))).ramps[1] = some (rampAt 30) := by decide +kernel

theorem witness_MixChanges_steps :
    (rampAt 0 false).ramping = false ∧ (rampAt 59).ramping = true ∧ 0 < (rampAt 59).time ∧
    (rampAt 59).elapsed + 1 = (rampAt 59).time ∧ (rampAt 58).elapsed + 1 < (rampAt 58).time ∧
    ((up.feedersOf 1).map fun f => (rampAt 0).old[f]).sum = 1000 ∧
    ((up.feedersOf 1).map fun f => (rampAt 0).target[f]).sum = 1000 ∧ up.ramps[1] = none ∧
    reached (at_ 6000).now (rampAt 59).nextStep = true ∧ reached (at_ 5999).now (rampAt 59).nextStep = false := by
  decide +kernel

theorem witness_ControlPeriodTotals :
    idle.started = false ∧ up.started = true ∧ ({ up with nextFeeder := 6000 }).nextFeeder % 1000 = 0 ∧
    ({ up with nextFeeder := 5800 }).nextFeeder % 1000 ≠ 0 ∧ up.feeders[0].cfg.used = true ∧ idle.feeders[0].cfg.used = false ∧
    (up.updFeeder 0 fun x => { x with state := .running, whole := true }).feeders[0].whole = true ∧
    up.feeders[0].whole = false ∧ up.field.image.running[0] = ⟨true, true⟩ ∧
    reached (at_ 6000 { up with nextFeeder := 6000 }).now 6000 = true ∧ reached up.now 6000 = false := by decide +kernel

/-- Burner 0 in a state with feeder 0 RUNNING at a setpoint, a control period due and a target heat for the burner. -/
def driven (s : BurnerState) (sp target : Nat) : Part :=
  { (lit s).updFeeder 0 fun x => { x with state := .running, setpoint := sp } with
    nextFeeder := 5000, alloc := { up.alloc with targetB := #v[target, 0] } }

theorem witness_ControlPeriodTotals_drives :
    let after := fun s sp h => taken .feederControlPeriod (driven s sp h)
    reached (driven .loading 0 0).now (driven .loading 0 0).nextFeeder = true ∧
    up.feeders[0].state ≠ .unused ∧ up.feeders[0].state ≠ .inLocal ∧ up.field.image.inLocal[0] = ⟨false, true⟩ ∧
    idle.field.image.inLocal[0] ≠ ⟨false, true⟩ ∧ (up.updFeeder 0 fun x => { x with state := .inLocal }).feeders[0].state = .inLocal ∧
    ((driven .igniting 0 0).burners[0].state = .igniting ∧ (driven .igniting 0 0).burners[0].cfg.feeder = 0) ∧
    (after .igniting 5000 0).feeders[0].state = .running ∧ (after .off 5000 0).feeders[0].state = .stopped ∧
    200 ≤ (after .firing 50000 0).field.output.speed[0] ∧ (after .firing 5000 0).field.output.speed[0] < 200 ∧
    (after .igniting 5000 0).feeders[0].measBad = false ∧
    (driven .stopping 5000 0).burners[0].state = .stopping ∧
    ((0 : Fin 6) ∈ (driven .stopping 5000 0).feedersOf 0 ∧ (after .stopping 5000 0).feeders[0].setpoint ≠ 0 ∧
      (after .stopping 5000 0).feeders[0].state ≠ .inLocal) ∧
    (∀ f ∈ (driven .stopping 0 0).feedersOf 0, (after .stopping 0 0).feeders[f].setpoint = 0) ∧
    0 * 9 ≤ (after .loading 0 0).alloc.deliveredB[0] * 10 ∧ (after .loading 0 1).alloc.deliveredB[0] * 10 < 1 * 9 := by
  decide +kernel

theorem witness_ConditionTimersPass :
    let held : Part := { up with alloc := { up.alloc with ceilState := .hold, holdDeadline := some 5000 } }
    (up.updFeeder 5 fun x => { x with devTimer := some ⟨0, false⟩ }).feeders[5].devTimer = some ⟨0, false⟩ ∧
    (up.updFeeder 5 fun x => { x with noFlow := some ⟨0, false⟩ }).feeders[5].noFlow = some ⟨0, false⟩ ∧
    up.feeders[5].devTimer = none ∧ (lit .firing fun x => { x with weak := some ⟨0, false⟩ }).burners[0].weak = some ⟨0, false⟩ ∧
    (up.updGrate fun g => { g with bedHigh := some ⟨0, false⟩ }).grate.bedHigh = some ⟨0, false⟩ ∧ up.mode = .run ∧
    up.alloc.ceilState ≠ .hold ∧ held.alloc.ceilState = .hold ∧ held.alloc.holdDeadline = some 5000 ∧
    held.cfg.zone ≠ .none ∧ held.cfg.airCeiling = true ∧ held.airKnown = false ∧ up.grate.cfg.used = true ∧
    reached held.now 5000 = true ∧ reached up.now (later 0 5000) = true ∧ reached (at_ 10000).now (later 0 10000) = true ∧
    reached (at_ 20000).now (later 0 20000) = true ∧ reached (at_ 19999).now (later 0 20000) = false := by decide +kernel

/-! ## Cooler, alarms, shift, scan -/

theorem witness_FanCommands :
    up.fans[0].cfg.used = true ∧ (blown .running).fans[0].state ≠ .stopped ∧ up.fans[0].state = .stopped ∧
    (mute up).line.silent = true ∧ up.line.silent = false ∧ (blown .startWait).fans[0].state = .startWait ∧
    (blown .tripped).fans[0].state = .tripped ∧ up.field.image.fanRun[0] = ⟨false, true⟩ ∧
    ({ goodImage with fanRun := .replicate 4 ⟨false, false⟩ }).fanRun[0] ≠ ⟨false, true⟩ := by decide +kernel

theorem witness_FanTimersTrip :
    (blown .starting fun x => { x with startUntil := some 5000 }).fans[0].startUntil = some 5000 ∧
    (blown .running fun x => { x with fbLoss := some 3000 }).fans[0].fbLoss = some 3000 ∧
    (blown .running fun x => { x with holdUntil := some 5000 }).fans[0].holdUntil = some 5000 ∧
    reached up.now 5000 = true ∧ reached up.now (later 3000 2000) = true ∧
    (alarmed 36 .clearedAcked).alarms.points[36].state = .clearedAcked ∧ (alarmed 36 .clearedAcked).alarms.points[36].eff = false ∧
    (∀ j : Fin 62, (alarmed 36 .clearedAcked).alarms.points[j].state ≠ .active) ∧
    up.fans[0].state ≠ .starting ∧ up.fans[0].holdUntil = none ∧ up.started = true ∧ up.alarms.points[37].state = .normal ∧
    up.alarms.points[36].eff = false ∧ up.alarms.points[37].shelvedUntil = none := by decide +kernel

theorem witness_GrateRows :
    (up.updGrate fun g => { g with state := .running, fbLoss := some 3000 }).grate.fbLoss = some 3000 ∧
    reached up.now (later 3000 2000) = true ∧ reached (at_ 4999).now (later 3000 2000) = false ∧
    up.grate.state = .stopped ∧ up.grate.cfg.used = true ∧ up.alarms.points[45].state = .normal ∧
    (alarmed 45 .clearedAcked).alarms.points[45].state = .clearedAcked ∧
    (∀ j : Fin 62, (alarmed 45 .clearedAcked).alarms.points[j].state ≠ .active) ∧
    up.alarms.points[45].eff = false ∧ up.burners[0].cfg.used = true ∧ 20000 < 20001 ∧
    (up.grate.cfg.low ≤ 4000 ∧ 4000 ≤ up.grate.cfg.high) ∧ 3999 < up.grate.cfg.low ∧
    (up.grate.cfg.low ≤ 7001 ∧ up.grate.cfg.high < 7001) := by decide +kernel

theorem witness_CoolingPeriodControls :
    idle.started = false ∧ up.started = true ∧ (blown .running).fans[0].state = .running ∧
    (blown .running).fans[0].cfg.minFlow ≤ (blown .running).fans[0].cfg.maxFlow ∧ up.field.image.flow[0].valid = true ∧
    up.fans[1].state ≠ .running ∧ idle.field.image.bed.valid = false ∧
    (up.updGrate fun g => { g with state := .running }).grate.state = .running ∧ up.field.image.bed.valid = true ∧
    up.grate.cfg.minSpeed ≤ up.grate.cfg.maxSpeed ∧ reached up.now ({ up with nextCool := 5000 }).nextCool = true := by
  decide +kernel

theorem witness_PointsAcknowledgedAndReset :
    (alarmed 0 .active).alarms.points[0].state = .active ∧ (alarmed 0 .cleared).alarms.points[0].state = .cleared ∧
    up.alarms.points[0].state ≠ .active ∧ (up.pointAttr 0).cls = .trip ∧ (up.pointAttr 46).cls = .trip ∧
    ((up.pointAttr 47).cls ≠ .trip ∧ (up.pointAttr 47).latching = true) ∧
    (alarmed 47 .clearedAcked).alarms.points[47].state = .clearedAcked ∧ (up.pointAttr 48).latching = false ∧
    (up.pointAttr 47).cls ≠ .trip := by decide +kernel

/-- A point of class WARNING, shelved until a time. -/
def shelved (i : Fin 62) (eff : Bool) : Part := alarmed i .normal fun x => { x with eff := eff, shelvedUntil := some 5000 }

theorem witness_ShelvingRows :
    up.host.window.isSome = true ∧ ready.started = false ∧ ready.host.window.isSome = true ∧ 62 ≤ 62 ∧
    (up.pointAttr 0).cls = .trip ∧ (∃ i : Fin 62, (up.pointAttr i).cls = .warning) ∧ 1 ≤ 480 ∧ 480 ≤ 480 ∧ 480 < 481 ∧
    up.alarms.points[12].shelvedUntil = none ∧ (shelved 12 false).alarms.points[12].shelvedUntil = some 5000 ∧
    (shelved 12 true).alarms.points[12].eff = true ∧ reached (shelved 12 true).now 5000 = true := by decide +kernel

theorem witness_ExternalConditionsMovePoints :
    (46 : Fin 62).val = 46 + (0 : Fin 16).val ∧ up.alarms.ext[0].used = true ∧ up.alarms.ext[0].source = .host ∧
    up.mode.armed up.alarms.ext[0].attr.mask = true ∧ up.alarms.points[46].eff = false ∧
    up.alarms.points[46].shelvedUntil = none ∧ up.alarms.points[46].state = .normal ∧ up.alarms.ext[0].attr.cls = .trip ∧
    up.burners[0].cfg.used = true ∧ up.alarms.ext[0].attr.binding = .station ∧ up.alarms.ext[0].attr.latching = true ∧
    (alarmed 46 .activeAcked fun x => { x with eff := true }).alarms.points[46].eff = true := by decide +kernel

theorem witness_TripSetFirstOutAndHorn :
    let filled := up.updAlarms fun a => { a with peerTrips := a.peerTrips.set 15 (some ⟨some 45, none⟩) }
    up.host.window.isSome = true ∧ 16 < 17 ∧ (15 : Fin 16) ≠ up.strapStation ∧ up.alarms.peerTrips[15] = none ∧
    filled.alarms.peerTrips[15].isSome = true ∧ filled.fresh 15 = none ∧
    (∀ y : Fin 16, y ≠ 15 → filled.alarms.peerTrips[y] = none) ∧ idle.started = false ∧ up.started = true ∧
    (up.pointAttr 0).cls = .trip ∧ (alarmed 0 .clearedAcked).alarms.points[0].state ≠ .normal ∧
    (∀ i : Fin 62, (up.pointAttr i).cls = .trip → up.alarms.points[i].state = .normal) := by decide +kernel

theorem witness_CloseShiftOpensNext :
    idle.started = false ∧ up.started = true ∧ 1 ≤ up.shift.number ∧ up.shift.number < 2 ∧ up.line.silent = false ∧
    up.line.queue.length < 8 ∧ up.shift.current.isSome = true := by decide +kernel

theorem witness_ShiftNoteWritten : idle.started = false ∧ up.started = true ∧ up.shift.current.isSome = true := by
  decide +kernel

theorem witness_ScanStateTable :
    (clocked (block 1)).length = 312 ∧ fieldBytes (clocked (block 1)) = block 1 ∧
    fieldBytes (clocked (block 0)) = block 0 ∧ fieldBytes (clocked ((block 1).set 5 1)) = (block 1).set 5 1 ∧
    (clocked (block 1))[8 * 38 + 7]?.isSome = true ∧ crc ((block 1).take 37) = BitVec.ofNat 16 (wordAt (block 1) 37) ∧
    ((block 1).getD 0 0).getLsbD 0 = true ∧ ¬ ((block 0).getD 0 0).getLsbD 0 = true ∧
    crc (((block 1).set 5 1).take 37) ≠ BitVec.ofNat 16 (wordAt ((block 1).set 5 1) 37) ∧ up.field.state = .good ∧
    idle.field.state = .failed ∧ idle.field.goodRun < 2 ∧ ({ up.field with state := .holding, badRun := 2 }).badRun < 3 ∧
    ({ up.field with state := .holding, badRun := 3 }).badRun = 3 ∧ ({ idle.field with goodRun := 2 }).goodRun = 2 ∧
    reached up.now ({ up.field with nextScan := 5000 }).nextScan = true := by
  decide +kernel

/-- What each block leaves in the image decides the hand-on of a scan: all valid, all BAD, and one with a wrong CRC. -/
theorem witness_ScanStateTable_handOn :
    let seen := fun l : List Byte => taken (.fieldScanComplete (clocked l)) (lit .firing)
    let good := (seen (scanned 20001)).field.image
    let bad := (seen (block 1)).field.image
    let held := (seen ((block 1).set 5 1)).field
    (good.pulses[0].valid = true ∧ bad.pulses[0].valid = false ∧ good.inLocal[0] = ⟨true, true⟩ ∧
      good.inLocal[1] = ⟨false, true⟩ ∧ bad.inLocal[0].valid = false) ∧
    (good.permit[0] = ⟨true, true⟩ ∧ bad.permit[0] ≠ ⟨true, true⟩) ∧
    (good.fanRun[0] = ⟨true, true⟩ ∧ good.flow[0].valid = true ∧ up.fans[0].cfg.minFlow ≤ good.flow[0].value ∧
      bad.flow[0].valid = false ∧ bad.fanRun[0] ≠ ⟨true, true⟩) ∧
    (held.state = .holding ∧ held.image.fanRun[0] ≠ ⟨true, true⟩ ∧ (seen (block 1)).field.state ≠ .holding) ∧
    (good.grateRun = ⟨true, true⟩ ∧ bad.grateRun ≠ ⟨true, true⟩) ∧
    (up.feeders[0].baseline = none ∧ (up.updFeeder 0 fun x => { x with baseline := some 65535 }).feeders[0].baseline = some 65535) ∧
    (blown .starting).fans[0].state = .starting ∧
    (blown .running fun x => { x with lastGood := some 9 }).fans[0].lastGood = some 9 ∧
    (blown .running).fans[0].holdSpent = false ∧ (blown .running).fans[0].heldFlow = none := by
  decide +kernel

theorem witness_ScanStateTable_local :
    let inLocal := fun s : BurnerState => (lit s).updFeeder 1 fun x => { x with state := .inLocal, setpoint := 100 }
    let q := taken (.fieldScanComplete (clocked (scanned 0))) (inLocal .firing)
    (inLocal .firing).wanted 1 = true ∧ (inLocal .off).wanted 1 = false ∧ q.burners[0].state = .firing ∧
    q.field.image.inLocal[1] = ⟨false, true⟩ ∧ up.feeders[1].cfg.used = true ∧ up.feeders[1].state = .stopped ∧
    (lit .lightWait).burners[0].state = .lightWait := by decide +kernel

/-! ## Invariants are met where something is at stake -/

theorem witness_StepsKeepCapacities : up.Fits ∧ up.windowKeyed where
  left :=
    ⟨by decide +kernel, by decide +kernel, by decide +kernel, by decide +kernel, by decide +kernel,
      fun r h => (by cases h; exact Nat.zero_le 8), fun _ h => (nomatch h), by decide +kernel, by decide +kernel,
      by decide +kernel⟩
  right := ⟨fun _ => rfl, fun h => (nomatch h)⟩

/-- Burner 0 firing, remote enables on: the plant in which the laws hold and a trip would break them. -/
def firing : Part := (lit .firing).updOutput fun o => { o with remote := .replicate 6 true }

theorem witness_StepsKeepTripLaw : firing.TripLaw where
  waiting :=
    ⟨by decide +kernel, by decide +kernel, by decide +kernel, by decide +kernel, fun _ h => (nomatch h),
      fun _ h => (nomatch h)⟩
  unused := by decide +kernel
  unstarted := fun h => nomatch h
  bound := by unfold Burner.out; decide +kernel

theorem witness_StepsKeepResourceLaw : firing.Lawful where
  users := by
    intro k
    have none : ∀ k : Fin 3, firing.claims[k].user = .none ∧ firing.claims[k].waitList = [] := by decide +kernel
    exact ⟨fun u h => (by rw [(none k).1] at h; cases h), fun u h => (by rw [(none k).2] at h; cases h)⟩
  lightOff := fun b h => absurd h (by revert b; decide +kernel)
  heavyStart := fun n h => absurd h (by revert n; decide +kernel)

theorem witness_StepsKeepOutputsInAgreement : firing.OutputsAgree where
  unstarted := fun h => nomatch h
  igniter := by decide +kernel
  feeder := fun f => ⟨by revert f; decide +kernel, by revert f; decide +kernel, by revert f; decide +kernel,
    fun _ => by revert f; decide +kernel⟩
  fan := fun n => ⟨by revert n; decide +kernel, fun h => absurd h (by revert n; decide +kernel),
    fun h => absurd h (by revert n; decide +kernel), fun _ _ => by revert n; decide +kernel⟩
  grate := ⟨by decide +kernel, fun h => absurd h (by decide +kernel), fun _ => by decide +kernel⟩
  horn := by decide +kernel

theorem witness_StepsKeepMixWhole : firing.MixWhole where
  time := by decide +kernel
  mix := fun _ => by decide +kernel
  ramp := by
    intro b r h
    have none : ∀ b : Fin 2, firing.ramps[b] = .none := by decide +kernel
    simp [none b] at h

/-- The step of each of these: the trip of R88. -/
theorem witness_StepsKeep_step : step ⟨firing, [.raiseExternal 0]⟩ = .next ⟨taken (.raiseExternal 0) firing, []⟩ :=
  by simp only [step, taken, exec, execRaiseExternal, State.act]

end Sys2Proof.Tests
end

section
/-! SUPPORT. Maximum heats and the splits of one evaluation (R63, R66 to R68). The shares of a whole, taken in object order,
telescope; so a split gives out exactly the part of the whole that its cumulative weight reaches. -/

namespace Sys2Proof.Machine

/-! ## Arithmetic words -/

theorem satAt_eq_min (m x : Nat) : satAt m x = min m x := by
  unfold satAt; split <;> omega

/-! ## Sums over lists of objects -/

theorem sumOver_eq_sum {α : Type*} (l : List α) (f : α → Nat) : sumOver l f = (l.map f).sum :=
  List.sum_eq_foldl.symm

theorem sumOver_congr {α : Type*} {l : List α} {f g : α → Nat} (h : ∀ x ∈ l, f x = g x) : sumOver l f = sumOver l g :=
  congrArg (·.foldl (· + ·) 0) (List.map_congr_left h)

theorem sumOver_append_singleton {α : Type*} (l : List α) (y : α) (f : α → Nat) :
    sumOver (l ++ [y]) f = sumOver l f + f y := by simp [sumOver]

theorem sumOver_burnerIds (f : Fin 2 → Nat) : sumOver burnerIds f = f 0 + f 1 := by
  simp [sumOver, List.finRange_succ]

/-- The objects before x, together with x, weigh no more than all. -/
theorem sumOver_filter_lt_add_le {α : Type*} [LinearOrder α] (f : α → Nat) {l : List α} {x : α} (hx : x ∈ l) :
    sumOver (l.filter (· < x)) f + f x ≤ sumOver l f := by
  have own : f x ≤ ((l.filter fun y => ¬ y < x).map f).sum :=
    List.single_le_sum (by simp) _ (List.mem_map_of_mem (by simpa using hx))
  have parts := List.sum_map_filter_add_sum_map_filter_not (· < x) f l
  rw [sumOver_eq_sum, sumOver_eq_sum]
  omega

/-! ## Shares of a whole -/

theorem share_self (h t lo : Nat) : share h t lo lo = 0 := Nat.sub_self _

theorem share_le_whole {t hi : Nat} (hhi : hi ≤ t) (h lo : Nat) : share h t lo hi ≤ h :=
  (Nat.sub_le _ _).trans (Nat.div_le_of_le_mul (by rw [Nat.mul_comm t]; exact Nat.mul_le_mul_left h hhi))

theorem share_le_weight {h t : Nat} (ht : 0 < t) (hht : h ≤ t) (lo m : Nat) : share h t lo (lo + m) ≤ m := by
  have step : h * (lo + m) ≤ h * lo + m * t := by
    rw [Nat.mul_add, Nat.mul_comm m]
    exact Nat.add_le_add_left (Nat.mul_le_mul_right m hht) _
  have bound : h * (lo + m) / t ≤ h * lo / t + m := by
    rw [← Nat.add_mul_div_right _ _ ht]
    exact Nat.div_le_div_right step
  unfold share; omega

/-- The share of x in a split over the objects l in their order: it begins at the cumulative weight of those before x. -/
def shareInOrder {α : Type*} [LinearOrder α] (h t : Nat) (l : List α) (m : α → Nat) (x : α) : Nat :=
  share h t (sumOver (l.filter (· < x)) m) (sumOver (l.filter (· < x)) m + m x)

theorem shareInOrder_of_weight_eq_zero {α : Type*} [LinearOrder α] (h t : Nat) (l : List α) {m : α → Nat} {x : α}
    (hx : m x = 0) : shareInOrder h t l m x = 0 := by
  rw [shareInOrder, hx]; exact share_self ..

/-- The shares telescope: each begins at the cumulative weight at which the one before it ends. -/
theorem sumOver_shareInOrder {α : Type*} [LinearOrder α] (h t : Nat) (m : α → Nat) {l : List α}
    (hl : l.Pairwise (· < ·)) : sumOver l (shareInOrder h t l m) = h * sumOver l m / t := by
  induction l using List.reverseRecOn with
  | nil => simp [sumOver]
  | append_singleton l y ih =>
    obtain ⟨hl, -, before⟩ := List.pairwise_append.mp hl
    have below : ∀ x ∈ l, x < y := fun x hx => before x hx y (List.mem_singleton_self y)
    have atOld : ∀ x ∈ l, shareInOrder h t (l ++ [y]) m x = shareInOrder h t l m x := fun x hx => by
      simp [shareInOrder, List.filter_append, (below x hx).le]
    have atNew : shareInOrder h t (l ++ [y]) m y = share h t (sumOver l m) (sumOver l m + m y) := by
      have : (l ++ [y]).filter (· < y) = l := by simpa [List.filter_append] using below
      rw [shareInOrder, this]
    have rising : h * sumOver l m / t ≤ h * (sumOver l m + m y) / t :=
      Nat.div_le_div_right (Nat.mul_le_mul_left h (Nat.le_add_right _ _))
    rw [sumOver_append_singleton, sumOver_append_singleton, sumOver_congr atOld, ih hl, atNew]
    exact Nat.add_sub_of_le rising

/-! ## The feeders of a burner -/

theorem Part.mem_feedersOf {p : Part} {b : Fin 2} {f : Fin 6} :
    f ∈ p.feedersOf b ↔ p.feeders[f].cfg.used = true ∧ p.feeders[f].cfg.burner = b := by
  simp [Part.feedersOf]

theorem Part.feedersOf_pairwise_lt (p : Part) (b : Fin 2) : (p.feedersOf b).Pairwise (· < ·) :=
  (List.sortedLT_finRange 6).pairwise.filter _

/-! ## Stages 3 and 4: capacity and station target (R63 to R66) -/

/-- C is B cut by saturation, and by the heat-up limit or the plant mode (R65). -/
theorem Part.stageCapacity_capacity_le_total (p : Part) (a : Alloc) :
    (p.stageCapacity a).capacity ≤ (p.stageCapacity a).total := by
  cases hm : p.mode <;> simp [Part.stageCapacity, hm, satAt_eq_min]

theorem Part.zoneCapacity_strapStation (p : Part) (own : Nat) : p.zoneCapacity own p.strapStation = own :=
  if_pos rfl

/-- The own station is one of those whose capacities R66 sums. -/
theorem Part.stageTarget_pOwn_le_sumS (p : Part) (a : Alloc) : (p.stageTarget a).pOwn ≤ (p.stageTarget a).sumS := by
  simpa [Part.stageTarget, p.zoneCapacity_strapStation] using
    sumOver_filter_lt_add_le (p.zoneCapacity a.capacity) (List.mem_finRange p.strapStation)

theorem Part.stageTarget_target (p : Part) (a : Alloc) :
    (p.stageTarget a).target =
      if (p.stageTarget a).sumS = 0 then 0
      else if (p.stageTarget a).sumS ≤ a.dEff then a.capacity
      else share a.dEff (p.stageTarget a).sumS (p.stageTarget a).pPrev (p.stageTarget a).pOwn := rfl

theorem Part.stageTarget_target_le (p : Part) (a : Alloc) :
    (p.stageTarget a).target ≤ a.capacity ∧ (p.stageTarget a).target ≤ a.dEff := by
  have cumulative : (p.stageTarget a).pOwn = (p.stageTarget a).pPrev + a.capacity := rfl
  have inSum := p.stageTarget_pOwn_le_sumS a
  rw [p.stageTarget_target]
  split
  case isTrue => omega
  case isFalse someCapacity =>
    split
    case isTrue => omega
    case isFalse scarce =>
      refine ⟨?_, share_le_whole inSum _ _⟩
      rw [cumulative]
      exact share_le_weight (by omega) (by omega) _ _

/-! ## The results of an evaluation -/

section
variable (p : Part)

theorem Part.evaluated_maxHeat (f : Fin 6) : p.evaluated.maxHeat[f] = p.maxHeat f :=
  Vector.getElem_ofFn _

theorem Part.evaluated_target_le :
    p.evaluated.target ≤ p.evaluated.capacity ∧ p.evaluated.target ≤ p.evaluated.dEff :=
  p.stageTarget_target_le _

theorem Part.evaluated_target_le_total : p.evaluated.target ≤ p.evaluated.total :=
  p.evaluated_target_le.1.trans (p.stageCapacity_capacity_le_total _)

theorem Part.evaluated_total : p.evaluated.total = sumOver burnerIds fun b => p.evaluated.capB[b] := rfl

theorem Part.evaluated_targetB (b : Fin 2) : p.evaluated.targetB[b] = p.evaluated.burnerTarget b :=
  Vector.getElem_ofFn _

theorem Part.evaluated_heatF (f : Fin 6) : p.evaluated.heatF[f] = p.heatTarget p.evaluated f :=
  Vector.getElem_ofFn _

end

/-! ## Maximum heat (R63) -/

theorem Part.evaluated_maxHeat_of_used {p : Part} {f : Fin 6} (used : p.feeders[f].cfg.used = true) :
    p.evaluated.maxHeat[f] = min 65535
      ((2 * (p.feeders[f].cfg.maxRate * p.fuel[p.feeders[f].cfg.fuel]) + 36000) / 72000) := by
  rw [p.evaluated_maxHeat, Part.maxHeat, if_pos used, satAt_eq_min, Part.cvOf, roundHalfUp]

/-! ## Stages 5 and 6: the splits (R67, R68) -/

theorem Alloc.burnerTarget_eq_shareInOrder (a : Alloc) :
    a.burnerTarget = shareInOrder a.target a.total burnerIds fun b => a.capB[b] := rfl

theorem Part.heatTarget_of_mem {p : Part} {b : Fin 2} {f : Fin 6} (used : p.burners[b].cfg.used = true)
    (hf : f ∈ p.feedersOf b) (a : Alloc) :
    p.heatTarget a f = shareInOrder a.targetB[b] 1000 (p.feedersOf b) (fun g => p.feeders[g].mix) f := by
  obtain ⟨feederUsed, rfl⟩ := Part.mem_feedersOf.mp hf
  exact if_pos (Bool.and_eq_true_iff.mpr ⟨feederUsed, used⟩)

/-- The split of R67 gives out the whole target: its total is the last burner's cumulative capacity, and without any
capacity the target is 0. -/
theorem Part.sumOver_evaluated_targetB (p : Part) :
    (sumOver burnerIds fun b => p.evaluated.targetB[b]) = p.evaluated.target := by
  rw [sumOver_congr fun b _ => p.evaluated_targetB b, Alloc.burnerTarget_eq_shareInOrder,
    sumOver_shareInOrder _ _ _ (List.sortedLT_finRange 2).pairwise, ← p.evaluated_total]
  rcases Nat.eq_zero_or_pos p.evaluated.total with noCapacity | someCapacity
  · have := p.evaluated_target_le_total
    rw [noCapacity, Nat.div_zero]; omega
  · exact Nat.mul_div_cancel _ someCapacity

theorem Part.sumOver_evaluated_heatF {p : Part} {b : Fin 2} (used : p.burners[b].cfg.used = true) :
    (sumOver (p.feedersOf b) fun f => p.evaluated.heatF[f]) =
      p.evaluated.targetB[b] * (sumOver (p.feedersOf b) fun f => p.feeders[f].mix) / 1000 := by
  rw [sumOver_congr fun f hf => (p.evaluated_heatF f).trans (Part.heatTarget_of_mem used hf _)]
  exact sumOver_shareInOrder _ _ _ (p.feedersOf_pairwise_lt b)

/-! ## The obligation -/

/-- Settles O33, by telescoping the shares of R67 and R68. -/
theorem heatTargetsSumExactly : Obligations.HeatTargetsSumExactly := by
  refine ⟨fun p f used => ?_, ?_⟩
  · rw [Part.evaluated_maxHeat_of_used used]
    exact ⟨rfl, fun unset => by rw [unset, Nat.mul_zero]; rfl, fun fastest richest => by rw [fastest, richest]; rfl⟩
  · rintro p _ rfl
    obtain ⟨withinCapacity, withinDemand⟩ := p.evaluated_target_le
    have burners := p.sumOver_evaluated_targetB
    rw [sumOver_burnerIds] at burners
    refine ⟨withinCapacity, withinDemand, burners, fun b used => ⟨?_, fun whole => ?_⟩⟩
    · rintro f hf _ rfl
      rw [p.evaluated_heatF, Part.heatTarget_of_mem used hf, ← sumOver_eq_sum]
      exact ⟨rfl, fun idle => shareInOrder_of_weight_eq_zero _ _ _ idle⟩
    · rw [← sumOver_eq_sum] at whole ⊢
      rw [Part.sumOver_evaluated_heatF used, whole]
      exact Nat.mul_div_cancel _ (by decide)

end Sys2Proof.Machine
end

section
/-! SUPPORT. The plant mode (R74): the shared operations keep it, so that every row but four does; three of
those set it to STOP, and SET MODE follows its table. -/

namespace Sys2Proof.Machine

-- One proof at a time: the whole package as one text must not start a thread for each of them.
set_option Elab.async false

open Sys2Proof.Config

/-! ## Operations that keep the mode -/

/-- `hT` is found by writing out the named sets of blocks. -/
theorem ChangesOnly.mode_eq {T : Set Block} {p q : Part} (h : ChangesOnly T p q)
    (hT : Block.mode ∉ T := by
      simp [sendBlocks, leaveBlocks, mixBlocks, burnerBlocks, fanBlocks, pointBlocks, tripBlocks, settleBlocks,
        settleAllBlocks, userBlocks, silentBlocks, receivedBlocks, scanBlocks]) : q.mode = p.mode :=
  h.same .mode hT

/-- A change that leaves every block of the Host Port alone leaves the Host Port. -/
theorem ChangesOnly.host_eq {T : Set Block} {p q : Part} (h : ChangesOnly T p q) (buffer : Block.buffer ∉ T)
    (response : Block.response ∉ T) (enables : Block.enables ∉ T) (engineering : Block.engineering ∉ T)
    (dataOut : Block.dataOut ∉ T) : q.host = p.host := by
  obtain ⟨b, o⟩ := h.same _ buffer
  obtain ⟨run, readPos, ready, inProgress, overrun⟩ := h.same _ response
  obtain ⟨window, lapsed, eng⟩ := h.same _ engineering
  have e := h.same _ enables
  have d := h.same _ dataOut
  cases hp : p.host
  cases hq : q.host
  simp_all [Block.Same]

@[simp] theorem Part.ite_mode {c : Prop} [Decidable c] (p q : Part) :
    (if c then p else q).mode = if c then p.mode else q.mode := apply_ite ..

section
variable (p : Part)

@[simp] theorem Part.offer_mode (k : EventKind) (subject value : Nat) (mark : Bool) (station : Nat) (o : Option Nat) :
    (p.offer k subject value mark station o).mode = p.mode := rfl
@[simp] theorem Part.queueFrame_mode (body : FrameBody) : (p.queueFrame body).mode = p.mode :=
  (p.queueFrame_frame body).mode_eq
@[simp] theorem Part.reply_mode (cmd : Nat) (code : Code) (data : List Byte) :
    (p.reply cmd code data).mode = p.mode := rfl
@[simp] theorem Part.engineeringDone_mode (cmd : Nat) : (p.engineeringDone cmd).mode = p.mode := rfl

@[simp] theorem Part.request_mode (k : Fin 3) (u : Nat) : (p.request k u).mode = p.mode :=
  (p.request_frame k u).mode_eq
@[simp] theorem Part.enterClaiming_mode (k : Fin 3) : (p.enterClaiming k).mode = p.mode :=
  (p.enterClaiming_frame k).mode_eq
@[simp] theorem Part.endStagger_mode (k : Fin 3) : (p.endStagger k).mode = p.mode := by simp [Part.endStagger]
@[simp] theorem Part.claimNotice_mode (tag : Nat) (sent : Bool) : (p.claimNotice tag sent).mode = p.mode :=
  (p.claimNotice_frame tag sent).mode_eq
@[simp] theorem Part.refreshMarks_mode : p.refreshMarks.mode = p.mode := p.refreshMarks_frame.mode_eq
@[simp] theorem Part.grant_mode (k : Fin 3) : (p.grant k).mode = p.mode := (p.grant_frame k).mode_eq

@[simp] theorem Part.burnerTo_mode (b : Fin 2) (st : BurnerState) (fix : Burner → Burner) (mark : Bool) :
    (p.burnerTo b st fix mark).mode = p.mode := (p.burnerTo_frame b st fix mark).mode_eq
@[simp] theorem Part.enterOff_mode (b : Fin 2) (mark : Bool) : (p.enterOff b mark).mode = p.mode :=
  p.burnerTo_mode ..
@[simp] theorem Part.enterLightWait_mode (b : Fin 2) (cont : BurnerState) :
    (p.enterLightWait b cont).mode = p.mode := (p.enterLightWait_frame b cont).mode_eq
@[simp] theorem Part.enterLoading_mode (b : Fin 2) : (p.enterLoading b).mode = p.mode := p.burnerTo_mode ..
@[simp] theorem Part.enterFiring_mode (b : Fin 2) : (p.enterFiring b).mode = p.mode := p.burnerTo_mode ..
@[simp] theorem Part.enterStopping_mode (b : Fin 2) : (p.enterStopping b).mode = p.mode := p.burnerTo_mode ..
@[simp] theorem Part.resume_mode (b : Fin 2) : (p.resume b).mode = p.mode := (p.resume_frame b).mode_eq
@[simp] theorem Part.coolBurner_mode (b : Fin 2) : (p.coolBurner b).mode = p.mode := (p.coolBurner_frame b).mode_eq
@[simp] theorem Part.failLightOff_mode (b : Fin 2) : (p.failLightOff b).mode = p.mode :=
  (p.failLightOff_frame b).mode_eq
@[simp] theorem Part.failFlame_mode (b : Fin 2) : (p.failFlame b).mode = p.mode := (p.failFlame_frame b).mode_eq

@[simp] theorem Part.setFuel_mode (i : Fin 8) (cv : Nat) : (p.setFuel i cv).mode = p.mode := rfl
@[simp] theorem Part.setMix_mode (b : Fin 2) (m : Vector Nat 6) : (p.setMix b m).mode = p.mode :=
  (p.setMix_frame b m).mode_eq
@[simp] theorem Part.rampStep_mode (b : Fin 2) (r : MixRamp) : (p.rampStep b r).mode = p.mode :=
  (p.rampStep_frame b r).mode_eq
@[simp] theorem Part.writeFeeders_mode : p.writeFeeders.mode = p.mode :=
  (ChangesOnly.forAll Part.writeFeeder_frame _ p).mode_eq
@[simp] theorem Part.controlPeriod_mode (t : Time) : (p.controlPeriod t).mode = p.mode :=
  (p.controlPeriod_frame t).mode_eq

@[simp] theorem Part.evaluate_mode : p.evaluate.mode = p.mode := p.evaluate_frame.mode_eq
@[simp] theorem Part.settle_mode : p.settle.mode = p.mode := p.settle_frame.mode_eq
@[simp] theorem Part.settleAll_mode : p.settleAll.mode = p.mode := p.settleAll_frame.mode_eq
@[simp] theorem Part.setOffer_mode (flag : Bool) (value : Nat) : (p.setOffer flag value).mode = p.mode := by
  simp [Part.setOffer]

@[simp] theorem Part.fanTo_mode (n : Fin 4) (st : FanState) : (p.fanTo n st).mode = p.mode :=
  (p.fanTo_frame n st).mode_eq
@[simp] theorem Part.failStart_mode (n : Fin 4) : (p.failStart n).mode = p.mode := (p.failStart_frame n).mode_eq
@[simp] theorem Part.loseFan_mode (n : Fin 4) : (p.loseFan n).mode = p.mode := (p.loseFan_frame n).mode_eq
@[simp] theorem Part.configureFan_mode (n : Fin 4) (c : FanCfg) : (p.configureFan n c).mode = p.mode := by
  simp [Part.configureFan]
@[simp] theorem Part.grateTo_mode (st : GrateState) : (p.grateTo st).mode = p.mode := (p.grateTo_frame st).mode_eq
@[simp] theorem Part.faultGrate_mode : p.faultGrate.mode = p.mode := p.faultGrate_frame.mode_eq
@[simp] theorem Part.configureGrate_mode (c : GrateCfg) : (p.configureGrate c).mode = p.mode := by
  simp [Part.configureGrate]
@[simp] theorem Part.coolingPeriod_mode (t : Time) : (p.coolingPeriod t).mode = p.mode :=
  (p.coolingPeriod_frame t).mode_eq

@[simp] theorem Part.setHorn_mode (on : Bool) : (p.setHorn on).mode = p.mode := rfl
@[simp] theorem Part.hornCheck_mode : p.hornCheck.mode = p.mode := p.hornCheck_frame.mode_eq
@[simp] theorem Part.keepHorn_mode (i : Fin 62) : (p.keepHorn i).mode = p.mode := (p.keepHorn_frame i).mode_eq
@[simp] theorem Part.keepAborted_mode (before : Vector Fan 4) : (p.keepAborted before).mode = p.mode :=
  (p.keepAborted_frame before).mode_eq
@[simp] theorem Part.ackPoint_mode (i : Fin 62) : (p.ackPoint i).mode = p.mode := (p.ackPoint_frame i).mode_eq
@[simp] theorem Part.resetPoint_mode (cmd : Nat) (i : Fin 62) (right : Bool) :
    (p.resetPoint cmd i right).mode = p.mode := by simp [Part.resetPoint, Part.putPoint]
@[simp] theorem Part.endShelving_mode (i : Fin 62) : (p.endShelving i).mode = p.mode :=
  (p.endShelving_frame i).mode_eq
@[simp] theorem Part.setExt_mode (n : Fin 16) (x : Ext) : (p.setExt n x).mode = p.mode := rfl
@[simp] theorem Part.removePeerTrip_mode (q : Fin 16) : (p.removePeerTrip q).mode = p.mode := rfl

@[simp] theorem Part.changeShift_mode (m : Nat) (o : OpenOrigin) (station : Nat) :
    (p.changeShift m o station).mode = p.mode := (p.changeShift_frame m o station).mode_eq

@[simp] theorem Part.losePeer_mode (q : Fin 16) : (p.losePeer q).mode = p.mode := (p.losePeer_frame q).mode_eq
@[simp] theorem Part.ageNow_mode (q : Fin 16) : (p.ageNow q).mode = p.mode := by simp [Part.ageNow]
@[simp] theorem Part.discardPartial_mode (r : Receiver) : (p.discardPartial r).mode = p.mode := rfl
@[simp] theorem Part.lineIdled_mode (chars : List Byte) : (p.lineIdled chars).mode = p.mode :=
  (p.lineIdled_frame chars).mode_eq
@[simp] theorem Part.takeChars_mode (chars : List Byte) : (p.takeChars chars).mode = p.mode :=
  (p.takeChars_frame chars).mode_eq
@[simp] theorem Part.beginAttempt_mode : p.beginAttempt.mode = p.mode := by
  unfold Part.beginAttempt
  split <;> rfl
@[simp] theorem Part.sentWhole_mode (h : TxFrame) : (p.sentWhole h).mode = p.mode := by simp [Part.sentWhole]
@[simp] theorem Part.transmitFailure_mode : p.transmitFailure.mode = p.mode := rfl
@[simp] theorem Part.failAttempt_mode (h : TxFrame) (t : List TxFrame) : (p.failAttempt h t).mode = p.mode := by
  simp [Part.failAttempt]
@[simp] theorem Part.endBreak_mode : p.endBreak.mode = p.mode := rfl

@[simp] theorem Part.startScan_mode (t : Time) : (p.startScan t).mode = p.mode := rfl
@[simp] theorem Part.completeScan_mode (l : List Byte) : (p.completeScan l).mode = p.mode :=
  (p.completeScan_frame l).mode_eq

end

/-! ## Checks and folds around an operation that keeps the mode -/

@[simp] theorem Part.forAll_mode {α : Type} {f : α → Part → Part} (hf : ∀ a q, (f a q).mode = q.mode) (l : List α)
    (p : Part) : (p.forAll l f).mode = p.mode := by
  induction l generalizing p with
  | nil => rfl
  | cons a l ih => exact (ih (f a p)).trans (hf a p)

section
variable {f : Part → Part} (hf : ∀ q, (f q).mode = q.mode) (p : Part)
include hf

@[simp] theorem Part.whenDue_mode (due : Option Time) : (p.whenDue due f).mode = p.mode := by
  unfold Part.whenDue
  split <;> simp [hf]

@[simp] theorem Part.engineering_mode (cmd : Nat) : (p.engineering cmd f).mode = p.mode := by
  simp [Part.engineering, hf]

@[simp] theorem Part.grateCommand_mode (cmd : Nat) : (p.grateCommand cmd f).mode = p.mode := by
  simp [Part.grateCommand, hf]

end

@[simp] theorem Part.burnerCommand_mode {f : Fin 2 → Part → Part} (hf : ∀ b q, (f b q).mode = q.mode) (cmd n : Nat)
    (p : Part) : (p.burnerCommand cmd n f).mode = p.mode := by
  cases h : finOf 2 n <;> simp [Part.burnerCommand, h, hf]

@[simp] theorem Part.fanCommand_mode {f : Fin 4 → Part → Part} (hf : ∀ n q, (f n q).mode = q.mode) (cmd k : Nat)
    (p : Part) : (p.fanCommand cmd k f).mode = p.mode := by
  cases h : finOf 4 k <;> simp [Part.fanCommand, h, hf]

@[simp] theorem Part.pointCommand_mode {f : Fin 62 → Part → Part} (hf : ∀ i q, (f i q).mode = q.mode) (cmd n : Nat)
    (p : Part) : (p.pointCommand cmd n f).mode = p.mode := by
  cases h : finOf 62 n <;> simp [Part.pointCommand, h, hf]

@[simp] theorem Part.hostCondition_mode (cmd n : Nat) (on : Bool) (p : Part) :
    (p.hostCondition cmd n on).mode = p.mode := by
  cases h : finOf 16 n <;> simp [Part.hostCondition, h]

@[simp] theorem Part.offerCommand_mode (cmd : Nat) (flag : Bool) (value : Nat) (p : Part) :
    (p.offerCommand cmd flag value).mode = p.mode := by
  simp [Part.offerCommand]

/-! ## Rows that keep the mode -/

theorem ChangesOnly.of_act {T : Set Block} {f : Part → Part} {s s' : State} (h : s.act f = .next s')
    (hf : ∀ p, ChangesOnly T p (f p)) : ChangesOnly T s.part s'.part := by
  cases h
  exact hf s.part

theorem mode_eq_of_act {f : Part → Part} {s s' : State} (h : s.act f = .next s')
    (hf : ∀ p, (f p).mode = p.mode) : s'.part.mode = s.part.mode := by
  cases h
  exact hf s.part

/-- A row keeps the plant mode, or is SET MODE, START STATION, RESTART STATION or PIN_RESET (R74). -/
theorem exec_keeps_or_sets_mode (c : Instr) :
    (∀ s s', exec c s = .next s' → s'.part.mode = s.part.mode) ∨
      (∃ m, c = .setMode m) ∨ c = .startStation ∨ c = .restartStation ∨
        ∃ straps rate eng, c = .pinReset straps rate eng := by
  cases c
  case setMode m => exact .inr (.inl ⟨m, rfl⟩)
  case startStation => exact .inr (.inr (.inl rfl))
  case restartStation => exact .inr (.inr (.inr (.inl rfl)))
  case pinReset straps rate eng => exact .inr (.inr (.inr (.inr ⟨straps, rate, eng, rfl⟩)))
  all_goals
    refine .inl fun s s' h => ?_
    dsimp only [exec] at h
  -- The locations of the host port, and reads without an operand.
  case commandByteWrite | responseByteRead | interruptEnablesWrite | eventWindowRead | eventWindowWrite | engNegated
    | readStation | readLineStatus | readPeerChanges | readResources | readAllocation | readFuelTable | readCooler
    | readFirstOut | readSummary | readPointStates | readField =>
    exact mode_eq_of_act h fun _ => rfl
  case submit =>
    refine mode_eq_of_act h fun p => ?_
    split
    · rfl
    · dsimp only
      split <;> rfl
  -- Rows that look their operands up: reads of one object, and the commands of an UNSTARTED station.
  case readPeerEntry | readBurner | readFeeder | readPoint | readShiftRecord | configureStation | configureBurner
    | configureFuel | configureFeeder | configureFan | configureGrate | configureExternalPoint =>
    refine mode_eq_of_act h fun p => ?_
    repeat' split
    all_goals simp
  -- Commands of a STARTED station.
  case offerDemand | withdrawDemand | startBurner | resumeBurner | resetTripBurner | resetTripPoint | setMix | startFan
    | resetFan | startGrate | stopGrate | setBedPressure | acknowledge | acknowledgeAll | resetAlarm | raiseExternal
    | clearExternal | resetFirstOut | clearSummary | silenceHorn | closeShift | writeShiftNote =>
    exact mode_eq_of_act h fun p => by simp
  case stopBurner =>
    refine mode_eq_of_act h (Part.burnerCommand_mode (fun b p => ?_) _ _)
    split <;> simp
  case stopFan =>
    refine mode_eq_of_act h (Part.fanCommand_mode (fun n p => ?_) _ _)
    split <;> simp
  -- The engineering window and its commands.
  case openEngineering | closeEngineering | shelve | unshelve => exact mode_eq_of_act h fun p => by simp
  case writeFuel | writePulseWeight | discardPeerTrip =>
    refine mode_eq_of_act h (Part.engineering_mode (fun p => ?_) · _)
    split <;> simp
  case engineeringDeadline =>
    exact (ChangesOnly.of_act h fun p => Part.whenDue_frame _ _ p fun q => q.updHost_frame _ {.engineering}).mode_eq
  -- The line.
  case accessGapReached =>
    refine mode_eq_of_act h fun p => ?_
    dsimp only
    split <;> simp
  case frameSentWhole | readBackMismatch | breakEnded =>
    refine mode_eq_of_act h fun p => ?_
    split <;> simp
  case frameReceived | badHeaderDiscard | partialFrameDiscard | interCharacterGap | lineStuckSet | lineStuckCleared =>
    exact mode_eq_of_act h fun p => by simp
  -- Timers and periods.
  case statusPeriodExpiry | duplicateDeadlineExpiry | peerAgingExpiry | staggerEnd | settleDeadline | claimantExpiry
    | reclaimDelayEnd | airHoldExpiry | feederControlPeriod | deviationTime | noFlowTime | lightWaitExpiry | flameProven
    | ignitionDeadline | loadingDeadline | flameFailTime | flameWeakTime | heldDeadline | fanStartDeadline
    | fanFeedbackLoss | coolingPeriod | grateFeedbackLoss | bedPressureHighTime | shelvingExpiry =>
    exact mode_eq_of_act h fun p => by simp
  case mixRampStep =>
    refine mode_eq_of_act h fun p => ?_
    split <;> simp
  case heldFlowExpiry n =>
    exact (ChangesOnly.of_act h fun p => Part.whenDue_frame _ _ p (Part.updFan_frame n _)).mode_eq
  -- The field scan.
  case fieldScanStart =>
    exact (ChangesOnly.of_act h fun p => Part.whenDue_frame _ _ p (Part.startScan_frame _)).mode_eq
  case fieldScanComplete => exact mode_eq_of_act h fun p => by simp

/-! ## The rows that set it to STOP -/

@[simp] theorem Part.blocksInitial_mode (p : Part) : p.blocksInitial.mode = .stop := rfl

@[simp] theorem Part.start_mode (p : Part) : p.start.mode = .stop := by simp [Part.start]

@[simp] theorem Part.restart_mode (p : Part) : p.restart.mode = .stop := by simp [Part.restart]

/-- A row leaves one part. -/
theorem Takes.unique {c : Instr} {p q r : Part} (hq : Takes c p q) (hr : Takes c p r) : q = r := by
  have same := (hq []).symm.trans (hr [])
  simp only [Host.Outcome.next.injEq, State.mk.injEq, and_true] at same
  exact same

theorem takes_pinReset (straps rate : Nat) (eng : Bool) (p : Part) :
    Takes (.pinReset straps rate eng) p (.powerUp (Fin.ofNat 16 straps) (Fin.ofNat 4 rate) eng) := fun _ => rfl

theorem takes_restartStation {p : Part} (started : p.started = true) :
    Takes .restartStation p (p.restart.reply 0x12 .done) := fun _ => by
  simp only [exec, execRestartStation, State.act, if_pos started]

/-- A START STATION taken while UNSTARTED is refused, and the part stays UNSTARTED, or starts the station. -/
theorem Takes.startStation_cases {p q : Part} (unstarted : p.started = false) (h : Takes .startStation p q) :
    q.started = false ∨ q = p.start.reply 0x11 .done := by
  have row := h []
  simp only [exec, execStartStation, State.act, unstarted, Bool.false_eq_true, if_false, Host.Outcome.next.injEq,
    State.mk.injEq, and_true] at row
  subst row
  split
  · exact .inl unstarted
  · split
    · exact .inl unstarted
    · exact .inr rfl

/-! ## SET MODE (R74, R75) -/

theorem PlantMode.ofCode_code (m : PlantMode) : PlantMode.ofCode m.code = some m := by cases m <;> rfl

theorem PlantMode.ofCode_of_ge {n : Nat} (h : 4 ≤ n) : PlantMode.ofCode n = none := by
  match n, h with
  | _ + 4, _ => rfl

theorem Part.burnersOut_iff (p : Part) :
    p.burnersOut = true ↔ ∀ b : Fin 2, p.burners[b].cfg.used = true → p.burners[b].out := by
  simp [Part.burnersOut, Burner.out, burnerIds, or_assoc, imp_iff_not_or]

/-- The table of R74. -/
theorem Part.modeAllowed_iff (p : Part) (m : PlantMode) :
    p.modeAllowed m = true ↔
      (p.mode = .stop ∧ m = .heatUp) ∨ (p.mode = .heatUp ∧ (m = .run ∨ m = .coolDown)) ∨
        (p.mode = .run ∧ (m = .heatUp ∨ m = .coolDown)) ∨ (p.mode = .coolDown ∧ m = .heatUp) ∨
        (p.mode = .coolDown ∧ m = .stop ∧ ∀ b : Fin 2, p.burners[b].cfg.used = true → p.burners[b].out) := by
  rw [← p.burnersOut_iff]
  cases old : p.mode <;> cases m <;> simp [Part.modeAllowed, old]

theorem Part.ne_mode_of_modeAllowed {p : Part} {m : PlantMode} (h : p.modeAllowed m = true) : m ≠ p.mode := by
  rintro rfl
  cases old : p.mode <;> simp [Part.modeAllowed, old] at h

theorem Part.answer_host (cmd : Nat) (code : Code) (data : List Byte) (p : Part) :
    (p.answer cmd code data).host = p.host.answered cmd code data := rfl

theorem Part.answer_mode (cmd : Nat) (code : Code) (data : List Byte) (p : Part) :
    (p.answer cmd code data).mode = p.mode := rfl

theorem Part.changeMode_mode (p : Part) (m : PlantMode) : (p.changeMode m).mode = m := by
  simp [Part.changeMode]

theorem Part.changeMode_host (p : Part) (m : PlantMode) : (p.changeMode m).host = p.host := by
  apply (p.changeMode_frame m).host_eq <;>
    simp [sendBlocks, leaveBlocks, mixBlocks, burnerBlocks, pointBlocks, tripBlocks, settleBlocks, settleAllBlocks]

theorem takes_setMode_of_unstarted {p : Part} (unstarted : p.started = false) (n : Nat) :
    Takes (.setMode n) p (p.answer 0x28 .wrongLifecycle []) := fun _ => by
  simp only [exec, execSetMode, State.act, unstarted]
  rfl

theorem takes_setMode_of_ge {p : Part} (started : p.started = true) {n : Nat} (h : 4 ≤ n) :
    Takes (.setMode n) p (p.answer 0x28 .badOperand []) := fun _ => by
  simp only [exec, execSetMode, State.act, started, PlantMode.ofCode_of_ge h]
  rfl

/-- SET MODE of a mode, while STARTED: the present one is answered DONE, one that the table allows is entered. -/
theorem takes_setMode {p : Part} (started : p.started = true) (m : PlantMode) :
    Takes (.setMode m.code) p (if m = p.mode then p.answer 0x28 .done [] else
      if p.modeAllowed m then (p.changeMode m).answer 0x28 .done [] else p.answer 0x28 .wrongState []) := fun _ => by
  simp only [exec, execSetMode, State.act, started, PlantMode.ofCode_code]
  rfl

/-! ## The obligation -/

/-- Settles O34: of all rows only four write the mode, three of them STOP; SET MODE follows the table of R74. -/
theorem plantModeTable : Obligations.PlantModeTable := by
  refine ⟨⟨?_, ?_, ?_, ?_⟩, fun p => ⟨?_, ?_, ?_⟩⟩
  · intro p q straps rate eng h
    rw [h.unique (takes_pinReset straps rate eng p)]
    rfl
  · intro p q started h
    rw [h.unique (takes_restartStation started), Part.reply_mode, Part.restart_mode]
  · intro p q unstarted h started
    rcases h.startStation_cases unstarted with refused | rfl
    · exact absurd started (by simp [refused])
    · rw [Part.reply_mode, Part.start_mode]
  · intro c p q h changed
    rcases exec_keeps_or_sets_mode c with kept | setting
    · exact absurd (kept _ _ (h [])) changed
    · exact setting
  · exact takes_setMode_of_unstarted
  · exact fun started n => takes_setMode_of_ge started
  · intro started m
    have row := takes_setMode started m
    refine ⟨fun present => ?_, fun other refused => ?_, fun allowed => ?_⟩
    · rwa [if_pos present] at row
    · rwa [if_neg other, if_neg (mt (p.modeAllowed_iff m).mp refused)] at row
    · have inTable := (p.modeAllowed_iff m).mpr allowed
      rw [if_neg (Part.ne_mode_of_modeAllowed inTable), if_pos inTable] at row
      exact ⟨_, row, by rw [Part.answer_mode, Part.changeMode_mode], by rw [Part.answer_host, Part.changeMode_host]⟩

end Sys2Proof.Machine
end

section
/-! SUPPORT. The fuel table (R97): every row but PIN_RESET, CONFIGURE FUEL and WRITE FUEL keeps it, so that its entries
stay within their range. -/

namespace Sys2Proof.Machine

-- One proof at a time: the whole package as one text must not start a thread for each of them.
set_option Elab.async false

open Sys2Proof.Config

/-! ## Operations that keep the fuel table -/

/-- `hT` is found by writing out the named sets of blocks. -/
theorem ChangesOnly.fuel_eq {T : Set Block} {p q : Part} (h : ChangesOnly T p q)
    (hT : Block.fuel ∉ T := by
      simp [sendBlocks, leaveBlocks, mixBlocks, burnerBlocks, fanBlocks, pointBlocks, tripBlocks, settleBlocks,
        settleAllBlocks, userBlocks, silentBlocks, receivedBlocks, scanBlocks]) : q.fuel = p.fuel :=
  h.same .fuel hT

@[simp] theorem Part.ite_fuel {c : Prop} [Decidable c] (p q : Part) :
    (if c then p else q).fuel = if c then p.fuel else q.fuel := apply_ite ..

section
variable (p : Part)

@[simp] theorem Part.reply_fuel (cmd : Nat) (code : Code) (data : List Byte) :
    (p.reply cmd code data).fuel = p.fuel := rfl
@[simp] theorem Part.engineeringDone_fuel (cmd : Nat) : (p.engineeringDone cmd).fuel = p.fuel := rfl
@[simp] theorem Part.offer_fuel (k : EventKind) (subject value : Nat) (mark : Bool) (station : Nat) (o : Option Nat) :
    (p.offer k subject value mark station o).fuel = p.fuel := rfl
@[simp] theorem Part.queueFrame_fuel (body : FrameBody) : (p.queueFrame body).fuel = p.fuel :=
  (p.queueFrame_frame body).fuel_eq
@[simp] theorem Part.settle_fuel : p.settle.fuel = p.fuel := p.settle_frame.fuel_eq
@[simp] theorem Part.settleAll_fuel : p.settleAll.fuel = p.fuel := p.settleAll_frame.fuel_eq

@[simp] theorem Part.request_fuel (k : Fin 3) (u : Nat) : (p.request k u).fuel = p.fuel :=
  (p.request_frame k u).fuel_eq
@[simp] theorem Part.enterClaiming_fuel (k : Fin 3) : (p.enterClaiming k).fuel = p.fuel :=
  (p.enterClaiming_frame k).fuel_eq
@[simp] theorem Part.claimNotice_fuel (tag : Nat) (sent : Bool) : (p.claimNotice tag sent).fuel = p.fuel :=
  (p.claimNotice_frame tag sent).fuel_eq
@[simp] theorem Part.refreshMarks_fuel : p.refreshMarks.fuel = p.fuel := p.refreshMarks_frame.fuel_eq
@[simp] theorem Part.grant_fuel (k : Fin 3) : (p.grant k).fuel = p.fuel := (p.grant_frame k).fuel_eq

@[simp] theorem Part.changeMode_fuel (m : PlantMode) : (p.changeMode m).fuel = p.fuel := (p.changeMode_frame m).fuel_eq
@[simp] theorem Part.burnerTo_fuel (b : Fin 2) (st : BurnerState) (fix : Burner → Burner) (mark : Bool) :
    (p.burnerTo b st fix mark).fuel = p.fuel := (p.burnerTo_frame b st fix mark).fuel_eq
@[simp] theorem Part.enterLightWait_fuel (b : Fin 2) (cont : BurnerState) :
    (p.enterLightWait b cont).fuel = p.fuel := (p.enterLightWait_frame b cont).fuel_eq
@[simp] theorem Part.resume_fuel (b : Fin 2) : (p.resume b).fuel = p.fuel := (p.resume_frame b).fuel_eq
@[simp] theorem Part.failLightOff_fuel (b : Fin 2) : (p.failLightOff b).fuel = p.fuel :=
  (p.failLightOff_frame b).fuel_eq
@[simp] theorem Part.failFlame_fuel (b : Fin 2) : (p.failFlame b).fuel = p.fuel := (p.failFlame_frame b).fuel_eq

@[simp] theorem Part.setMix_fuel (b : Fin 2) (m : Vector Nat 6) : (p.setMix b m).fuel = p.fuel :=
  (p.setMix_frame b m).fuel_eq
@[simp] theorem Part.rampStep_fuel (b : Fin 2) (r : MixRamp) : (p.rampStep b r).fuel = p.fuel :=
  (p.rampStep_frame b r).fuel_eq
@[simp] theorem Part.controlPeriod_fuel (t : Time) : (p.controlPeriod t).fuel = p.fuel :=
  (p.controlPeriod_frame t).fuel_eq

@[simp] theorem Part.fanTo_fuel (n : Fin 4) (st : FanState) : (p.fanTo n st).fuel = p.fuel :=
  (p.fanTo_frame n st).fuel_eq
@[simp] theorem Part.failStart_fuel (n : Fin 4) : (p.failStart n).fuel = p.fuel := (p.failStart_frame n).fuel_eq
@[simp] theorem Part.loseFan_fuel (n : Fin 4) : (p.loseFan n).fuel = p.fuel := (p.loseFan_frame n).fuel_eq
@[simp] theorem Part.grateTo_fuel (st : GrateState) : (p.grateTo st).fuel = p.fuel := (p.grateTo_frame st).fuel_eq
@[simp] theorem Part.faultGrate_fuel : p.faultGrate.fuel = p.fuel := p.faultGrate_frame.fuel_eq
@[simp] theorem Part.coolingPeriod_fuel (t : Time) : (p.coolingPeriod t).fuel = p.fuel :=
  (p.coolingPeriod_frame t).fuel_eq

@[simp] theorem Part.setHorn_fuel (on : Bool) : (p.setHorn on).fuel = p.fuel := rfl
@[simp] theorem Part.hornCheck_fuel : p.hornCheck.fuel = p.fuel := p.hornCheck_frame.fuel_eq
@[simp] theorem Part.keepHorn_fuel (i : Fin 62) : (p.keepHorn i).fuel = p.fuel := (p.keepHorn_frame i).fuel_eq
@[simp] theorem Part.keepAborted_fuel (before : Vector Fan 4) : (p.keepAborted before).fuel = p.fuel :=
  (p.keepAborted_frame before).fuel_eq
@[simp] theorem Part.ackPoint_fuel (i : Fin 62) : (p.ackPoint i).fuel = p.fuel := (p.ackPoint_frame i).fuel_eq
@[simp] theorem Part.endShelving_fuel (i : Fin 62) : (p.endShelving i).fuel = p.fuel := (p.endShelving_frame i).fuel_eq
@[simp] theorem Part.setExt_fuel (n : Fin 16) (x : Ext) : (p.setExt n x).fuel = p.fuel := rfl
@[simp] theorem Part.removePeerTrip_fuel (q : Fin 16) : (p.removePeerTrip q).fuel = p.fuel := rfl

@[simp] theorem Part.changeShift_fuel (m : Nat) (o : OpenOrigin) (station : Nat) :
    (p.changeShift m o station).fuel = p.fuel := (p.changeShift_frame m o station).fuel_eq

@[simp] theorem Part.losePeer_fuel (q : Fin 16) : (p.losePeer q).fuel = p.fuel := (p.losePeer_frame q).fuel_eq
@[simp] theorem Part.lineIdled_fuel (chars : List Byte) : (p.lineIdled chars).fuel = p.fuel :=
  (p.lineIdled_frame chars).fuel_eq
@[simp] theorem Part.takeChars_fuel (chars : List Byte) : (p.takeChars chars).fuel = p.fuel :=
  (p.takeChars_frame chars).fuel_eq
@[simp] theorem Part.discardPartial_fuel (r : Receiver) : (p.discardPartial r).fuel = p.fuel := rfl
@[simp] theorem Part.beginAttempt_fuel : p.beginAttempt.fuel = p.fuel := by
  unfold Part.beginAttempt
  split <;> rfl
@[simp] theorem Part.transmitFailure_fuel : p.transmitFailure.fuel = p.fuel := rfl
@[simp] theorem Part.endBreak_fuel : p.endBreak.fuel = p.fuel := rfl

@[simp] theorem Part.startScan_fuel (t : Time) : (p.startScan t).fuel = p.fuel := rfl
@[simp] theorem Part.completeScan_fuel (l : List Byte) : (p.completeScan l).fuel = p.fuel :=
  (p.completeScan_frame l).fuel_eq

@[simp] theorem Part.start_fuel : p.start.fuel = p.fuel := p.start_frame.fuel_eq
@[simp] theorem Part.restart_fuel : p.restart.fuel = p.fuel := p.restart_frame.fuel_eq

end

@[simp] theorem Part.forAll_fuel {α : Type} {f : α → Part → Part} (hf : ∀ a q, (f a q).fuel = q.fuel) (l : List α)
    (p : Part) : (p.forAll l f).fuel = p.fuel := by
  induction l generalizing p with
  | nil => rfl
  | cons a l ih => exact (ih (f a p)).trans (hf a p)

/-! ## Checks around an operation that keeps the fuel table -/

section
variable {f : Part → Part} (hf : ∀ q, (f q).fuel = q.fuel) (p : Part)
include hf

@[simp] theorem Part.whenDue_fuel (due : Option Time) : (p.whenDue due f).fuel = p.fuel := by
  unfold Part.whenDue
  split <;> simp [hf]

@[simp] theorem Part.engineering_fuel (cmd : Nat) : (p.engineering cmd f).fuel = p.fuel := by
  simp [Part.engineering, hf]

@[simp] theorem Part.grateCommand_fuel (cmd : Nat) : (p.grateCommand cmd f).fuel = p.fuel := by
  simp [Part.grateCommand, hf]

end

@[simp] theorem Part.burnerCommand_fuel {f : Fin 2 → Part → Part} (hf : ∀ b q, (f b q).fuel = q.fuel) (cmd n : Nat)
    (p : Part) : (p.burnerCommand cmd n f).fuel = p.fuel := by
  cases h : finOf 2 n <;> simp [Part.burnerCommand, h, hf]

@[simp] theorem Part.fanCommand_fuel {f : Fin 4 → Part → Part} (hf : ∀ n q, (f n q).fuel = q.fuel) (cmd k : Nat)
    (p : Part) : (p.fanCommand cmd k f).fuel = p.fuel := by
  cases h : finOf 4 k <;> simp [Part.fanCommand, h, hf]

@[simp] theorem Part.pointCommand_fuel {f : Fin 62 → Part → Part} (hf : ∀ i q, (f i q).fuel = q.fuel) (cmd n : Nat)
    (p : Part) : (p.pointCommand cmd n f).fuel = p.fuel := by
  cases h : finOf 62 n <;> simp [Part.pointCommand, h, hf]

@[simp] theorem Part.hostCondition_fuel (cmd n : Nat) (on : Bool) (p : Part) :
    (p.hostCondition cmd n on).fuel = p.fuel := by
  cases h : finOf 16 n <;> simp [Part.hostCondition, h]

/-! ## Entries within their range -/

theorem Part.powerUp_fuel (straps : Fin 16) (rate : Fin 4) (eng : Bool) :
    (Part.powerUp straps rate eng).fuel = .replicate 8 0 := rfl

/-- The range of R97, of every entry. -/
def Part.FuelInRange (p : Part) : Prop := ∀ i : Fin 8, cvInRange p.fuel[i]

theorem cvGood_iff (cv : Nat) : cvGood cv = true ↔ cvInRange cv := by simp [cvGood, cvInRange]

@[simp] theorem Part.setFuel_fuel (i : Fin 8) (cv : Nat) (p : Part) : (p.setFuel i cv).fuel = p.fuel.set i cv := rfl

/-! ## What a row does to the fuel table -/

theorem part_of_act {f : Part → Part} {s s' : State} (h : s.act f = .next s') : s'.part = f s.part := by
  cases h
  rfl

theorem fuel_eq_of_act {f : Part → Part} {s s' : State} (h : s.act f = .next s')
    (hf : ∀ p, (f p).fuel = p.fuel) : s'.part.fuel = s.part.fuel := by
  rw [part_of_act h, hf]

/-- The fuel table is kept, or emptied, or one entry of it takes a CV within its range. -/
inductive FuelMove (p q : Part) : Prop
  | kept (same : q.fuel = p.fuel)
  | cleared (empty : q.fuel = .replicate 8 0)
  | written (i : Fin 8) (cv : Nat) (range : cvInRange cv) (entry : q.fuel = p.fuel.set i cv)

theorem FuelMove.inRange {p q : Part} (move : FuelMove p q) (h : p.FuelInRange) : q.FuelInRange := by
  intro j
  cases move with
  | kept same => rw [same]; exact h j
  | cleared empty => simp [empty, cvInRange]
  | written i cv range entry =>
    rw [entry]
    by_cases e : j = i
    · subst e; simpa using range
    · rw [set_other _ _ _ _ e]; exact h j

theorem execRestartStation_fuel {s s' : State} (h : execRestartStation s = .next s') : s'.part.fuel = s.part.fuel :=
  fuel_eq_of_act h fun p => by simp

theorem execConfigureFuel_moves {k cv : Nat} {s s' : State} (h : execConfigureFuel k cv s = .next s') :
    FuelMove s.part s'.part := by
  rw [part_of_act h]
  split
  case isTrue => exact .kept rfl
  case isFalse =>
    split
    · exact .kept rfl
    · next i _ =>
      split
      case isTrue good => exact .written i cv ((cvGood_iff cv).mp good) rfl
      case isFalse => exact .kept rfl

theorem execWriteFuel_moves {k cv : Nat} {s s' : State} (h : execWriteFuel k cv s = .next s') :
    FuelMove s.part s'.part := by
  rw [part_of_act h, Part.engineering]
  split
  case isFalse => exact .kept rfl
  case isTrue =>
    split
    · exact .kept rfl
    · next i _ =>
      split
      case isTrue good => exact .written i cv ((cvGood_iff cv).mp good) (by simp)
      case isFalse => exact .kept rfl

/-- PIN_RESET empties the table, CONFIGURE FUEL and WRITE FUEL may write an entry, and every other row keeps it (R97,
R98). -/
theorem exec_moves_fuel {c : Instr} {s s' : State} (h : exec c s = .next s') : FuelMove s.part s'.part := by
  cases c
  all_goals dsimp only [exec] at h
  case pinReset straps rate eng => exact .cleared ((congrArg Part.fuel (part_of_act h)).trans (Part.powerUp_fuel ..))
  case configureFuel => exact execConfigureFuel_moves h
  case writeFuel => exact execWriteFuel_moves h
  case restartStation => exact .kept (execRestartStation_fuel h)
  all_goals refine .kept ?_
  -- The locations of the host port, and reads without an operand.
  case commandByteWrite | responseByteRead | interruptEnablesWrite | eventWindowRead | eventWindowWrite | engNegated
    | readStation | readLineStatus | readPeerChanges | readResources | readAllocation | readFuelTable | readCooler
    | readFirstOut | readSummary | readPointStates | readField =>
    exact fuel_eq_of_act h fun _ => rfl
  case submit =>
    refine fuel_eq_of_act h fun p => ?_
    split
    · rfl
    · dsimp only
      split <;> rfl
  -- Reads of one object, and the commands of an UNSTARTED station.
  case readPeerEntry | readBurner | readFeeder | readPoint | readShiftRecord | configureStation | configureBurner
    | configureFeeder | configureFan | configureGrate | configureExternalPoint | startStation | setMode =>
    refine fuel_eq_of_act h fun p => ?_
    repeat' split
    all_goals simp [Part.configureFan, Part.configureGrate, Part.ageNow]
  -- Commands of a STARTED station.
  case offerDemand | withdrawDemand | startBurner | resumeBurner | resetTripBurner | resetTripPoint | setMix | startFan
    | resetFan | startGrate | stopGrate | setBedPressure | acknowledge | acknowledgeAll | resetAlarm | raiseExternal
    | clearExternal | resetFirstOut | clearSummary | silenceHorn | closeShift | writeShiftNote =>
    exact fuel_eq_of_act h fun p => by
      simp [Part.offerCommand, Part.setOffer, Part.enterOff, Part.resetPoint, Part.putPoint]
  case stopBurner =>
    refine fuel_eq_of_act h (Part.burnerCommand_fuel (fun b p => ?_) _ _)
    split <;> simp [Part.enterOff, Part.enterStopping]
  case stopFan =>
    refine fuel_eq_of_act h (Part.fanCommand_fuel (fun n p => ?_) _ _)
    split <;> simp
  -- The engineering window and its commands.
  case openEngineering | closeEngineering | shelve | unshelve => exact fuel_eq_of_act h fun p => by simp
  case writePulseWeight | discardPeerTrip =>
    refine fuel_eq_of_act h (Part.engineering_fuel (fun p => ?_) · _)
    split <;> simp
  -- The line.
  case accessGapReached =>
    refine fuel_eq_of_act h fun p => ?_
    dsimp only
    split <;> simp
  case frameSentWhole | readBackMismatch | breakEnded =>
    refine fuel_eq_of_act h fun p => ?_
    split <;> simp [Part.sentWhole, Part.failAttempt]
  case frameReceived | badHeaderDiscard | partialFrameDiscard | interCharacterGap | lineStuckSet | lineStuckCleared =>
    exact fuel_eq_of_act h fun p => by simp
  -- Timers and periods.
  case statusPeriodExpiry | duplicateDeadlineExpiry | peerAgingExpiry | staggerEnd | settleDeadline | claimantExpiry
    | reclaimDelayEnd | airHoldExpiry | feederControlPeriod | deviationTime | noFlowTime | lightWaitExpiry | flameProven
    | ignitionDeadline | loadingDeadline | flameFailTime | flameWeakTime | heldDeadline | fanStartDeadline
    | fanFeedbackLoss | coolingPeriod | grateFeedbackLoss | bedPressureHighTime | shelvingExpiry =>
    exact fuel_eq_of_act h fun p => by simp [Part.endStagger, Part.enterOff, Part.enterLoading, Part.enterFiring]
  case mixRampStep =>
    refine fuel_eq_of_act h fun p => ?_
    split <;> simp
  case engineeringDeadline =>
    exact (ChangesOnly.of_act h fun p => Part.whenDue_frame _ _ p fun q => q.updHost_frame _ {.engineering}).fuel_eq
  case heldFlowExpiry =>
    exact (ChangesOnly.of_act h fun p => Part.whenDue_frame _ _ p (Part.updFan_frame _ _)).fuel_eq
  case fieldScanStart =>
    exact (ChangesOnly.of_act h fun p => Part.whenDue_frame _ _ p (Part.startScan_frame _)).fuel_eq
  case fieldScanComplete => exact fuel_eq_of_act h fun p => by simp

theorem step_moves_fuel {s t : State} (h : step s = .next t) : FuelMove s.part t.part := by
  obtain ⟨p, rows⟩ := s
  cases rows with
  | nil => cases h; exact .kept (by simp)
  | cons c rest => exact exec_moves_fuel (s := ⟨p, rest⟩) h

/-! ## CONFIGURE FUEL -/

theorem takes_configureFuel_of_started {p : Part} (started : p.started = true) (k cv : Nat) :
    Takes (.configureFuel k cv) p (p.answer 0x30 .wrongLifecycle []) := fun _ => by
  simp only [exec, execConfigureFuel, State.act, started]
  rfl

theorem takes_configureFuel_of_ge {p : Part} (unstarted : p.started = false) {k : Nat} (h : 8 ≤ k) (cv : Nat) :
    Takes (.configureFuel k cv) p (p.answer 0x30 .badOperand []) := fun _ => by
  simp only [exec, execConfigureFuel, State.act, unstarted, finOf, dif_neg (Nat.not_lt.mpr h)]
  rfl

theorem takes_configureFuel_of_not_inRange {p : Part} (unstarted : p.started = false) (k : Nat) {cv : Nat}
    (h : ¬ cvInRange cv) : Takes (.configureFuel k cv) p (p.answer 0x30 .badOperand []) := fun _ => by
  simp only [exec, execConfigureFuel, State.act, unstarted, if_neg (mt (cvGood_iff cv).mp h)]
  cases finOf 8 k <;> rfl

theorem takes_configureFuel {p : Part} (unstarted : p.started = false) (i : Fin 8) {cv : Nat} (h : cvInRange cv) :
    Takes (.configureFuel i.val cv) p ((p.setFuel i cv).answer 0x30 .done []) := fun _ => by
  simp only [exec, execConfigureFuel, State.act, unstarted, finOf, dif_pos i.isLt, if_pos ((cvGood_iff cv).mpr h)]
  rfl

/-! ## The obligation -/

/-- Settles O12: a step keeps the table, empties it, or writes one entry within its range. -/
theorem configureFuelWritesEntry : Obligations.ConfigureFuelWritesEntry := by
  refine ⟨?_, fun p q h => execRestartStation_fuel (h []), fun p k cv => ⟨?_, ?_, ?_, ?_⟩, ?_⟩
  · intro p q straps rate eng h i
    rw [h.unique (takes_pinReset straps rate eng p), Part.powerUp_fuel]
    simp
  · exact fun started => takes_configureFuel_of_started started k cv
  · exact fun unstarted absent => takes_configureFuel_of_ge unstarted absent cv
  · exact fun unstarted outside => takes_configureFuel_of_not_inRange unstarted k outside
  · exact fun i unstarted inside => takes_configureFuel unstarted i inside
  · exact fun s t inRange taken => (step_moves_fuel taken).inRange inRange

end Sys2Proof.Machine
end

section
/-! SUPPORT. The note of the open shift record (R173): WRITE SHIFT NOTE, and what a renumbering, a close and an opening make
of the record that bears the note. -/

namespace Sys2Proof.Machine

-- One proof at a time: the whole package as one text must not start a thread for each of them.
set_option Elab.async false

open Sys2Proof.Config

/-! ## The record renumbered, closed and opened (R164, R165, R168) -/

theorem Part.renumber_current (m st : Nat) (p : Part) :
    (p.renumber m st).shift.current =
      p.shift.current.map fun r => { r with number := m, origin := .renumbered st } := rfl

theorem Shift.keep_store (r : ShiftRec) (s : Shift) : (s.keep r).store = ((r, false) :: s.store).take storeSize := rfl

/-- The close fills in the close time and the mark of a restart, and nothing else of the record. -/
theorem Part.closeRecord_store {p : Part} {r : ShiftRec} (current : p.shift.current = some r) (restarted : Bool) :
    (p.closeRecord restarted).shift.store =
      (({ r with closeTime := some p.now, restarted := restarted }, false) :: p.shift.store).take storeSize := by
  simp only [Part.closeRecord, current, Shift.keep_store]

theorem Part.openRecord_current (m : Nat) (o : OpenOrigin) (i g : Bool) (p : Part) :
    (p.openRecord m o i g).shift.current = some (p.newRecord m o i g) := rfl

theorem Part.newRecord_note (m : Nat) (o : OpenOrigin) (i g : Bool) (p : Part) : (p.newRecord m o i g).note = none := rfl

/-! ## WRITE SHIFT NOTE (R173) -/

theorem takes_writeShiftNote_of_unstarted {p : Part} (unstarted : p.started = false) (n : Nat) :
    Takes (.writeShiftNote n) p (p.answer 0x5A .wrongLifecycle []) := fun _ => by
  simp only [exec, execWriteShiftNote, State.act, unstarted]
  rfl

theorem takes_writeShiftNote {p : Part} (started : p.started = true) (n : Nat) :
    Takes (.writeShiftNote n) p ((p.record fun r => { r with note := some n }).answer 0x5A .done []) := fun _ => by
  simp only [exec, execWriteShiftNote, State.act, started]
  rfl

/-! ## The obligation -/

/-- Settles O53: WRITE SHIFT NOTE looks at nothing but the lifecycle; a renumbering changes the number and the origin of
the open record, a close puts it at index 0 of the store with its note, and a record opens without one. -/
theorem shiftNoteWritten : Obligations.ShiftNoteWritten := by
  refine ⟨fun p n => ⟨?_, ?_⟩, fun p m st r current => ?_, fun p restarted r current => ?_, fun p m o i g => ?_⟩
  · exact fun unstarted => takes_writeShiftNote_of_unstarted unstarted n
  · exact fun started => takes_writeShiftNote started n
  · exact ⟨_, (p.renumber_current m st).trans (congrArg _ current), rfl⟩
  · have stored := Part.closeRecord_store current restarted
    exact ⟨_, by rw [stored, storeSize, List.take_succ_cons, List.head?_cons], rfl⟩
  · exact ⟨_, p.openRecord_current m o i g, p.newRecord_note m o i g⟩

end Sys2Proof.Machine
end

section
/-! SUPPORT. A row as a function of the part, one step of the machine, and the frame of every row. -/

namespace Sys2Proof.Machine

-- One proof at a time: the whole package as one text must not start a thread for each of them.
set_option Elab.async false

open Sys2Proof.Config

/-! ## Rows as functions of the part -/

/-- The part a row leaves. -/
def effect (c : Instr) (p : Part) : Part :=
  match exec c ⟨p, []⟩ with
  | .next s => s.part
  | _ => p

/-- Every row completes, and its effect does not depend on the rows that wait. -/
theorem takes_effect (c : Instr) (p : Part) : Takes c p (effect c p) := by
  intro rest
  cases c
  case fieldScanComplete => simp only [effect, exec, execFieldScanComplete, State.act]
  all_goals exact rfl

theorem takes_iff {c : Instr} {p q : Part} : Takes c p q ↔ effect c p = q :=
  ⟨(takes_effect c p).unique, fun h => h ▸ takes_effect c p⟩

/-- The row of a timer of instant t, whose effect is `f` once t has come. -/
theorem takesAt_of_effect {c : Instr} {f : Part → Part} {t : Time} {p : Part} {after : Part → Prop}
    (hf : effect c p = p.whenDue (some t) f) (come : reached p.now t = true → (f p).now = p.now ∧ after (f p)) :
    TakesAt c t p after := by
  constructor
  · intro h
    rw [Part.whenDue_come t f p h] at hf
    exact ⟨_, takes_iff.2 hf, come h⟩
  · intro h
    rw [Part.whenDue_ahead t f p h] at hf
    exact takes_iff.2 hf

/-- One step of the machine: the front row is taken, or a millisecond passes. -/
theorem step_cases {s t : State} (h : step s = .next t) :
    (∃ c, Takes c s.part t.part) ∨ (s.pending = [] ∧ t = s.tick) := by
  obtain ⟨p, rows⟩ := s
  cases rows with
  | nil => cases h; exact .inr ⟨rfl, rfl⟩
  | cons c rest =>
    have row : exec c ⟨p, rest⟩ = .next t := h
    rw [takes_effect c p rest] at row
    cases row
    exact .inl ⟨c, takes_effect c p⟩

/-- What every row and the passing of time keep, every step keeps. -/
theorem step_keeps {I : Part → Prop} {s t : State} (row : ∀ c q, Takes c s.part q → I q) (tick : I s.tick.part)
    (h : step s = .next t) : I t.part := by
  rcases step_cases h with ⟨c, taken⟩ | ⟨-, rfl⟩
  · exact row c _ taken
  · exact tick

/-! ## The frame of every row -/

theorem Part.reply_frame_in {T : Set Block} (hT : Block.response ∈ T) (cmd : Nat) (code : Code) (data : List Byte)
    (p : Part) : ChangesOnly T p (p.reply cmd code data) :=
  (p.reply_frame cmd code data).mono (Set.singleton_subset_iff.2 hT)

/-- A command's effect, then its response. -/
theorem ChangesOnly.replied {T : Set Block} {p q : Part} (h : ChangesOnly T p q) (hT : Block.response ∈ T) (cmd : Nat)
    (code : Code) (data : List Byte) : ChangesOnly T p (q.reply cmd code data) :=
  h.trans (q.reply_frame_in hT cmd code data)

theorem ChangesOnly.settled {T : Set Block} {p q : Part} (h : ChangesOnly T p q) (hT : settleBlocks ⊆ T) :
    ChangesOnly T p q.settle := h.next q.settle_frame hT

theorem ChangesOnly.settledAll {T : Set Block} {p q : Part} (h : ChangesOnly T p q) (hT : settleAllBlocks ⊆ T) :
    ChangesOnly T p q.settleAll := h.next q.settleAll_frame hT

theorem ChangesOnly.hornKept {T : Set Block} {p q : Part} (h : ChangesOnly T p q) (hT : settleAllBlocks ⊆ T)
    (i : Fin 62) : ChangesOnly T p (q.keepHorn i) :=
  h.next (q.keepHorn_frame i) (Set.Subset.trans (by
    simp [settleAllBlocks, settleBlocks, pointBlocks, Set.insert_subset_iff]) hT)

theorem Part.updLine_frame {T : Set Block} (f : Line → Line) (p : Part)
    (h : ∀ b : Block, b ∉ T → b.Same p (p.updLine f)) : ChangesOnly T p (p.updLine f) := ⟨h⟩

theorem mem_blockOf {n : Nat} (i : Fin n) (f : Fin n → Block) : f i ∈ blockOf i.val f := ⟨i, rfl, rfl⟩

theorem finOf_eq_some {n k : Nat} {i : Fin n} : finOf n k = some i ↔ i.val = k := by
  unfold finOf
  split
  · next h => simp [Fin.ext_iff, eq_comm]
  · next h => simp; omega

theorem finOf_eq_none {n k : Nat} : finOf n k = none ↔ n ≤ k := by
  unfold finOf; split <;> simp <;> omega

@[simp] theorem finOf_val {n : Nat} (i : Fin n) : finOf n i.val = some i := finOf_eq_some.2 rfl

theorem blockOf_of_finOf {n k : Nat} {i : Fin n} (h : finOf n k = some i) (f : Fin n → Block) : f i ∈ blockOf k f :=
  ⟨i, finOf_eq_some.1 h, rfl⟩

/-- The end of a command that moves no TRIP point. -/
theorem ChangesOnly.done {T : Set Block} {p q : Part} (h : ChangesOnly T p q) (cmd : Nat) (code : Code := .done)
    (data : List Byte := []) (hS : settleBlocks ⊆ T := by simp [Set.subset_union_right])
    (hR : Block.response ∈ T := by simp) : ChangesOnly T p (q.settle.reply cmd code data) :=
  (h.settled hS).replied hR cmd code data

/-- A command that names a burner changes blocks of that burner only, beside the response and the end of the event. -/
theorem Part.burnerRow_frame {cmd n : Nat} {f : Fin 2 → Part → Part} {p : Part}
    (h : ∀ b, ChangesOnly ({.response} ∪ burnerBlocks b ∪ settleBlocks) p (f b p)) :
    ChangesOnly ({.response} ∪ ofBurner n ∪ settleBlocks) p (p.burnerCommand cmd n f) :=
  (Part.burnerCommand_frame cmd n f p h).mono (by
    rintro x (rfl | ⟨b, hb, (hx | hx) | hx⟩)
    · exact .inl (.inl rfl)
    · exact .inl (.inl hx)
    · exact .inl (.inr ⟨b, hb, hx⟩)
    · exact .inr hx)

theorem Part.fanRow_frame {cmd k : Nat} {f : Fin 4 → Part → Part} {p : Part}
    (h : ∀ n, ChangesOnly ({.response} ∪ fanBlocks n ∪ settleBlocks) p (f n p)) :
    ChangesOnly ({.response} ∪ ofFan k ∪ settleBlocks) p (p.fanCommand cmd k f) :=
  (Part.fanCommand_frame cmd k f p h).mono (by
    rintro x (rfl | ⟨n, hn, (hx | hx) | hx⟩)
    · exact .inl (.inl rfl)
    · exact .inl (.inl hx)
    · exact .inl (.inr ⟨n, hn, hx⟩)
    · exact .inr hx)

theorem settleBlocks_subset_settleAllBlocks : settleBlocks ⊆ settleAllBlocks := Set.subset_union_right
theorem tripBlocks_subset_settleAllBlocks : tripBlocks ⊆ settleAllBlocks := Set.subset_union_left

theorem burnerBlocks_subset_settleAllBlocks (b : Fin 2) : burnerBlocks b ⊆ settleAllBlocks :=
  ((Part.oneBurner b).trans Part.burnersIn).trans tripBlocks_subset_settleAllBlocks

theorem frame_of_exec {T : Set Block} {c : Instr} (h : ∀ s s', exec c s = .next s' → ChangesOnly T s.part s'.part)
    (p : Part) : ChangesOnly T p (effect c p) := h ⟨p, []⟩ _ (takes_effect c p [])

theorem Part.setOffer_frame (flag : Bool) (value : Nat) (p : Part) :
    ChangesOnly {.offer} p { p with alloc := { p.alloc with offered := flag, offer := value } } := by
  refine ⟨fun b hb => ?_⟩; cases b <;> simp_all [Block.Same, Alloc.results]

/-- A read of the event window changes only the queue of events and the read position. -/
theorem Alarms.readWindow_rest (t : Time) (a : Alarms) : ∃ e n r z,
    a.readWindow t = { a with events := e, lost := n, readPos := r, readEmpty := z } := by
  unfold Alarms.readWindow Alarms.removeOldest
  repeat' split
  all_goals exact ⟨_, _, _, _, rfl⟩

theorem Part.configureFan_frame (n : Fin 4) (c : FanCfg) (p : Part) :
    ChangesOnly {.fan n, .events} p (p.configureFan n c) :=
  .ite (p.updFan_frame n _).mono ((p.updFan_frame n _).mono.next (Part.offer_frame ..))

theorem Part.configureGrate_frame (c : GrateCfg) (p : Part) :
    ChangesOnly {.grate, .events} p (p.configureGrate c) :=
  .ite (p.updGrate_frame _).mono ((p.updGrate_frame _).mono.next (Part.offer_frame ..))

theorem Part.resetPoint_frame (cmd : Nat) (i : Fin 62) (right : Bool) (p : Part) :
    ChangesOnly {.points, .response} p (p.resetPoint cmd i right) :=
  .ite (p.reply_frame_in (by simp) ..) (.ite ((p.updPoint_frame i _).mono.replied (by simp) ..)
    (p.reply_frame_in (by simp) ..))

theorem Part.hostCondition_frame (cmd n : Nat) (on : Bool) (p : Part) :
    ChangesOnly ({.ext, .response} ∪ settleAllBlocks) p (p.hostCondition cmd n on) := by
  refine .ite (p.reply_frame_in (by simp) ..) ?_
  split
  · exact p.reply_frame_in (by simp) ..
  · exact .ite (p.reply_frame_in (by simp) ..) (.ite (p.reply_frame_in (by simp) ..)
      (((p.setExt_frame _ _).mono.settledAll Set.subset_union_right).replied (by simp) ..))

theorem Part.offerCommand_frame (cmd : Nat) (flag : Bool) (value : Nat) (p : Part) :
    ChangesOnly ({.offer, .response} ∪ sendBlocks ∪ settleBlocks) p (p.offerCommand cmd flag value) := by
  refine .ite (p.reply_frame_in (by simp) ..) (.ite (p.reply_frame_in (by simp) ..) (ChangesOnly.replied ?_ (by simp) _ _ _))
  exact .ite .refl (((p.setOffer_frame flag value).mono.next (Part.queueFrame_frame _ _)).settled Set.subset_union_right)

/-- Recalibration touches what a feeder measured, not its drive. -/
theorem Part.weigh_frame (f : Fin 6) (on : Bool) (w : Nat) (p : Part) :
    ChangesOnly {.feeder f} p (p.updFeeder f (Feeder.weigh on w)) := by
  refine ⟨fun y hy => ?_⟩
  cases y with
  | drive i =>
    by_cases e : i = f
    · subst e; simp [Block.Same, Feeder.weigh]
    · simp [Block.Same, set_other, e, -Fin.getElem_fin]
  | _ => simp_all [Block.Same, set_other, -Fin.getElem_fin]

theorem Part.beginAttempt_frame (p : Part) :
    ChangesOnly {.receiving, .queue, .queueOut, .sending} p p.beginAttempt := by
  unfold Part.beginAttempt
  split
  · refine ⟨fun b hb => ?_⟩; cases b <;> simp_all [Block.Same]
  · exact .refl

theorem Part.sentWhole_frame (h : TxFrame) (p : Part) :
    ChangesOnly ({.queueOut, .sending, .lineCounts} ∪ sendBlocks ∪ Set.range .claim) p (p.sentWhole h) := by
  refine ChangesOnly.next ⟨fun b hb => ?_⟩ (Part.claimNotice_frame ..)
  cases b <;> simp_all [Block.Same, sendBlocks]

theorem Part.failAttempt_frame (h : TxFrame) (t : List TxFrame) (p : Part) :
    ChangesOnly ({.queueOut, .sending, .lineCounts} ∪ sendBlocks ∪ Set.range .claim) p (p.failAttempt h t) := by
  refine .ite ⟨fun b hb => ?_⟩ (.ite (ChangesOnly.next ⟨fun b hb => ?_⟩ (Part.record_frame _ _))
    (ChangesOnly.next (ChangesOnly.next ⟨fun b hb => ?_⟩ (Part.transmitFailure_frame _)) (Part.claimNotice_frame ..)))
  all_goals cases b <;> simp_all [Block.Same, sendBlocks]

/-! ### Updates of one register -/

theorem Part.setFuel_frame (i : Fin 8) (cv : Nat) (p : Part) : ChangesOnly {.fuel} p (p.setFuel i cv) := by
  refine ⟨fun b hb => ?_⟩; cases b <;> simp_all [Block.Same, Part.setFuel]

theorem Part.endBreak_frame (p : Part) : ChangesOnly {.sending, .receiving} p p.endBreak := by
  refine ⟨fun b hb => ?_⟩; cases b <;> simp_all [Block.Same, Part.endBreak]

theorem Part.breakOff_frame (n : Nat) (p : Part) : ChangesOnly {.sending} p
    (p.updLine fun l => { l with phase := .breaking, wire := l.wire.take (n + 1) }) := by
  refine ⟨fun b hb => ?_⟩; cases b <;> simp_all [Block.Same]

theorem Part.deafen_frame (p : Part) : ChangesOnly {.receiving} p (p.updLine fun l => { l with receiver := .deaf }) := by
  refine ⟨fun b hb => ?_⟩; cases b <;> simp_all [Block.Same]

theorem Part.setStatusDue_frame (f : Line → Option Time) (p : Part) :
    ChangesOnly {.statusTimer} p (p.updLine fun l => { l with statusDue := f l }) := by
  refine ⟨fun b hb => ?_⟩; cases b <;> simp_all [Block.Same]

theorem Part.endDuplicate_frame (p : Part) : ChangesOnly {.duplicate} p (p.updLine fun l => { l with dupDeadline := none }) := by
  refine ⟨fun b hb => ?_⟩; cases b <;> simp_all [Block.Same]

theorem Part.setStuck_frame (on : Bool) (p : Part) : ChangesOnly {.stuck} p (p.updLine fun l => { l with stuck := on }) := by
  refine ⟨fun b hb => ?_⟩; cases b <;> simp_all [Block.Same]

theorem Part.ceiling_frame (s : CeilingState) (c : Option Nat) (t : Option Time) (p : Part) :
    ChangesOnly {.alloc} p { p with alloc := { p.alloc with ceilState := s, ceiling := c, holdDeadline := t } } := by
  refine ⟨fun b hb => ?_⟩; cases b <;> simp_all [Block.Same]

theorem Part.setCfg_frame (c : StationCfg) (p : Part) : ChangesOnly {.cfg} p { p with cfg := c } := by
  refine ⟨fun b hb => ?_⟩; cases b <;> simp_all [Block.Same]

theorem Part.setShift_frame (x : Shift) (p : Part) (h : x.current = p.shift.current) :
    ChangesOnly {.shift} p { p with shift := x } := by
  refine ⟨fun b hb => ?_⟩; cases b <;> simp_all [Block.Same]

theorem Shift.markRead_current (i : Nat) (x : Shift) : (x.markRead i).current = x.current := by
  unfold Shift.markRead; split <;> rfl

theorem Part.readWindow_frame (t : Time) (p : Part) :
    ChangesOnly {.window, .events, .eventsOut} p (p.updAlarms (Alarms.readWindow t)) := by
  obtain ⟨e, n, r, z, read⟩ := Alarms.readWindow_rest t p.alarms
  refine ⟨fun b hb => ?_⟩
  cases b <;> simp_all [Block.Same]

theorem Part.firstOut_frame (f : Alarms → Option FirstOut) (g : Alarms → Bool) (p : Part) : ChangesOnly {.firstOut} p
    (p.updAlarms fun a => { a with firstOut := f a, tripNew := g a }) := by
  refine ⟨fun b hb => ?_⟩; cases b <;> simp_all [Block.Same]

theorem scanBlocks_subset : scanBlocks ⊆ {.scan, .image, .grate, .ext, .fanOut} ∪ Set.range .fan ∪ leaveBlocks 1 ∪ settleAllBlocks :=
  Set.union_subset_union_left _ (Set.union_subset_union_left _ (Set.union_subset_union_left _ (by simp [Set.insert_subset_iff])))

/-- The row of a timer that is read in one state, and changes blocks of T when it has come. -/
theorem ChangesOnly.timed {T : Set Block} {c : Prop} [Decidable c] {d : Option Time} {f : Part → Part} {p : Part}
    (h : ∀ q, ChangesOnly T q (f q)) : ChangesOnly T p (if c then p.whenDue d f else p) :=
  .ite (Part.whenDue_frame d f p h) .refl

/-- The frame of a host command: each is put together from shared operations whose frames are known. -/
theorem command_frame {c : Instr} (command : c.spelling ≠ none) (p : Part) : ChangesOnly (rowBlocks c) p (effect c p) := by
  cases c
  case pinReset | commandByteWrite | submit | responseByteRead | interruptEnablesWrite | eventWindowRead
    | eventWindowWrite | engineeringDeadline | engNegated | shelvingExpiry | accessGapReached | frameSentWhole
    | readBackMismatch | breakEnded | statusPeriodExpiry | frameReceived | badHeaderDiscard
    | partialFrameDiscard | interCharacterGap | duplicateDeadlineExpiry | lineStuckSet | lineStuckCleared
    | peerAgingExpiry | staggerEnd | settleDeadline | claimantExpiry | reclaimDelayEnd | airHoldExpiry
    | feederControlPeriod | mixRampStep | deviationTime | noFlowTime | lightWaitExpiry | flameProven
    | ignitionDeadline | loadingDeadline | flameFailTime | flameWeakTime | heldDeadline | fieldScanStart
    | fieldScanComplete | fanStartDeadline | fanFeedbackLoss | heldFlowExpiry | coolingPeriod
    | grateFeedbackLoss | bedPressureHighTime =>
    exact absurd rfl command
  all_goals
    refine frame_of_exec (fun s s' h => ?_) p
    dsimp only [exec] at h
    refine ChangesOnly.of_act h fun p => ?_
    dsimp only [rowBlocks]
  -- Read commands.
  case readStation | readLineStatus | readPeerChanges | readResources | readAllocation | readFuelTable | readCooler
    | readSummary | readPointStates | readField => exact p.reply_frame ..
  case readBurner | readFeeder | readPoint =>
    split <;> exact p.reply_frame ..
  case readPeerEntry station =>
    split
    · exact p.reply_frame_in (by simp) ..
    · next q hq =>
      refine .ite (p.reply_frame_in (by simp) ..) ?_
      exact (p.reply_frame_in (by simp) ..).next (Part.updPeer_frame q _ _)
        (Set.singleton_subset_iff.2 (.inr ⟨q, hq, rfl⟩))
  case readFirstOut =>
    exact (p.firstOut_frame (·.firstOut) _).mono.replied (by simp) _ _ _
  case readShiftRecord =>
    refine .ite (p.reply_frame_in (by simp) ..) ?_
    split
    · exact p.reply_frame_in (by simp) ..
    · exact ChangesOnly.replied (.ite (p.setShift_frame _ (Shift.markRead_current _ _)).mono .refl) (by simp) _ _ _
  -- Configuration and station start.
  case configureStation =>
    refine .ite (p.reply_frame_in (by simp) ..) ?_
    split
    · exact p.reply_frame_in (by simp) ..
    · refine ChangesOnly.replied ?_ (by simp) _ _ _
      refine ChangesOnly.settledAll ?_ Set.subset_union_right
      refine ChangesOnly.next ?_ (Part.refreshMarks_frame _)
      exact ChangesOnly.trans (p.setCfg_frame _).mono (.forAll (fun x q => .ite ((q.losePeer_frame x).mono) .refl) _ _)
  case startStation =>
    refine .ite (p.reply_frame_in (by simp) ..) (.ite (p.reply_frame_in (by simp) ..) ?_)
    split
    · exact p.reply_frame_in (by simp) ..
    · exact p.start_frame.replied (by simp) _ _ _
  case restartStation =>
    exact .ite (p.restart_frame.replied (by simp) _ _ _) (p.reply_frame_in (by simp) ..)
  case configureBurner =>
    refine .ite (p.reply_frame_in (by simp) ..) ?_
    split
    · next b c hb _ =>
      exact ((p.updBurner_frame b _).mono (Set.singleton_subset_iff.2 (.inr (blockOf_of_finOf hb _)))).replied (by simp) ..
    · exact p.reply_frame_in (by simp) ..
  case configureFuel =>
    refine .ite (p.reply_frame_in (by simp) ..) ?_
    split
    · exact p.reply_frame_in (by simp) ..
    · exact .ite ((p.setFuel_frame _ _).mono.replied (by simp) _ _ _) (p.reply_frame_in (by simp) ..)
  case configureFeeder =>
    refine .ite (p.reply_frame_in (by simp) ..) ?_
    split
    · next f c hf _ =>
      refine ((p.updFeeder_frame f _).mono ?_).replied (by simp) ..
      rintro x (rfl | rfl)
      · exact .inr (blockOf_of_finOf hf _)
      · exact .inl (.inr (blockOf_of_finOf hf _))
    · exact p.reply_frame_in (by simp) ..
  case configureFan =>
    refine .ite (p.reply_frame_in (by simp) ..) ?_
    split
    · next n c hn _ =>
      exact ((p.configureFan_frame n c).mono (by simp [Set.insert_subset_iff, blockOf_of_finOf hn])).replied (by simp) ..
    · exact p.reply_frame_in (by simp) ..
  case configureGrate =>
    refine .ite (p.reply_frame_in (by simp) ..) ?_
    split
    · exact (p.configureGrate_frame _).mono.replied (by simp) ..
    · exact p.reply_frame_in (by simp) ..
  case configureExternalPoint =>
    refine .ite (p.reply_frame_in (by simp) ..) ?_
    split
    · exact (p.setExt_frame _ _).mono.replied (by simp) ..
    · exact p.reply_frame_in (by simp) ..
  -- The engineering window and its commands.
  case openEngineering =>
    refine .ite (ChangesOnly.replied ?_ (by simp) _ _ _) ?_
    · refine .ite ?_ ?_
      · exact (p.updHost_frame _ _ fun x => by simp [HostPort.renew]).next (Part.record_frame ..)
      · exact p.updHost_frame _ _ fun x => by simp [HostPort.renew]
    · exact (p.updHost_frame _ _ fun x => by simp [HostPort.closeWindow]).replied (by simp) ..
  case closeEngineering =>
    exact .ite ((p.updHost_frame _ _ fun x => by simp [HostPort.closeWindow]).replied (by simp) ..)
      (p.reply_frame_in (by simp) ..)
  case writeFuel =>
    refine (Part.engineering_frame (T := {.fuel, .record, .engineering, .response} ∪ settleBlocks) _ _ p ?_).mono
      (by simp)
    split
    · exact p.reply_frame_in (by simp) ..
    · refine .ite ?_ (p.reply_frame_in (by simp) ..)
      refine ChangesOnly.next ?_ (Part.engineeringDone_frame ..)
      exact ((p.setFuel_frame _ _).mono.next (Part.record_frame _ _)).settled Set.subset_union_right
  case writePulseWeight feeder _ =>
    refine (Part.engineering_frame (T := {.record, .engineering, .response} ∪ blockOf feeder .feeder) _ _ p ?_).mono
      (by simp)
    split
    · exact p.reply_frame_in (by simp) ..
    · next f hf =>
      refine .ite (p.reply_frame_in (by simp) ..) (.ite (p.reply_frame_in (by simp) ..) ?_)
      refine ChangesOnly.next (ChangesOnly.next ?_ (Part.record_frame _ _)) (Part.engineeringDone_frame ..)
      exact (p.weigh_frame f _ _).mono (Set.singleton_subset_iff.2 (.inr (blockOf_of_finOf hf _)))
  case shelve =>
    refine (Part.engineering_frame (T := {.points, .engineering, .response}) _ _ p ?_).mono (by simp)
    refine (Part.pointCommand_frame (T := {.points, .engineering, .response}) _ _ _ p fun i => ?_).mono (by simp)
    exact .ite (p.reply_frame_in (by simp) ..) ((p.updPoint_frame i _).mono.next (Part.engineeringDone_frame ..))
  case unshelve =>
    refine (Part.engineering_frame (T := {.engineering, .response} ∪ settleAllBlocks) _ _ p ?_).mono (by simp)
    refine (Part.pointCommand_frame (T := {.engineering, .response} ∪ settleAllBlocks) _ _ _ p fun i => ?_).mono (by simp)
    refine .ite ?_ (p.reply_frame_in (by simp) ..)
    exact (((p.endShelving_frame i).mono (tripBlocks_subset_settleAllBlocks.trans Set.subset_union_right)).settledAll
      Set.subset_union_right).next (Part.engineeringDone_frame ..)
  case discardPeerTrip =>
    refine (Part.engineering_frame (T := {.peerTrips, .engineering, .response} ∪ settleAllBlocks) _ _ p ?_).mono (by simp)
    split
    · exact p.reply_frame_in (by simp) ..
    · refine .ite (p.reply_frame_in (by simp) ..) ?_
      exact ((p.removePeerTrip_frame _).mono.settledAll Set.subset_union_right).next (Part.engineeringDone_frame ..)
  -- Demand, mode and burners.
  case offerDemand | withdrawDemand => exact p.offerCommand_frame ..
  case setMode =>
    refine .ite (p.reply_frame_in (by simp) ..) ?_
    split
    · exact p.reply_frame_in (by simp) ..
    · exact .ite (p.reply_frame_in (by simp) ..) (.ite
        (((p.changeMode_frame _).mono (by simp [Set.insert_subset_iff, Set.subset_union_right])).replied (by simp) ..) (p.reply_frame_in (by simp) ..))
  case startBurner =>
    refine Part.burnerRow_frame fun b => ?_
    exact .ite (p.reply_frame_in (by simp) ..) (.ite (p.reply_frame_in (by simp) ..) (.ite (p.reply_frame_in (by simp) ..)
      (ChangesOnly.done ((p.enterLightWait_frame b _).mono fun _ h => .inl (.inr h)) _)))
  case stopBurner =>
    refine Part.burnerRow_frame fun b => ?_
    have stops : ∀ st fix mark, ChangesOnly ({.response} ∪ burnerBlocks b ∪ settleBlocks) p
        ((p.burnerTo b st fix mark).settle.reply 0x2B .done) := fun st fix mark =>
      ChangesOnly.done ((p.burnerTo_frame b st fix mark).mono fun _ h => .inl (.inr h)) _
    split
    · exact stops ..
    · exact stops ..
    · exact stops ..
    · exact stops ..
    · exact stops ..
    · exact p.reply_frame_in (by simp) ..
  case resumeBurner =>
    refine Part.burnerRow_frame fun b => ?_
    exact .ite (p.reply_frame_in (by simp) ..) (.ite (p.reply_frame_in (by simp) ..) (.ite (p.reply_frame_in (by simp) ..)
      (ChangesOnly.done ((p.resume_frame b).mono fun _ h => .inl (.inr h)) _)))
  case resetTripBurner =>
    refine Part.burnerRow_frame fun b => ?_
    exact .ite (p.reply_frame_in (by simp) ..) (.ite (p.reply_frame_in (by simp) ..)
      (ChangesOnly.done ((p.burnerTo_frame b _ _ _).mono fun _ h => .inl (.inr h)) _))
  case setMix burner m0 m1 m2 m3 m4 m5 =>
    refine (Part.burnerCommand_frame (T := fun b => {.response} ∪ ({.ramp b} ∪ mixBlocks ∪ leaveBlocks 2) ∪ settleBlocks)
      _ _ _ p fun b => ?_).mono ?_
    · exact .ite (p.reply_frame_in (by simp) ..) (.ite (p.reply_frame_in (by simp) ..)
        (ChangesOnly.done ((p.setMix_frame b _).mono fun _ h => .inl (.inr h)) _))
    · rintro x (rfl | ⟨b, hb, (hx | ((rfl | hx) | hx)) | hx⟩)
      · exact .inl (.inl (.inl (.inl rfl)))
      · exact .inl (.inl (.inl (.inl hx)))
      · exact .inl (.inl (.inl (.inr ⟨b, hb, rfl⟩)))
      · exact .inl (.inl (.inr hx))
      · exact .inl (.inr hx)
      · exact .inr hx
  -- The cooler.
  case startFan =>
    refine Part.fanRow_frame fun n => ?_
    refine .ite (p.reply_frame_in (by simp) ..) (.ite (p.reply_frame_in (by simp) ..) (ChangesOnly.done ?_ _))
    refine ChangesOnly.mono (ChangesOnly.next (p.fanTo_frame n _) (Part.request_frame 1 n.val _) ?_) (fun _ h => .inl (.inr h))
    simp [fanBlocks, leaveBlocks, Set.insert_subset_iff]
  case stopFan =>
    refine Part.fanRow_frame fun n => ?_
    have stops : ChangesOnly ({.response} ∪ fanBlocks n ∪ settleBlocks) p ((p.fanTo n .stopped).settle.reply 0x3A .done) :=
      ChangesOnly.done ((p.fanTo_frame n _).mono fun _ h => .inl (.inr h)) _
    split
    · exact stops
    · exact stops
    · exact stops
    · exact p.reply_frame_in (by simp) ..
  case resetFan =>
    refine Part.fanRow_frame fun n => ?_
    exact .ite (p.reply_frame_in (by simp) ..) (.ite (p.reply_frame_in (by simp) ..)
      (ChangesOnly.done ((p.fanTo_frame n _).mono fun _ h => .inl (.inr h)) _))
  case startGrate | stopGrate =>
    refine (Part.grateCommand_frame (T := {.grate, .grateOut, .response} ∪ settleBlocks) _ _ p ?_).mono (by simp)
    exact .ite (ChangesOnly.done ((p.grateTo_frame _).mono) _) (p.reply_frame_in (by simp) ..)
  case setBedPressure =>
    refine (Part.grateCommand_frame (T := {.grate, .response}) _ _ p ?_).mono (by simp)
    exact .ite (p.reply_frame_in (by simp) ..) ((p.updGrate_frame _).mono.replied (by simp) ..)
  -- Points, first-out, horn.
  case acknowledge =>
    refine (Part.pointCommand_frame (T := {.points, .horn, .hornOut, .response}) _ _ _ p fun i => ?_).mono
      (by simp)
    exact .ite (((p.ackPoint_frame i).mono.next (Part.hornCheck_frame _)).replied (by simp) ..) (p.reply_frame_in (by simp) ..)
  case acknowledgeAll =>
    exact .ite (((ChangesOnly.forAll (fun i q => q.ackPoint_frame i) _ p).mono.next (Part.hornCheck_frame _)).replied (by simp) ..)
      (p.reply_frame_in (by simp) ..)
  case resetTripPoint | resetAlarm =>
    exact (Part.pointCommand_frame _ _ _ p fun i => p.resetPoint_frame _ i _).mono (by simp)
  case raiseExternal | clearExternal => exact p.hostCondition_frame ..
  case resetFirstOut =>
    exact .ite (p.reply_frame_in (by simp) ..) (.ite (p.reply_frame_in (by simp) ..)
      ((p.firstOut_frame _ _).mono.replied (by simp) _ _ _))
  case clearSummary =>
    refine .ite (ChangesOnly.replied ((Part.points_frame _ p).mono.settledAll Set.subset_union_right) (by simp) _ _ _) (p.reply_frame_in (by simp) ..)
  case silenceHorn =>
    exact .ite ((p.setHorn_frame false).mono.replied (by simp) ..) (p.reply_frame_in (by simp) ..)
  -- Shift records.
  case closeShift =>
    refine .ite (p.reply_frame_in (by simp) ..) (.ite (p.reply_frame_in (by simp) ..) (ChangesOnly.done ?_ _))
    exact (p.changeShift_frame ..).mono.next (Part.queueFrame_frame _ _)
  case writeShiftNote =>
    exact .ite ((p.record_frame _).mono.replied (by simp) ..) (p.reply_frame_in (by simp) ..)

/-- The frame of a row that is no host command. -/
theorem event_frame {c : Instr} (event : c.spelling = none) (p : Part) : ChangesOnly (rowBlocks c) p (effect c p) := by
  cases c
  case configureStation | startStation | restartStation | readStation | openEngineering | closeEngineering
    | readLineStatus | readPeerChanges | readPeerEntry | readResources | offerDemand | withdrawDemand
    | readAllocation | setMode | configureBurner | startBurner | stopBurner | resumeBurner | resetTripPoint
    | resetTripBurner | readBurner | configureFuel | writeFuel | readFuelTable | configureFeeder | setMix
    | writePulseWeight | readFeeder | configureFan | startFan | stopFan | resetFan | configureGrate | startGrate
    | stopGrate | setBedPressure | readCooler | acknowledge | acknowledgeAll | resetAlarm | shelve | unshelve
    | configureExternalPoint | raiseExternal | clearExternal | discardPeerTrip | readFirstOut | resetFirstOut
    | readSummary | clearSummary | silenceHorn | readPoint | readPointStates | closeShift | readShiftRecord
    | writeShiftNote | readField =>
    exact absurd event (Option.some_ne_none _)
  all_goals
    refine frame_of_exec (fun s s' h => ?_) p
    dsimp only [exec] at h
    refine ChangesOnly.of_act h fun p => ?_
    dsimp only [rowBlocks]
  -- The locations of the host port.
  case pinReset => exact ⟨fun b hb => absurd (Set.mem_univ b) hb⟩
  case commandByteWrite => exact p.updHost_frame _ _ fun x => by split <;> simp
  case submit =>
    refine .ite (p.updHost_frame _ _) ?_
    split
    · exact (p.updHost_frame _ _).trans (Part.reply_frame_in (by simp) ..)
    · exact (p.updHost_frame _ _).trans (Part.updHost_frame _ _ _)
  case responseByteRead =>
    exact p.updHost_frame _ _ fun x => by unfold HostPort.readByte; split <;> simp
  case interruptEnablesWrite => exact p.updHost_frame _ _
  case eventWindowRead =>
    exact (p.updHost_frame _ _).trans ((Part.readWindow_frame _ _).mono)
  case eventWindowWrite => exact .refl
  -- The engineering window and its commands.
  case engineeringDeadline =>
    exact Part.whenDue_frame _ _ p fun q => q.updHost_frame _ _ fun x => by simp [HostPort.closeWindow]
  case engNegated => exact p.updHost_frame _ _ fun x => by simp [HostPort.closeWindow]
  -- The line.
  case accessGapReached idle =>
    have heard : ChangesOnly {.receiving, .lineCounts, .record, .queue, .queueOut, .sending} p
        (if p.listening && decide (2 < idle) then p.lineIdled [] else p) := .ite (p.lineIdled_frame []).mono .refl
    split
    · exact .ite (heard.next (Part.beginAttempt_frame _)) heard
    · exact heard
  case frameSentWhole =>
    split
    · exact .ite ((p.sentWhole_frame _).mono.settledAll Set.subset_union_right) .refl
    · exact .refl
  case readBackMismatch =>
    split
    · exact p.breakOff_frame _
    · exact .refl
  case breakEnded =>
    have ended : ChangesOnly ({.queueOut, .sending, .receiving, .lineCounts} ∪ sendBlocks ∪ settleAllBlocks) p p.endBreak :=
      p.endBreak_frame.mono
    split
    · exact (ended.next (Part.failAttempt_frame ..)).settledAll Set.subset_union_right
    · exact ended
    · exact .refl
  case statusPeriodExpiry =>
    refine Part.whenDue_frame _ _ p fun q => ?_
    exact ((q.setStatusDue_frame _).mono.next (Part.queueFrame_frame _ _)).settled Set.subset_union_right
  case frameReceived | badHeaderDiscard =>
    refine .ite ?_ .refl
    exact (((p.takeChars_frame _).mono Set.subset_union_left).settledAll Set.subset_union_right).next (Part.keepAborted_frame _ _)
  case partialFrameDiscard =>
    exact .ite .refl (.ite p.deafen_frame.mono (p.discardPartial_frame _).mono)
  case interCharacterGap => exact .ite (p.lineIdled_frame _).mono .refl
  case duplicateDeadlineExpiry =>
    exact Part.whenDue_frame _ _ p fun q => q.endDuplicate_frame.mono.settledAll Set.subset_union_right
  case lineStuckSet | lineStuckCleared =>
    exact .ite .refl ((p.setStuck_frame _).mono.settledAll Set.subset_union_right)
  case peerAgingExpiry =>
    refine .ite .refl (Part.whenDue_frame _ _ p fun q => ?_)
    exact ((q.losePeer_frame _).mono.next (Part.refreshMarks_frame _)).settledAll Set.subset_union_right
  -- Line resources.
  case staggerEnd k =>
    refine .timed fun q => ChangesOnly.settled ?_ Set.subset_union_right
    exact .ite (q.enterClaiming_frame k).mono (q.updRes_frame k _ _ fun r => by simp)
  case settleDeadline k =>
    exact .timed fun q => ((q.grant_frame k).mono Set.subset_union_left).settledAll Set.subset_union_right
  case claimantExpiry k =>
    exact Part.whenDue_frame _ _ p fun q => (q.updRes_frame k _ _ fun r => by simp).settled Set.subset_union_right
  case reclaimDelayEnd k =>
    exact Part.whenDue_frame _ _ p fun q => (q.updRes_frame k _ _ fun r => by simp).settled Set.subset_union_right
  case airHoldExpiry =>
    exact .timed fun q => (q.ceiling_frame ..).mono.settled .rfl
  -- Burners and feeders.
  case feederControlPeriod =>
    exact .timed fun q => (q.controlPeriod_frame _).mono (by rw [← Set.union_assoc])
  case mixRampStep b =>
    split
    · exact .timed fun q => ((q.rampStep_frame b _).mono Set.subset_union_left).settled Set.subset_union_right
    · exact .refl
  case deviationTime f | noFlowTime f =>
    refine Part.whenDue_frame _ _ p fun q => ChangesOnly.settled ?_ Set.subset_union_right
    refine (Part.updFeeder_drive_frame f _ q ?_).mono Set.subset_union_left
    exact fun _ => rfl
  case lightWaitExpiry b | loadingDeadline b | heldDeadline b =>
    exact .timed fun q => ((q.burnerTo_frame b _ _ _).mono Set.subset_union_left).settled Set.subset_union_right
  case flameProven b =>
    exact Part.whenDue_frame _ _ p fun q =>
      ((q.burnerTo_frame b _ _ _).mono Set.subset_union_left).settled Set.subset_union_right
  case ignitionDeadline b =>
    exact .timed fun q => (((q.failLightOff_frame b).mono tripBlocks_subset_settleAllBlocks).settledAll .rfl).hornKept .rfl _
  case flameFailTime b =>
    exact Part.whenDue_frame _ _ p fun q =>
      (((q.failFlame_frame b).mono tripBlocks_subset_settleAllBlocks).settledAll .rfl).hornKept .rfl _
  case flameWeakTime b =>
    exact Part.whenDue_frame _ _ p fun q => (q.updBurner_frame b _).mono.settled Set.subset_union_right
  -- The field, the cooler, shelving.
  case fieldScanStart => exact Part.whenDue_frame _ _ p fun q => q.startScan_frame _
  case fieldScanComplete =>
    refine ChangesOnly.trans (.ite .refl (p.startScan_frame _).mono) ((Part.completeScan_frame ..).mono
      (Set.union_subset (by simp [Set.insert_subset_iff]) scanBlocks_subset))
  case fanStartDeadline n =>
    refine .timed fun q => (((q.failStart_frame n).mono ?_).settledAll Set.subset_union_right).hornKept Set.subset_union_right _
    exact Set.union_subset_union_right _ (Set.subset_union_right.trans settleBlocks_subset_settleAllBlocks)
  case fanFeedbackLoss n =>
    refine .timed fun q => (((q.loseFan_frame n).mono ?_).settledAll Set.subset_union_right).hornKept Set.subset_union_right _
    exact Set.union_subset_union_right _ (Set.subset_union_right.trans settleBlocks_subset_settleAllBlocks)
  case heldFlowExpiry n => exact Part.whenDue_frame _ _ p fun q => q.updFan_frame n _
  case coolingPeriod => exact .timed fun q => q.coolingPeriod_frame _
  case grateFeedbackLoss =>
    refine .timed fun q => ((q.faultGrate_frame.mono ?_).settledAll Set.subset_union_right).hornKept Set.subset_union_right _
    exact Set.union_subset_union_right _ tripBlocks_subset_settleAllBlocks
  case bedPressureHighTime =>
    exact Part.whenDue_frame _ _ p fun q => (q.updGrate_frame _).mono.settled Set.subset_union_right
  case shelvingExpiry i =>
    exact Part.whenDue_frame _ _ p fun q =>
      ((q.endShelving_frame i).mono tripBlocks_subset_settleAllBlocks).settledAll .rfl

theorem effect_frame (c : Instr) (p : Part) : ChangesOnly (rowBlocks c) p (effect c p) := by
  by_cases h : c.spelling = none
  · exact event_frame h p
  · exact command_frame h p

/-- Settles O2, from the frame of each row. -/
theorem rowsKeepTheirFrames : Obligations.RowsKeepTheirFrames := fun c p => ⟨_, takes_effect c p, effect_frame c p⟩

/-- Settles O1: every row completes. -/
theorem stepTakesFrontRow : Obligations.StepTakesFrontRow := fun c s => ⟨rfl, _, takes_effect c s.part s.pending⟩

/-! ## The clock of the model -/

theorem insertRow_perm (e : Nat × Instr) (l : List (Nat × Instr)) : (insertRow e l).Perm (e :: l) := by
  induction l with
  | nil => exact .rfl
  | cons f fs ih =>
    unfold insertRow
    split
    · exact .rfl
    · exact (ih.cons f).trans (.swap e f fs)

/-- Ranking the due rows only reorders them. -/
theorem ranked_perm (now : Time) (l : List Instr) : (ranked now l).Perm l := by
  have sorted : ∀ m : List (Nat × Instr), (m.foldr insertRow []).Perm m := fun m => by
    induction m with
    | nil => exact .rfl
    | cons e m ih => exact (insertRow_perm e _).trans (ih.cons e)
  refine ((sorted _).map Prod.snd).trans (.of_eq ?_)
  simp [List.map_map, Function.comp_def, List.zipIdx_map_fst]

/-- Settles O3: ranking the due rows only reorders them. -/
theorem idleStepPassesOneMillisecond : Obligations.IdleStepPassesOneMillisecond := by
  rintro p q t rfl rfl
  exact ⟨_, rfl, ranked_perm ..⟩

/-! ## The bytes of a command -/

/-- Settles O9, from the lemma about each row. -/
theorem commandBytesSpellTheirRow : Obligations.CommandBytesSpellTheirRow := by
  intro i bytes
  cases i
  case pinReset | commandByteWrite | submit | responseByteRead | interruptEnablesWrite | eventWindowRead
    | eventWindowWrite | engineeringDeadline | engNegated | shelvingExpiry | accessGapReached | frameSentWhole
    | readBackMismatch | breakEnded | statusPeriodExpiry | frameReceived | badHeaderDiscard
    | partialFrameDiscard | interCharacterGap | duplicateDeadlineExpiry | lineStuckSet | lineStuckCleared
    | peerAgingExpiry | staggerEnd | settleDeadline | claimantExpiry | reclaimDelayEnd | airHoldExpiry
    | feederControlPeriod | mixRampStep | deviationTime | noFlowTime | lightWaitExpiry | flameProven
    | ignitionDeadline | loadingDeadline | flameFailTime | flameWeakTime | heldDeadline | fieldScanStart
    | fieldScanComplete | fanStartDeadline | fanFeedbackLoss | heldFlowExpiry | coolingPeriod
    | grateFeedbackLoss | bedPressureHighTime =>
    rintro - ⟨⟩
  case configureStation => exact Laws.Spelled.configureStation _ _ _ _ _ _ _
  case startStation => exact Laws.Spelled.startStation _
  case restartStation => exact Laws.Spelled.restartStation _
  case readStation => exact Laws.Spelled.readStation _
  case openEngineering => exact Laws.Spelled.openEngineering _ _
  case closeEngineering => exact Laws.Spelled.closeEngineering _
  case readLineStatus => exact Laws.Spelled.readLineStatus _
  case readPeerChanges => exact Laws.Spelled.readPeerChanges _
  case readPeerEntry => exact Laws.Spelled.readPeerEntry _ _
  case readResources => exact Laws.Spelled.readResources _
  case offerDemand => exact Laws.Spelled.offerDemand _ _
  case withdrawDemand => exact Laws.Spelled.withdrawDemand _
  case readAllocation => exact Laws.Spelled.readAllocation _
  case setMode => exact Laws.Spelled.setMode _ _
  case configureBurner => exact Laws.Spelled.configureBurner _ _ _ _ _ _ _ _ _ _ _ _
  case startBurner => exact Laws.Spelled.startBurner _ _
  case stopBurner => exact Laws.Spelled.stopBurner _ _
  case resumeBurner => exact Laws.Spelled.resumeBurner _ _
  case resetTripPoint => exact Laws.Spelled.resetTripPoint _ _
  case resetTripBurner => exact Laws.Spelled.resetTripBurner _ _
  case readBurner => exact Laws.Spelled.readBurner _ _
  case configureFuel => exact Laws.Spelled.configureFuel _ _ _
  case writeFuel => exact Laws.Spelled.writeFuel _ _ _
  case readFuelTable => exact Laws.Spelled.readFuelTable _
  case configureFeeder => exact Laws.Spelled.configureFeeder _ _ _ _ _ _ _ _ _ _ _ _ _
  case setMix => exact Laws.Spelled.setMix _ _ _ _ _ _ _ _
  case writePulseWeight => exact Laws.Spelled.writePulseWeight _ _ _
  case readFeeder => exact Laws.Spelled.readFeeder _ _
  case configureFan => exact Laws.Spelled.configureFan _ _ _ _ _ _ _ _ _ _ _
  case startFan => exact Laws.Spelled.startFan _ _
  case stopFan => exact Laws.Spelled.stopFan _ _
  case resetFan => exact Laws.Spelled.resetFan _ _
  case configureGrate => exact Laws.Spelled.configureGrate _ _ _ _ _ _ _ _ _
  case startGrate => exact Laws.Spelled.startGrate _
  case stopGrate => exact Laws.Spelled.stopGrate _
  case setBedPressure => exact Laws.Spelled.setBedPressure _ _
  case readCooler => exact Laws.Spelled.readCooler _
  case acknowledge => exact Laws.Spelled.acknowledge _ _
  case acknowledgeAll => exact Laws.Spelled.acknowledgeAll _
  case resetAlarm => exact Laws.Spelled.resetAlarm _ _
  case shelve => exact Laws.Spelled.shelve _ _ _
  case unshelve => exact Laws.Spelled.unshelve _ _
  case configureExternalPoint => exact Laws.Spelled.configureExternalPoint _ _ _ _ _ _ _ _ _
  case raiseExternal => exact Laws.Spelled.raiseExternal _ _
  case clearExternal => exact Laws.Spelled.clearExternal _ _
  case discardPeerTrip => exact Laws.Spelled.discardPeerTrip _ _
  case readFirstOut => exact Laws.Spelled.readFirstOut _
  case resetFirstOut => exact Laws.Spelled.resetFirstOut _
  case readSummary => exact Laws.Spelled.readSummary _
  case clearSummary => exact Laws.Spelled.clearSummary _
  case silenceHorn => exact Laws.Spelled.silenceHorn _
  case readPoint => exact Laws.Spelled.readPoint _ _
  case readPointStates => exact Laws.Spelled.readPointStates _
  case closeShift => exact Laws.Spelled.closeShift _ _
  case readShiftRecord => exact Laws.Spelled.readShiftRecord _ _ _
  case writeShiftNote => exact Laws.Spelled.writeShiftNote _ _
  case readField => exact Laws.Spelled.readField _

end Sys2Proof.Machine
end

section
/-! SUPPORT. The host port: its locations, the event window, the identification, the engineering window, reads of data, and
the checks that commands begin with. -/

namespace Sys2Proof.Machine

-- One proof at a time: the whole package as one text must not start a thread for each of them.
set_option Elab.async false

open Sys2Proof.Config

/-! ## A row whose effect is written out -/

theorem effect_of_exec {c : Instr} {p r : Part} (h : exec c ⟨p, []⟩ = .next ⟨r, []⟩) : effect c p = r := by
  rw [effect, h]

/-- A row taken in p, whose effect is written out as r. -/
theorem takes_row {c : Instr} {p q r : Part} (h : exec c ⟨p, []⟩ = .next ⟨r, []⟩) (e : r = q) : Takes c p q :=
  takes_iff.2 ((effect_of_exec h).trans e)

/-- The row of a timer of instant t, whose effect is `f` once t has come. -/
theorem takesAt_row {c : Instr} {p r : Part} (h : exec c ⟨p, []⟩ = .next ⟨r, []⟩) {t : Time} {f : Part → Part}
    {after : Part → Prop} (e : r = p.whenDue (some t) f)
    (come : reached p.now t = true → (f p).now = p.now ∧ after (f p)) : TakesAt c t p after :=
  takesAt_of_effect ((effect_of_exec h).trans e) come

theorem Part.reply_eq_answer (cmd : Nat) (code : Code) (data : List Byte) (p : Part) :
    p.reply cmd code data = p.answer cmd code data := rfl

/-! ## Writes and reads of the port's locations -/

theorem formCode_nil (overLong : Bool) : formCode overLong [] = some .unknown := rfl

theorem formCode_cons (overLong : Bool) (c : Byte) (operands : List Byte) : formCode overLong (c :: operands) =
    match operandCount c.toNat with
    | none => some .unknown
    | some n => if overLong || operands.length != n then some .badLength else none := by
  have code : byteAt (c :: operands) 0 = c.toNat := rfl
  unfold formCode
  rw [code]
  cases operandCount c.toNat <;> rfl

section
variable {p : Part} (ready : p.host.inProgress = none)
include ready

theorem takes_submit_refused {code : Code} (h : formCode p.host.overLong p.host.buffer = some code) :
    Takes .submit p (Part.answer (byteAt p.host.buffer 0) code []
      { p with host := { p.host with buffer := [], overLong := false } }) := by
  refine takes_row rfl ?_
  simp only [ready, h, Option.isSome_none, Bool.false_eq_true, if_false]
  rfl

theorem takes_submit_taken (h : formCode p.host.overLong p.host.buffer = none) :
    Takes .submit p { p with host := { p.host with
      buffer := [], overLong := false, inProgress := some p.host.buffer } } := by
  refine takes_row rfl ?_
  simp only [ready, h, Option.isSome_none, Bool.false_eq_true, if_false]
  rfl

end

/-- Settles O5, location by location of the port. -/
theorem hostPortWrites : Obligations.HostPortWrites := by
  refine ⟨fun p b => ⟨fun room => ?_, fun full => ?_, ⟨b.truncate 5, fun i hi => ?_, fun _ => rfl⟩, fun _ => rfl⟩, fun p => ⟨fun busy => ?_, fun ready => ⟨fun empty => ?_, fun c operands filled => ?_⟩⟩⟩
  · exact takes_row rfl (by simp [Part.updHost, bufferSize, room])
  · exact takes_row rfl (by simp [Part.updHost, bufferSize, Nat.not_lt.2 full])
  · simp [hi]
  · exact takes_row rfl (if_pos busy)
  · have := takes_submit_refused ready (empty ▸ formCode_nil _)
    rwa [empty] at this
  · have form := formCode_cons p.host.overLong c operands
    rw [← filled] at form
    have code : byteAt p.host.buffer 0 = c.toNat := by rw [filled]; rfl
    refine ⟨fun unknown => ?_, fun n known => ⟨fun bad => ?_, fun short fits => ?_⟩⟩
    · have := takes_submit_refused ready (form.trans (by rw [unknown]))
      rwa [code] at this
    · have := takes_submit_refused (code := .badLength) ready (form.trans (by rw [known]; exact if_pos (by simpa using bad)))
      rwa [code] at this
    · have := takes_submit_taken ready (form.trans (by rw [known]; simp [short, fits]))
      rwa [filled] at this

/-- Settles O6, by what stands at the read position. -/
theorem responseByteReadOut : Obligations.ResponseByteReadOut := by
  refine fun p => ⟨fun b idle found => takes_row rfl ?_, fun h => takes_row rfl ?_⟩
  · simp only [Part.updHost, HostPort.readByte, idle, found]
    by_cases first : p.host.readPos = 0 <;> simp [first]
  · simp only [Part.updHost, HostPort.readByte]
    rcases h with busy | past
    · obtain ⟨c, hc⟩ := Option.isSome_iff_exists.1 busy
      rw [hc]
    · rw [List.getElem?_eq_none past]
      cases p.host.inProgress <;> rfl

/-! ## The event window -/

/-- The part after n reads of the event window. -/
def readWindowTimes (p : Part) (n : Nat) : Part := (effect .eventWindowRead)^[n] p

theorem readWindowTimes_succ (p : Part) (n : Nat) :
    readWindowTimes p (n + 1) = effect .eventWindowRead (readWindowTimes p n) :=
  Function.iterate_succ_apply' ..

theorem effect_eventWindowRead_alarms (p : Part) : (effect .eventWindowRead p).alarms = p.alarms.readWindow p.now := rfl
theorem effect_eventWindowRead_now (p : Part) : (effect .eventWindowRead p).now = p.now := rfl
theorem effect_eventWindowRead_dataOut (p : Part) : (effect .eventWindowRead p).host.dataOut = p.alarms.windowByte := rfl

/-- Within an entry: n reads of it done, the queue as found. -/
structure WindowAt (p q : Part) (n : Nat) : Prop where
  pos : q.alarms.readPos = n
  empty : q.alarms.showsEmpty = p.alarms.events.isEmpty
  events : q.alarms.events = p.alarms.events
  lost : q.alarms.lost = p.alarms.lost
  now : q.now = p.now

theorem WindowAt.start {p : Part} (h : p.alarms.readPos = 0) : WindowAt p p 0 :=
  ⟨h, by simp [Alarms.showsEmpty, h], rfl, rfl, rfl⟩

theorem WindowAt.next {p q : Part} {n : Nat} (h : WindowAt p q n) (hn : n < 10) :
    WindowAt p (effect .eventWindowRead q) (n + 1) := by
  have read : q.alarms.readWindow q.now =
      { q.alarms with readPos := q.alarms.readPos + 1, readEmpty := q.alarms.showsEmpty } := if_pos (h.pos ▸ hn)
  refine ⟨?_, ?_, ?_, ?_, h.now⟩ <;> rw [effect_eventWindowRead_alarms, read]
  · exact congrArg (· + 1) h.pos
  · exact (if_neg (Nat.succ_ne_zero _)).trans h.empty
  · exact h.events
  · exact h.lost

theorem windowAt_reads {p : Part} (h : p.alarms.readPos = 0) {n : Nat} (hn : n ≤ 10) :
    WindowAt p (readWindowTimes p n) n := by
  induction n with
  | zero => exact .start h
  | succ n ih =>
    rw [readWindowTimes_succ]
    exact (ih (by omega)).next (by omega)

/-- The eleventh read removes the entry shown. -/
theorem WindowAt.last {p q : Part} (h : WindowAt p q 10) :
    (effect .eventWindowRead q).alarms =
      { (if p.alarms.events.isEmpty then q.alarms else q.alarms.removeOldest p.now) with readPos := 0, readEmpty := false } := by
  have read : q.alarms.readWindow q.now =
      { (if q.alarms.showsEmpty then q.alarms else q.alarms.removeOldest q.now) with readPos := 0, readEmpty := false } :=
    if_neg (by rw [h.pos]; decide)
  rw [effect_eventWindowRead_alarms, read, h.empty, h.now]

/-- Settles O7: ten reads leave the queue as it is, the eleventh removes the oldest entry. -/
theorem eventWindowElevenReads : Obligations.EventWindowElevenReads := by
  intro p start
  have upTo : ∀ n ≤ 10, WindowAt p (readWindowTimes p n) n := fun n hn => windowAt_reads start hn
  have last := (upTo 10 le_rfl).last
  rw [← readWindowTimes_succ] at last
  refine ⟨readWindowTimes p, rfl, fun n hn => ⟨takes_iff.2 (readWindowTimes_succ p n).symm, ?_⟩, fun e es found => ?_,
    fun empty => ?_⟩
  · by_cases h : n = 10
    · subst h; rw [last]
    · rw [(upTo (n + 1) (by omega)).pos, Nat.mod_eq_of_lt (by omega)]
  · refine ⟨by simp [Event.bytes, be16, be32], fun n hn => ⟨?_, fun h => ?_⟩, ?_⟩
    · have at_n := upTo n (by omega)
      rw [readWindowTimes_succ, effect_eventWindowRead_dataOut, Alarms.windowByte, at_n.events, found, at_n.empty, found,
        at_n.pos]
      rfl
    · rw [(upTo (n + 1) (by omega)).events, found]
    · rw [last, found]
      have before := upTo 10 le_rfl
      simp only [List.isEmpty_cons, Bool.false_eq_true, if_false, Alarms.removeOldest, before.lost, before.events, found,
        List.tail_cons]
      by_cases none : p.alarms.lost = 0
      · simp [none]
      · simp [Nat.pos_of_ne_zero none, none]
  · refine ⟨fun n hn => ?_, ?_, ?_⟩
    · have at_n := upTo n (by omega)
      rw [readWindowTimes_succ, effect_eventWindowRead_dataOut, Alarms.windowByte, at_n.events, empty]
    · rw [last, empty]
      simpa [empty] using (upTo 10 le_rfl).events
    · rw [last, empty]
      simpa using (upTo 10 le_rfl).lost

/-! ## The identification -/

/-- The first cause of a list, counted from 1; 0 for none. -/
def firstOf (l : List Bool) : Nat :=
  match l.findIdx? id with
  | some i => i + 1
  | none => 0

theorem firstOf_eq_succ {l : List Bool} {n : Nat} :
    firstOf l = n + 1 ↔ ∃ h : n < l.length, l[n] = true ∧ ∀ (j : Nat) (hj : j < n), l[j] = false := by
  have found : firstOf l = n + 1 ↔ l.findIdx? id = some n := by
    unfold firstOf
    cases l.findIdx? id <;> simp
  rw [found, List.findIdx?_eq_some_iff_getElem]
  simp

theorem firstOf_eq_zero {l : List Bool} : firstOf l = 0 ↔ ∀ b ∈ l, b = false := by
  have found : firstOf l = 0 ↔ l.findIdx? id = none := by
    unfold firstOf
    cases l.findIdx? id <;> simp
  rw [found, List.findIdx?_eq_none_iff]
  simp

theorem any_id_iff_firstOf {l : List Bool} : l.any id = true ↔ firstOf l ≠ 0 := by
  rw [Ne, firstOf_eq_zero]
  simp

/-- The causes that are pending, as a function of their priority. -/
def Part.pendingCause (p : Part) : Fin 5 → Bool :=
  ![p.alarms.tripNew, !p.alarms.events.isEmpty, p.shift.closedCause, p.changeSummary.any id, p.host.ready]

theorem Part.enabledCauses_eq (p : Part) : List.zipWith (· && ·) p.causes p.host.enableList =
    List.ofFn fun i : Fin 5 => p.pendingCause i && p.host.enables.getLsbD i.val := rfl

/-- Settles O8: the identification is that of the first enabled cause. -/
theorem identificationIsHighestCause : Obligations.IdentificationIsHighestCause := by
  intro p
  have ident : p.identification = firstOf (List.ofFn fun i : Fin 5 => p.pendingCause i && p.host.enables.getLsbD i.val) :=
    congrArg firstOf p.enabledCauses_eq
  refine ⟨p.pendingCause, ⟨rfl, rfl, rfl, rfl, rfl⟩, fun i => ?_, ?_, ?_⟩
  · rw [ident, firstOf_eq_succ]
    simp only [List.length_ofFn, i.isLt, List.getElem_ofFn, exists_true_left]
    exact and_congr_right fun _ => ⟨fun h j hj => h j hj, fun h j hj => h ⟨j, hj.trans i.isLt⟩ hj⟩
  · rw [ident, firstOf_eq_zero]
    exact List.forall_mem_ofFn_iff
  · rw [ident, ← any_id_iff_firstOf, ← p.enabledCauses_eq]
    rfl

/-! ## Checks that commands begin with -/

/-- Settles O10: the lifecycle is the first check of every configuration command. -/
theorem configureOnlyWhileUnstarted : Obligations.ConfigureOnlyWhileUnstarted := by
  intro p started
  refine ⟨fun _ _ _ _ _ _ => ?_, fun _ _ _ _ _ _ _ _ _ _ _ => ?_, fun _ _ => ?_, fun _ _ _ _ _ _ _ _ _ _ _ _ => ?_,
    fun _ _ _ _ _ _ _ _ _ _ => ?_, fun _ _ _ _ _ _ _ _ => ?_, fun _ _ _ _ _ _ _ _ => ?_⟩
  all_goals
    refine takes_row rfl ?_
    exact if_pos started

section
variable {p : Part} {cmd : Nat}

theorem Part.burnerCommand_unstarted (h : p.started = false) (n : Nat) (f : Fin 2 → Part → Part) :
    p.burnerCommand cmd n f = p.answer cmd .wrongLifecycle [] := if_pos (by simp [h])

theorem Part.burnerCommand_out (h : p.started = true) {n : Nat} (hn : 2 ≤ n) (f : Fin 2 → Part → Part) :
    p.burnerCommand cmd n f = p.answer cmd .badOperand [] := by
  simp only [Part.burnerCommand, h, finOf_eq_none.2 hn]
  rfl

theorem Part.burnerCommand_unused (h : p.started = true) {b : Fin 2} (u : p.burners[b].cfg.used = false)
    (f : Fin 2 → Part → Part) : p.burnerCommand cmd b.val f = p.answer cmd .unusedObject [] := by
  simp only [Part.burnerCommand, h, finOf_val, u]
  rfl

theorem Part.burnerCommand_used (h : p.started = true) {b : Fin 2} (u : p.burners[b].cfg.used = true)
    (f : Fin 2 → Part → Part) : p.burnerCommand cmd b.val f = f b p := by
  simp only [Part.burnerCommand, h, finOf_val, u]
  rfl

theorem Part.fanCommand_unstarted (h : p.started = false) (n : Nat) (f : Fin 4 → Part → Part) :
    p.fanCommand cmd n f = p.answer cmd .wrongLifecycle [] := if_pos (by simp [h])

theorem Part.fanCommand_out (h : p.started = true) {n : Nat} (hn : 4 ≤ n) (f : Fin 4 → Part → Part) :
    p.fanCommand cmd n f = p.answer cmd .badOperand [] := by
  simp only [Part.fanCommand, h, finOf_eq_none.2 hn]
  rfl

theorem Part.fanCommand_unused (h : p.started = true) {n : Fin 4} (u : p.fans[n].cfg.used = false)
    (f : Fin 4 → Part → Part) : p.fanCommand cmd n.val f = p.answer cmd .unusedObject [] := by
  simp only [Part.fanCommand, h, finOf_val, u]
  rfl

theorem Part.fanCommand_used (h : p.started = true) {n : Fin 4} (u : p.fans[n].cfg.used = true)
    (f : Fin 4 → Part → Part) : p.fanCommand cmd n.val f = f n p := by
  simp only [Part.fanCommand, h, finOf_val, u]
  rfl

theorem Part.pointCommand_unstarted (h : p.started = false) (n : Nat) (f : Fin 62 → Part → Part) :
    p.pointCommand cmd n f = p.answer cmd .wrongLifecycle [] := if_pos (by simp [h])

theorem Part.pointCommand_out (h : p.started = true) {n : Nat} (hn : 62 ≤ n) (f : Fin 62 → Part → Part) :
    p.pointCommand cmd n f = p.answer cmd .badOperand [] := by
  simp only [Part.pointCommand, h, finOf_eq_none.2 hn]
  rfl

theorem Part.pointCommand_point (h : p.started = true) (i : Fin 62) (f : Fin 62 → Part → Part) :
    p.pointCommand cmd i.val f = f i p := by
  simp only [Part.pointCommand, h, finOf_val]
  rfl

theorem Part.hostCondition_unstarted (h : p.started = false) (n : Nat) (on : Bool) :
    p.hostCondition cmd n on = p.answer cmd .wrongLifecycle [] := if_pos (by simp [h])

theorem Part.hostCondition_out (h : p.started = true) {n : Nat} (hn : 16 ≤ n) (on : Bool) :
    p.hostCondition cmd n on = p.answer cmd .badOperand [] := by
  simp only [Part.hostCondition, h, finOf_eq_none.2 hn]
  rfl

theorem Part.hostCondition_unused (h : p.started = true) {n : Fin 16} (u : p.alarms.ext[n].used = false) (on : Bool) :
    p.hostCondition cmd n.val on = p.answer cmd .unusedObject [] := by
  simp only [Part.hostCondition, h, finOf_val, u]
  rfl

theorem Part.hostCondition_field (h : p.started = true) {n : Fin 16} (u : p.alarms.ext[n].used = true)
    (s : p.alarms.ext[n].source = .field) (on : Bool) : p.hostCondition cmd n.val on = p.answer cmd .wrongState [] := by
  simp only [Part.hostCondition, h, finOf_val, u, s]
  rfl

theorem Part.hostCondition_host (h : p.started = true) {n : Fin 16} (u : p.alarms.ext[n].used = true)
    (s : p.alarms.ext[n].source = .host) (on : Bool) : p.hostCondition cmd n.val on =
      Part.answer cmd .done [] (p.setExt n { p.alarms.ext[n] with cond := on }).settleAll := by
  simp only [Part.hostCondition, h, finOf_val, u, s, Part.reply_eq_answer, Bool.not_true, Bool.false_eq_true, if_false,
    reduceCtorEq]

theorem Part.grateCommand_unstarted (h : p.started = false) (f : Part → Part) :
    p.grateCommand cmd f = p.answer cmd .wrongLifecycle [] := if_pos (by simp [h])

theorem Part.grateCommand_unused (h : p.started = true) (u : p.grate.cfg.used = false) (f : Part → Part) :
    p.grateCommand cmd f = p.answer cmd .unusedObject [] := by
  simp only [Part.grateCommand, h, u]
  rfl

theorem Part.grateCommand_used (h : p.started = true) (u : p.grate.cfg.used = true) (f : Part → Part) :
    p.grateCommand cmd f = f p := by
  simp only [Part.grateCommand, h, u]
  rfl

end

/-- Settles O40, from the checks of each family of commands. -/
theorem objectNumbersChecked : Obligations.ObjectNumbersChecked := by
  refine ⟨fun p cmd row m0 m1 m2 m3 m4 m5 h => ?_, fun p cmd row h => ?_, fun p cmd row h => ?_, fun p cmd row h => ?_,
    fun p cmd row pressure h => ?_⟩
  all_goals simp only [List.mem_cons, Prod.mk.injEq, List.not_mem_nil, or_false] at h
  · rcases h with ⟨rfl, rfl⟩ | ⟨rfl, rfl⟩ | ⟨rfl, rfl⟩ | ⟨rfl, rfl⟩ | ⟨rfl, rfl⟩
    all_goals
      refine ⟨fun s n => ?_, fun s n hn => ?_, fun s b u => ?_⟩ <;> refine takes_row rfl ?_
      · exact Part.burnerCommand_unstarted s n _
      · exact Part.burnerCommand_out s hn _
      · exact Part.burnerCommand_unused s u _
  · rcases h with ⟨rfl, rfl⟩ | ⟨rfl, rfl⟩ | ⟨rfl, rfl⟩
    all_goals
      refine ⟨fun s n => ?_, fun s n hn => ?_, fun s b u => ?_⟩ <;> refine takes_row rfl ?_
      · exact Part.fanCommand_unstarted s n _
      · exact Part.fanCommand_out s hn _
      · exact Part.fanCommand_unused s u _
  · rcases h with ⟨rfl, rfl⟩ | ⟨rfl, rfl⟩ | ⟨rfl, rfl⟩
    all_goals
      refine ⟨fun s n => ?_, fun s n hn => ?_⟩ <;> refine takes_row rfl ?_
      · exact Part.pointCommand_unstarted s n _
      · exact Part.pointCommand_out s hn _
  · rcases h with ⟨rfl, rfl⟩ | ⟨rfl, rfl⟩
    all_goals
      refine ⟨fun s n => ?_, fun s n hn => ?_, fun s b u => ?_, fun s b u f => ?_⟩ <;> refine takes_row rfl ?_
      · exact Part.hostCondition_unstarted s n _
      · exact Part.hostCondition_out s hn _
      · exact Part.hostCondition_unused s u _
      · exact Part.hostCondition_field s u f _
  · rcases h with ⟨rfl, rfl⟩ | ⟨rfl, rfl⟩ | ⟨rfl, rfl⟩
    all_goals
      refine ⟨fun s => ?_, fun s u => ?_⟩ <;> refine takes_row rfl ?_
      · exact Part.grateCommand_unstarted s _
      · exact Part.grateCommand_unused s u _

/-! ## The engineering window -/

theorem Part.engineering_locked {p : Part} (h : p.host.window = none) (cmd : Nat) (f : Part → Part) :
    p.engineering cmd f = p.answer cmd .locked [] := if_neg (by simp [h])

theorem Part.engineering_open {p : Part} (h : p.host.window.isSome = true) (cmd : Nat) (f : Part → Part) :
    p.engineering cmd f = f p := if_pos h

theorem Part.engineeringDue_renewed {p q : Part} {t : Time} {cmd : Nat} (h : p.host.window = some t)
    (come : reached p.now t = true) (hq : q.host = p.host.renewed cmd p.now) : q.engineeringDue = some q.now := by
  refine q.engineeringDue_lapsed (later p.now engineeringTime) ?_ ?_
  · rw [hq, HostPort.renewed]
  · rw [hq, HostPort.renewed, h, Option.any_some, come, Bool.or_true]

section
variable {p : Part}

theorem takes_openEngineering_closed (closed : p.host.window = none) : Takes (.openEngineering true) p
    { p with shift := { p.shift with current := p.shift.current.map fun r => { r with engineering := true } },
             host := { p.host.answered 0x14 .done [] with eng := true, window := some (later p.now 900000) } } := by
  have renew : p.host.renew p.now = { p.host with window := some (later p.now 900000) } := by
    rw [HostPort.renew, closed, Option.any_none, Bool.or_false]
  refine takes_row rfl ?_
  simp only [if_true, closed, Option.isNone_none, Part.updHost, renew]
  rfl

theorem takes_openEngineering_open {t : Time} (opened : p.host.window = some t) : Takes (.openEngineering true) p
    { p with host := { p.host.answered 0x14 .done [] with
        eng := true, window := some (later p.now 900000), lapsed := p.host.lapsed || reached p.now t } } := by
  have renew : p.host.renew p.now =
      { p.host with window := some (later p.now 900000), lapsed := p.host.lapsed || reached p.now t } := by
    rw [HostPort.renew, opened, Option.any_some]
  refine takes_row rfl ?_
  simp only [if_true, opened, Option.isNone_some, Bool.false_eq_true, if_false, Part.updHost, renew]
  rfl

theorem takes_openEngineering_negated : Takes (.openEngineering false) p
    { p with host := { p.host.answered 0x14 .locked [] with eng := false, window := none, lapsed := false } } :=
  takes_row rfl rfl

theorem takes_closeEngineering_open (opened : p.host.window.isSome = true) : Takes .closeEngineering p
    { p with host := { p.host.answered 0x15 .done [] with window := none, lapsed := false } } :=
  takes_row rfl (if_pos opened)

theorem takes_closeEngineering_closed (closed : p.host.window = none) :
    Takes .closeEngineering p (p.answer 0x15 .wrongState []) :=
  takes_row rfl (if_neg (by simp [closed]))

theorem takes_engineeringDeadline_due (due : p.engineeringDue = some p.now) : Takes .engineeringDeadline p
    { p with host := { p.host with window := none, lapsed := false } } := by
  refine takes_row rfl ?_
  dsimp only
  rw [due, Part.whenDue_come _ _ _ (reached_self _)]
  rfl

theorem takesAt_engineeringDeadline {t : Time} (opened : p.host.window = some t) (kept : p.host.lapsed = false) :
    TakesAt .engineeringDeadline t p fun q => q = { p with host := { p.host with window := none, lapsed := false } } := by
  refine takesAt_row (f := fun q => q.updHost HostPort.closeWindow) rfl ?_ fun _ => ⟨rfl, rfl⟩
  dsimp only
  rw [p.engineeringDue_kept kept, opened]

theorem takes_engineeringDeadline_closed (closed : p.host.window = none) : Takes .engineeringDeadline p p := by
  have none : p.engineeringDue = none := by simp [Part.engineeringDue, closed]
  refine takes_row rfl ?_
  dsimp only
  rw [none]
  rfl

/-- The five engineering commands are LOCKED while the window is CLOSED. -/
theorem takes_locked (closed : p.host.window = none) : (∀ i cv, Takes (.writeFuel i cv) p (p.answer 0x31 .locked [])) ∧
    (∀ f w, Takes (.writePulseWeight f w) p (p.answer 0x35 .locked [])) ∧
    (∀ i m, Takes (.shelve i m) p (p.answer 0x4B .locked [])) ∧
    (∀ i, Takes (.unshelve i) p (p.answer 0x4C .locked [])) ∧
    (∀ x, Takes (.discardPeerTrip x) p (p.answer 0x50 .locked [])) := by
  refine ⟨fun i cv => ?_, fun f w => ?_, fun i m => ?_, fun i => ?_, fun x => ?_⟩
  all_goals exact takes_row rfl (Part.engineering_locked closed _ _)

end

/-- Settles O19: the window's own rows, then the lock of the five commands. -/
theorem engineeringWindow : Obligations.EngineeringWindow := by
  refine ⟨fun p => ⟨takes_openEngineering_closed, fun t => takes_openEngineering_open, takes_openEngineering_negated,
    takes_closeEngineering_open, takes_closeEngineering_closed, fun t => takesAt_engineeringDeadline,
    fun opened lapsed => ?_, fun t q cmd opened come same renewed => ?_, takes_engineeringDeadline_closed, fun _ => rfl⟩,
    fun p => takes_locked⟩
  · obtain ⟨t, ht⟩ := Option.isSome_iff_exists.1 opened
    exact takes_engineeringDeadline_due (p.engineeringDue_lapsed t ht lapsed)
  · exact takes_engineeringDeadline_due (Part.engineeringDue_renewed opened come renewed)

/-! ## Reads -/

theorem takes_readBurner (p : Part) (b : Fin 2) : Takes (.readBurner b.val) p (p.answer 0x2E .done (p.burnerData b)) := by
  refine takes_row rfl ?_
  simp only [finOf_val]
  exact Part.reply_eq_answer ..

theorem takes_readFeeder (p : Part) (f : Fin 6) : Takes (.readFeeder f.val) p (p.answer 0x36 .done (p.feederData f)) := by
  refine takes_row rfl ?_
  simp only [finOf_val]
  exact Part.reply_eq_answer ..

theorem takes_readPoint (p : Part) (i : Fin 62) : Takes (.readPoint i.val) p (p.answer 0x56 .done (p.pointData i)) := by
  refine takes_row rfl ?_
  simp only [finOf_val]
  exact Part.reply_eq_answer ..

theorem stationIndex_succ (x : Fin 16) : stationIndex (x.val + 1) = some x := by
  simp [stationIndex]

theorem stationIndex_eq_none {k : Nat} (h : k = 0 ∨ 16 < k) : stationIndex k = none := by
  unfold stationIndex
  split
  · rfl
  · exact finOf_eq_none.2 (by omega)

section
variable (p : Part)

theorem takes_readPeerEntry_none {k : Nat} (h : k = 0 ∨ 16 < k) :
    Takes (.readPeerEntry k) p (p.answer 0x1A .badOperand []) := by
  refine takes_row rfl ?_
  simp only [stationIndex_eq_none h]
  exact Part.reply_eq_answer ..

theorem takes_readPeerEntry_own {x : Fin 16} (h : x = p.strapStation) :
    Takes (.readPeerEntry (x.val + 1)) p (p.answer 0x1A .done p.ownEntry.data) := by
  refine takes_row rfl ?_
  simp only [stationIndex_succ, if_pos h]
  exact Part.reply_eq_answer ..

theorem takes_readPeerEntry_peer {x : Fin 16} (h : x ≠ p.strapStation) :
    Takes (.readPeerEntry (x.val + 1)) p (Part.answer 0x1A .done p.peers[x].data
      { p with peers := p.peers.set x { p.peers[x] with flags := ⟨false, false, false, false, false⟩ } }) := by
  refine takes_row rfl ?_
  simp only [stationIndex_succ, if_neg h]
  rfl

theorem takes_readShiftRecord_bad {i sect : Nat} (h : (7 < i ∧ i ≠ 255) ∨ 6 < sect) :
    Takes (.readShiftRecord i sect) p (p.answer 0x59 .badOperand []) := by
  refine takes_row rfl ?_
  exact if_pos h

theorem takes_readShiftRecord_none {i sect : Nat} (h : ¬ ((7 < i ∧ i ≠ 255) ∨ 6 < sect)) (none : p.shift.named i = none) :
    Takes (.readShiftRecord i sect) p (p.answer 0x59 .wrongState []) := by
  refine takes_row rfl ?_
  simp only [if_neg h, none]
  exact Part.reply_eq_answer ..

theorem ShiftRec.sectionData_isSome (r : ShiftRec) {sect : Nat} (h : sect ≤ 6) (m : Option Bool) :
    ∃ d, r.sectionData sect m = some d := by
  interval_cases sect <;> exact ⟨_, rfl⟩

theorem takes_readShiftRecord_some {i sect : Nat} {r : ShiftRec} {m : Option Bool} {d : List Byte}
    (h : ¬ ((7 < i ∧ i ≠ 255) ∨ 6 < sect)) (named : p.shift.named i = some (r, m)) (hd : r.sectionData sect m = some d) :
    Takes (.readShiftRecord i sect) p (Part.answer 0x59 .done (p.identify i sect r ++ d)
      (if sect = 0 then { p with shift := p.shift.markRead i } else p)) := by
  refine takes_row rfl ?_
  simp only [if_neg h, named, hd]
  exact Part.reply_eq_answer ..

end

theorem Shift.markRead_open (s : Shift) : s.markRead 255 = s := if_pos rfl

theorem Shift.markRead_stored (s : Shift) {i : Nat} {r : ShiftRec} {m : Bool} (hi : i ≤ 7) (h : s.store[i]? = some (r, m)) :
    s.markRead i =
      { s with store := s.store.set i (r, true), closedCause := if i = 0 then false else s.closedCause } := by
  obtain ⟨hlt, hm⟩ := List.getElem?_eq_some_iff.1 h
  have closed : (s.closedCause && decide (i ≠ 0)) = if i = 0 then false else s.closedCause := by
    by_cases i0 : i = 0 <;> simp [i0]
  have marked : s.store.modify i (fun e => (e.1, true)) = s.store.set i (r, true) := by
    rw [List.modify_eq_set_getElem? , h]
    rfl
  rw [Shift.markRead, if_neg (by omega), closed, marked]

/-- Settles O21, read by read. -/
theorem readCommands : Obligations.ReadCommands := by
  refine ⟨fun p => ⟨takes_row rfl (Part.reply_eq_answer ..), takes_row rfl (Part.reply_eq_answer ..),
    takes_row rfl (Part.reply_eq_answer ..), takes_row rfl (Part.reply_eq_answer ..), takes_row rfl (Part.reply_eq_answer ..),
    takes_row rfl (Part.reply_eq_answer ..), takes_row rfl (Part.reply_eq_answer ..), takes_row rfl (Part.reply_eq_answer ..),
    takes_row rfl (Part.reply_eq_answer ..), takes_row rfl (Part.reply_eq_answer ..), takes_readBurner p, takes_readFeeder p, takes_readPoint p, fun k hk => ?_,
    fun k hk => ?_, fun k hk => ?_⟩,
    fun p => ⟨fun k hk => takes_readPeerEntry_none p hk, fun x => ⟨takes_readPeerEntry_own p, takes_readPeerEntry_peer p⟩,
      takes_row rfl (Part.reply_eq_answer ..), fun i sect => takes_readShiftRecord_bad p, fun sect hs => ⟨fun closed => ?_, fun i hi past => ?_,
      fun r opened => ?_, fun i r m hi stored => ?_⟩⟩⟩
  · refine takes_row rfl ?_
    simp only [finOf_eq_none.2 hk]
    exact Part.reply_eq_answer ..
  · refine takes_row rfl ?_
    simp only [finOf_eq_none.2 hk]
    exact Part.reply_eq_answer ..
  · refine takes_row rfl ?_
    simp only [finOf_eq_none.2 hk]
    exact Part.reply_eq_answer ..
  · exact takes_readShiftRecord_none p (by omega) (by simp [Shift.named, closed])
  · exact takes_readShiftRecord_none p (by omega) (by simp [Shift.named, past, show i ≠ 255 by omega])
  · obtain ⟨d, hd⟩ := r.sectionData_isSome hs none
    have row := takes_readShiftRecord_some p (i := 255) (by omega) (by simp [Shift.named, opened]) hd
    rw [Shift.markRead_open, ite_self] at row
    exact ⟨d, hd, row⟩
  · obtain ⟨d, hd⟩ := r.sectionData_isSome hs (some m)
    have row := takes_readShiftRecord_some p (i := i) (by omega) (by simp [Shift.named, stored, show i ≠ 255 by omega]) hd
    rw [Shift.markRead_stored _ hi stored] at row
    exact ⟨d, hd, row⟩

/-! ## An attempt begins -/

theorem Part.listening_iff (p : Part) : p.listening = true ↔ p.strapRate ≠ 3 ∧ p.line.phase = .idle := by
  simp [Part.listening, Part.loopback]

/-- What more than 2 idle character times make of the receiver. -/
theorem Part.lineIdled_nil (p : Part) : p.lineIdled [] =
    if p.line.receiver = .deaf ∨ p.line.receiver = .waiting ∨ p.line.assembly = [] then
      { p with line := { p.line with receiver := .ready } }
    else { p with
      line := { p.line with
        assembly := [], receiver := .ready, counts := { p.line.counts with bad := p.line.counts.bad + 1 } },
      shift := { p.shift with current := p.shift.current.map fun r => { r with bad := r.bad + 1 } } } := by
  have stands : p.partialStands [] = true ↔
      ¬ (p.line.receiver = .deaf ∨ p.line.receiver = .waiting ∨ p.line.assembly = []) := by
    rw [p.partialStands_iff, List.append_nil]
    cases p.line.receiver <;> simp
  unfold Part.lineIdled
  by_cases h : p.partialStands [] = true
  · rw [if_pos h, if_neg (stands.1 h)]
    rfl
  · rw [if_neg h, if_pos (not_not.1 (mt stands.2 h))]
    rfl

/-- What a gap of `idle` character times makes of the receiver, before an attempt may begin. -/
def Part.idledFor (idle : Nat) (p : Part) : Part := if p.listening && decide (2 < idle) then p.lineIdled [] else p

theorem Part.idledFor_sends (idle : Nat) (p : Part) : (p.idledFor idle).line.phase = p.line.phase ∧
    (p.idledFor idle).line.queue = p.line.queue ∧ (p.idledFor idle).line.sequence = p.line.sequence ∧
    (p.idledFor idle).strapStation = p.strapStation := by
  have frame : ChangesOnly {.lineCounts, .record, .receiving} p (p.idledFor idle) := .ite (p.lineIdled_frame []) .refl
  obtain ⟨phase, -, -, sequence, -⟩ := frame.same .sending (by simp)
  exact ⟨phase, (frame.same .queue (by simp)).1, sequence, (frame.same .straps (by simp)).1⟩

theorem Part.idledFor_frameBytes (idle : Nat) (p : Part) (body : FrameBody) (seq : Byte) :
    (p.idledFor idle).frameBytes body seq = p.frameBytes body seq := by
  unfold Part.idledFor
  split
  · rw [p.lineIdled_nil]
    split <;> rfl
  · rfl

theorem effect_accessGapReached (idle : Nat) (p : Part) : effect (.accessGapReached idle) p =
    match p.line.phase, p.line.queue with
    | .idle, h :: _ => if p.accessGap h ≤ idle then (p.idledFor idle).beginAttempt else p.idledFor idle
    | _, _ => p.idledFor idle := by
  obtain ⟨phase, queue, -, station⟩ := p.idledFor_sends idle
  have gap : ∀ h, (p.idledFor idle).accessGap h = p.accessGap h := fun h => by simp [Part.accessGap, Part.own, station]
  rw [← phase, ← queue]
  simp only [← gap]
  rfl

/-- Settles O22: the partial frame first, then the attempt of the head frame. -/
theorem attemptBegins : Obligations.AttemptBegins := by
  intro p heard idle hheard
  have idled : heard = p.idledFor idle := by
    rw [hheard, Part.idledFor, p.lineIdled_nil]
    simp only [Bool.and_eq_true, p.listening_iff, decide_eq_true_eq, and_assoc]
  obtain ⟨phase, queue, sequence, -⟩ := p.idledFor_sends idle
  subst idled
  refine ⟨fun h t idlePhase head => ⟨fun long => ?_, fun short => ?_⟩, fun none => ?_⟩ <;>
    rw [takes_iff, effect_accessGapReached]
  · have gap : p.accessGap h ≤ idle := long
    simp only [idlePhase, head, if_pos gap, Part.beginAttempt, queue, p.idledFor_frameBytes, sequence, Part.updLine]
  · have gap : ¬ p.accessGap h ≤ idle := Nat.not_le.2 short
    simp only [idlePhase, head, if_neg gap]
  · rcases none with busy | empty
    · split
      · contradiction
      · rfl
    · rw [empty]
      split
      · contradiction
      · rfl

end Sys2Proof.Machine
end

section
/-! SUPPORT. Configuration while UNSTARTED, the pin reset, and the checks of START STATION. -/

namespace Sys2Proof.Machine

-- One proof at a time: the whole package as one text must not start a thread for each of them.
set_option Elab.async false

open Sys2Proof.Config

/-! ## Operands within their ranges -/

theorem boolOf_of_le {u : Nat} (h : u ≤ 1) : boolOf u = some (decide (u = 1)) := by
  interval_cases u <;> rfl

theorem le_one_of_boolOf {u : Nat} {b : Bool} (h : boolOf u = some b) : u ≤ 1 := by
  unfold boolOf at h
  split at h
  · exact Nat.zero_le 1
  · exact le_rfl
  · contradiction

theorem lt_of_finOf {n k : Nat} {i : Fin n} (h : finOf n k = some i) : k < n :=
  finOf_eq_some.1 h ▸ i.isLt

/-! ## Burners and feeders -/

theorem burnerItems_in {u f r ig pr ld ff th hl ar : Nat} {c : BurnerCfg}
    (h : burnerItems u f r ig pr ld ff th hl ar = some c) :
    f ≤ 5 ∧ u ≤ 1 ∧ r ≤ 65000 ∧ 5 ≤ ig ∧ ig ≤ 60 ∧ 1 ≤ pr ∧ pr ≤ 10 ∧ 30 ≤ ld ∧ ld ≤ 600 ∧ 1 ≤ ff ∧ ff ≤ 5 ∧ 20 ≤ th ∧
      th ≤ 235 ∧ 60 ≤ hl ∧ hl ≤ 3600 ∧ ar ≤ 1 := by
  unfold burnerItems at h
  split at h
  · next hu hf ha =>
    split at h
    · next items =>
      have := lt_of_finOf hf
      have := le_one_of_boolOf hu
      have := le_one_of_boolOf ha
      omega
    · contradiction
  · contradiction

theorem feederItems_in {u b fu mn mx rr w kt dl im pw : Nat} {c : FeederCfg}
    (h : feederItems u b fu mn mx rr w kt dl im pw = some c) :
    b ≤ 1 ∧ fu ≤ 7 ∧ u ≤ 1 ∧ mn ≤ 65000 ∧ 1 ≤ mx ∧ mx ≤ 65000 ∧ mn ≤ mx ∧ 1 ≤ rr ∧ rr ≤ 5000 ∧ 2 ≤ w ∧ w ≤ 10 ∧
      kt ≤ 100 ∧ dl ≤ 65000 ∧ im ≤ 1000 ∧ 1 ≤ pw ∧ pw ≤ 10000 := by
  unfold feederItems at h
  split at h
  · next hu hb hf =>
    split at h
    · next items =>
      have := lt_of_finOf hb
      have := lt_of_finOf hf
      have := le_one_of_boolOf hu
      omega
    · contradiction
  · contradiction

section
variable {p : Part} (unstarted : p.started = false)
include unstarted

theorem takes_configureBurner {u r ig pr ld ff th hl ar : Nat} (b : Fin 2) (g : Fin 6) {c : BurnerCfg}
    (items : burnerItems u g.val r ig pr ld ff th hl ar = some c) :
    Takes (.configureBurner b.val u g.val r ig pr ld ff th hl ar) p (Part.answer 0x29 .done []
      { p with burners := p.burners.set b ({ p.burners[b] with cfg := c }) }) := by
  refine takes_row rfl ?_
  dsimp only
  rw [if_neg (by simp [unstarted])]
  simp only [finOf_val, items]
  exact Part.reply_eq_answer ..

theorem takes_configureBurner_refused {n u f r ig pr ld ff th hl ar : Nat}
    (h : ∀ b c, finOf 2 n = some b → burnerItems u f r ig pr ld ff th hl ar ≠ some c) :
    Takes (.configureBurner n u f r ig pr ld ff th hl ar) p (p.answer 0x29 .badOperand []) := by
  refine takes_row rfl ?_
  dsimp only
  rw [if_neg (by simp [unstarted])]
  split
  · next b c hb hc => exact absurd hc (h b c hb)
  · exact Part.reply_eq_answer ..

theorem takes_configureFeeder {u mn mx rr w kt dl im pw : Nat} (f : Fin 6) (b : Fin 2) (i : Fin 8) {c : FeederCfg}
    (items : feederItems u b.val i.val mn mx rr w kt dl im pw = some c) :
    Takes (.configureFeeder f.val u b.val i.val mn mx rr w kt dl im pw) p (Part.answer 0x33 .done []
      { p with feeders := p.feeders.set f (p.feeders[f].configure c) }) := by
  refine takes_row rfl ?_
  dsimp only
  rw [if_neg (by simp [unstarted])]
  simp only [finOf_val, items]
  exact Part.reply_eq_answer ..

theorem takes_configureFeeder_refused {n u b fu mn mx rr w kt dl im pw : Nat}
    (h : ∀ f c, finOf 6 n = some f → feederItems u b fu mn mx rr w kt dl im pw ≠ some c) :
    Takes (.configureFeeder n u b fu mn mx rr w kt dl im pw) p (p.answer 0x33 .badOperand []) := by
  refine takes_row rfl ?_
  dsimp only
  rw [if_neg (by simp [unstarted])]
  split
  · next f c hf hc => exact absurd hc (h f c hf)
  · exact Part.reply_eq_answer ..

end

/-- Settles O13: items within their ranges are taken as they stand, any other is refused. -/
theorem configureBurnerAndFeeder : Obligations.ConfigureBurnerAndFeeder := by
  refine fun p unstarted => ⟨fun n u f r ig pr ld ff th hl ar => ⟨?_, fun out => ?_⟩,
    fun n u b fu mn mx rr w kt dl im pw => ⟨?_, fun out => ?_⟩⟩
  · rintro b g rfl rfl ⟨hu, ha, rest⟩
    refine takes_configureBurner unstarted b g ?_
    simp only [burnerItems, boolOf_of_le hu, boolOf_of_le rest.2.2.2.2.2.2.2.2.2.2.2.2, finOf_val]
    exact if_pos (by omega)
  · refine takes_configureBurner_refused unstarted fun b c hb hc => out ?_
    have := lt_of_finOf hb
    have := burnerItems_in hc
    omega
  · rintro f c i rfl rfl rfl ⟨hu, rest⟩
    have items : feederItems u c.val i.val mn mx rr w kt dl im pw =
        some ⟨decide (u = 1), c, i, mn, mx, rr, w, kt, dl, im, pw⟩ := by
      simp only [feederItems, boolOf_of_le hu, finOf_val]
      exact if_pos (by omega)
    simpa [Feeder.configure] using takes_configureFeeder unstarted f c i items
  · refine takes_configureFeeder_refused unstarted fun f c hf hc => out ?_
    have := lt_of_finOf hf
    have := feederItems_in hc
    omega

/-! ## Fans and grate -/

theorem fanItems_in {u d bf ap mn mx af kf st : Nat} {c : FanCfg} (h : fanItems u d bf ap mn mx af kf st = some c) :
    d ≤ 2 ∧ u ≤ 1 ∧ bf ≤ 65535 ∧ ap ≤ 255 ∧ mn ≤ 65535 ∧ mx ≤ 65535 ∧ mn ≤ mx ∧ af ≤ 255 ∧ kf ≤ 255 ∧ 5 ≤ st ∧
      st ≤ 120 := by
  unfold fanItems at h
  split at h
  · next hu hd =>
    have dest : d ≤ 2 := by
      unfold Destination.ofCode at hd
      split at hd <;> first | omega | contradiction
    split at h
    · next items =>
      have := le_one_of_boolOf hu
      omega
    · contradiction
  · contradiction

theorem grateItems_in {u mn mx kg lo hi ini hp : Nat} {c : GrateCfg} (h : grateItems u mn mx kg lo hi ini hp = some c) :
    u ≤ 1 ∧ mn ≤ 1000 ∧ mx ≤ 1000 ∧ mn ≤ mx ∧ kg ≤ 255 ∧ lo ≤ 20000 ∧ hi ≤ 20000 ∧ lo ≤ hi ∧ lo ≤ ini ∧ ini ≤ hi ∧
      hp ≤ 20000 := by
  unfold grateItems at h
  split at h
  · next hu =>
    split at h
    · next items => exact ⟨le_one_of_boolOf hu, items⟩
    · contradiction
  · contradiction

theorem Destination.ofCode_code (d : Destination) : Destination.ofCode d.code = some d := by cases d <;> rfl

/-- An event offered is stored behind the others, or counted as lost. -/
theorem Part.offer_eq_withEvent (k : EventKind) (subject value : Nat) (mark : Bool) (station : Nat) (o : Option Nat)
    (p : Part) : p.offer k subject value mark station o = p.withEvent ⟨k, subject, value, mark, p.now, station, o⟩ := by
  simp only [Part.offer, Part.withEvent, Part.updAlarms, satAt_eq_min, eventSize]

section
variable {p : Part} (unstarted : p.started = false)
include unstarted

theorem takes_configureFan {u d bf ap mn mx af kf st : Nat} (n : Fin 4) {c : FanCfg}
    (items : fanItems u d bf ap mn mx af kf st = some c) :
    Takes (.configureFan n.val u d bf ap mn mx af kf st) p (Part.answer 0x38 .done [] (p.configureFan n c)) := by
  refine takes_row rfl ?_
  dsimp only
  rw [if_neg (by simp [unstarted])]
  simp only [finOf_val, items]
  exact Part.reply_eq_answer ..

theorem takes_configureFan_refused {k u d bf ap mn mx af kf st : Nat}
    (h : ∀ n c, finOf 4 k = some n → fanItems u d bf ap mn mx af kf st ≠ some c) :
    Takes (.configureFan k u d bf ap mn mx af kf st) p (p.answer 0x38 .badOperand []) := by
  refine takes_row rfl ?_
  dsimp only
  rw [if_neg (by simp [unstarted])]
  split
  · next n c hn hc => exact absurd hc (h n c hn)
  · exact Part.reply_eq_answer ..

theorem takes_configureGrate {u mn mx kg lo hi ini hp : Nat} {c : GrateCfg}
    (items : grateItems u mn mx kg lo hi ini hp = some c) :
    Takes (.configureGrate u mn mx kg lo hi ini hp) p (Part.answer 0x3C .done [] (p.configureGrate c)) := by
  refine takes_row rfl ?_
  dsimp only
  rw [if_neg (by simp [unstarted]), items]
  exact Part.reply_eq_answer ..

theorem takes_configureGrate_refused {u mn mx kg lo hi ini hp : Nat} (h : grateItems u mn mx kg lo hi ini hp = none) :
    Takes (.configureGrate u mn mx kg lo hi ini hp) p (p.answer 0x3C .badOperand []) := by
  refine takes_row rfl ?_
  dsimp only
  rw [if_neg (by simp [unstarted]), h]
  exact Part.reply_eq_answer ..

end

/-- The code of STOPPED or UNUSED is the item that chose it. -/
theorem FanState.code_stoppedOrUnused {u : Nat} (h : u ≤ 1) :
    (if decide (u = 1) = true then FanState.stopped else .unused).code = u := by
  interval_cases u <;> rfl

theorem GrateState.code_stoppedOrUnused {u : Nat} (h : u ≤ 1) :
    (if decide (u = 1) = true then GrateState.stopped else .unused).code = u := by
  interval_cases u <;> rfl

/-- Settles O14: items taken, and the event of a change of state. -/
theorem configureFanAndGrate : Obligations.ConfigureFanAndGrate := by
  refine fun p unstarted => ⟨fun k u d bf ap mn mx af kf st => ⟨?_, fun out => ?_⟩,
    fun u mn mx kg lo hi ini hp => ⟨?_, fun out => ?_⟩⟩
  · rintro n dest rfl rfl ⟨hu, rest⟩ state q
    have items : fanItems u dest.code bf ap mn mx af kf st =
        some ⟨decide (u = 1), dest, bf, ap, mn, mx, af, kf, st⟩ := by
      simp only [fanItems, boolOf_of_le hu, Destination.ofCode_code]
      exact if_pos rest
    have row := takes_configureFan unstarted n items
    have code := FanState.code_stoppedOrUnused hu
    simp only [Part.configureFan, Fan.configure, Part.offer_eq_withEvent, code] at row
    simp only [decide_eq_true_eq, eq_comm (a := ite _ _ _)] at row
    exact row
  · refine takes_configureFan_refused unstarted fun n c hn hc => out ?_
    have := lt_of_finOf hn
    have := fanItems_in hc
    omega
  · rintro ⟨hu, rest⟩ state q
    have items : grateItems u mn mx kg lo hi ini hp = some ⟨decide (u = 1), mn, mx, kg, lo, hi, ini, hp⟩ := by
      simp only [grateItems, boolOf_of_le hu]
      exact if_pos rest
    have row := takes_configureGrate unstarted items
    have code := GrateState.code_stoppedOrUnused hu
    simp only [Part.configureGrate, Grate.configure, Part.offer_eq_withEvent, code] at row
    simp only [decide_eq_true_eq, eq_comm (a := ite _ _ _)] at row
    exact row
  · refine takes_configureGrate_refused unstarted ?_
    cases h : grateItems u mn mx kg lo hi ini hp with
    | none => rfl
    | some c => exact absurd (grateItems_in h) out

/-! ## External points -/

theorem AlarmClass.ofCode_code (c : AlarmClass) : AlarmClass.ofCode c.code = some c := by cases c <;> rfl

theorem Binding.ofCode_code (b : Binding) : Binding.ofCode b.code = some b := by
  cases b with
  | none => rfl
  | station => rfl
  | burner b => fin_cases b <;> rfl

theorem AlarmClass.le_of_ofCode {c : Nat} {cls : AlarmClass} (h : AlarmClass.ofCode c = some cls) : c ≤ 3 ∧ cls.code = c := by
  unfold AlarmClass.ofCode at h
  split at h <;> cases h <;> exact ⟨by decide, rfl⟩

theorem Binding.le_of_ofCode {b : Nat} {bd : Binding} (h : Binding.ofCode b = some bd) : b ≤ 3 ∧ bd.code = b := by
  unfold Binding.ofCode at h
  split at h <;> cases h <;> exact ⟨by decide, rfl⟩

theorem ExtSource.ofCode_of_le {s : Nat} (h : s ≤ 1) : ExtSource.ofCode s = some (if s = 0 then .field else .host) := by
  interval_cases s <;> rfl

theorem ExtSource.le_of_ofCode {s : Nat} {x : ExtSource} (h : ExtSource.ofCode s = some x) : s ≤ 1 := by
  unfold ExtSource.ofCode at h
  split at h <;> cases h <;> decide

theorem AlarmClass.code_eq_zero {c : AlarmClass} : c.code = 0 ↔ c = .trip := by cases c <;> simp [AlarmClass.code]

theorem Binding.code_eq_zero {b : Binding} : b.code = 0 ↔ b = .none := by cases b <;> simp [Binding.code]

/-- The rule of R149 for class, latching, binding and line-wide, in the codes of the command. -/
theorem PointAttr.allowed_iff {a : PointAttr} {l lw : Nat} (hlw : lw ≤ 1)
    (latching : a.latching = decide (l = 1)) (lineWide : a.lineWide = decide (lw = 1)) : a.allowed = true ↔
      (a.cls.code = 0 → l = 1 ∧ a.binding.code ≠ 0) ∧ (a.cls.code ≠ 0 → lw = 0 ∧ a.binding.code = 0) := by
  unfold PointAttr.allowed
  rw [latching, lineWide, Ne, Ne, AlarmClass.code_eq_zero, Binding.code_eq_zero]
  by_cases trip : a.cls = .trip
  · simp [trip]
  · have : ¬ lw = 1 ↔ lw = 0 := by omega
    simp [trip, this]

theorem externalItems_in {u c l b lw m s : Nat} {x : Ext} (h : externalItems u c l b lw m s = some x) :
    u ≤ 1 ∧ c ≤ 3 ∧ l ≤ 1 ∧ b ≤ 3 ∧ lw ≤ 1 ∧ m ≤ 15 ∧ s ≤ 1 ∧ (c = 0 → l = 1 ∧ b ≠ 0) ∧ (c ≠ 0 → lw = 0 ∧ b = 0) := by
  unfold externalItems at h
  split at h
  · next hu hc hl hb hw hs =>
    dsimp only at h
    split at h
    · next items =>
      obtain ⟨mask, allowed⟩ := items
      obtain ⟨c3, hcode⟩ := AlarmClass.le_of_ofCode hc
      obtain ⟨b3, hbind⟩ := Binding.le_of_ofCode hb
      have l1 := le_one_of_boolOf hl
      have w1 := le_one_of_boolOf hw
      rw [boolOf_of_le l1, Option.some.injEq] at hl
      rw [boolOf_of_le w1, Option.some.injEq] at hw
      have rule := (PointAttr.allowed_iff w1 hl.symm hw.symm).1 allowed
      rw [hcode, hbind] at rule
      exact ⟨le_one_of_boolOf hu, c3, l1, b3, w1, by omega, ExtSource.le_of_ofCode hs, rule⟩
    · contradiction
  · contradiction

/-- Settles O15: items within their ranges are taken, with the condition inactive. -/
theorem configureExternalPoint : Obligations.ConfigureExternalPoint := by
  refine fun p k u c l b lw m s unstarted => ⟨?_, fun out => takes_row rfl ?_⟩
  · rintro n cls bd rfl rfl rfl ⟨hu, hl, hw, hm, hs⟩ trip other
    have allowed := (PointAttr.allowed_iff
      (a := ⟨cls, decide (l = 1), bd, decide (lw = 1), BitVec.ofNat 4 m⟩) hw rfl rfl).2 ⟨trip, other⟩
    have items : externalItems u cls.code l bd.code lw m s = some (.mk (decide (u = 1))
        ⟨cls, decide (l = 1), bd, decide (lw = 1), BitVec.ofNat 4 m⟩ (if s = 0 then .field else .host) false) := by
      simp only [externalItems, boolOf_of_le hu, boolOf_of_le hl, boolOf_of_le hw, AlarmClass.ofCode_code,
        Binding.ofCode_code, ExtSource.ofCode_of_le hs]
      exact if_pos ⟨by omega, allowed⟩
    refine takes_row rfl ?_
    dsimp only
    rw [if_neg (by simp [unstarted])]
    simp only [finOf_val, items]
    exact Part.reply_eq_answer ..
  · dsimp only
    rw [if_neg (by simp [unstarted])]
    split
    · next n x hn hx =>
      have := lt_of_finOf hn
      have := externalItems_in hx
      omega
    · exact Part.reply_eq_answer ..

/-! ## The pin reset -/

theorem replicate_get {α : Type} (n : Nat) (x : α) (i : Fin n) : (Vector.replicate n x)[i] = x :=
  Vector.getElem_replicate ..

section
variable (straps : Fin 16) (rate : Fin 4) (eng : Bool)

@[simp] theorem Part.powerUp_peers (x : Fin 16) : (Part.powerUp straps rate eng).peers[x] = .reset := replicate_get ..
@[simp] theorem Part.powerUp_claims (k : Fin 3) : (Part.powerUp straps rate eng).claims[k] = .reset := replicate_get ..
@[simp] theorem Part.powerUp_burners (b : Fin 2) : (Part.powerUp straps rate eng).burners[b] = .reset := replicate_get ..
@[simp] theorem Part.powerUp_feeders (f : Fin 6) : (Part.powerUp straps rate eng).feeders[f] = .reset := replicate_get ..
@[simp] theorem Part.powerUp_ramps (b : Fin 2) : (Part.powerUp straps rate eng).ramps[b] = none := replicate_get ..
@[simp] theorem Part.powerUp_fans (n : Fin 4) : (Part.powerUp straps rate eng).fans[n] = .reset := replicate_get ..
@[simp] theorem Part.powerUp_points (i : Fin 62) : (Part.powerUp straps rate eng).alarms.points[i] = .reset :=
  replicate_get ..
@[simp] theorem Part.powerUp_ext (n : Fin 16) : (Part.powerUp straps rate eng).alarms.ext[n] = .reset := replicate_get ..
@[simp] theorem Part.powerUp_peerTrips (n : Fin 16) : (Part.powerUp straps rate eng).alarms.peerTrips[n] = none :=
  replicate_get ..

end

/-- Settles O4: the values of the reset tables, block by block. -/
theorem pinResetValues : Obligations.PinResetValues := by
  intro p straps rate eng hs hr
  refine ⟨_, takes_pinReset straps rate eng p, ⟨congrArg (· + 1) (Nat.mod_eq_of_lt hs), Nat.mod_eq_of_lt hr, rfl, rfl, rfl⟩,
    rfl, ⟨rfl, rfl, rfl, rfl, rfl, rfl, rfl, rfl, rfl, rfl, rfl, rfl, rfl⟩, fun x => ?peers, fun k => ?claims,
    ⟨rfl, rfl, rfl, rfl, rfl, rfl, rfl, rfl, rfl, rfl, rfl, rfl, rfl, rfl, rfl, rfl, rfl, rfl, rfl⟩,
    fun b => ⟨replicate_get .., replicate_get .., replicate_get .., replicate_get ..⟩,
    fun f => ⟨replicate_get .., replicate_get .., replicate_get ..⟩, ⟨rfl, fun b => ?burners⟩, fun i => replicate_get ..,
    fun f => ?feeders, fun b => replicate_get .., fun n => ?fans, ⟨rfl, rfl, rfl, rfl, rfl, rfl⟩, rfl,
    fun i => replicate_get .., fun n => ⟨replicate_get .., replicate_get ..⟩,
    ⟨rfl, rfl, rfl, rfl, rfl, rfl, rfl, rfl, rfl, rfl, rfl⟩, ⟨rfl, rfl, rfl, rfl, rfl⟩,
    ⟨rfl, rfl, rfl, rfl, rfl, rfl, rfl, rfl, rfl, rfl, rfl, rfl⟩,
    fun f => ⟨replicate_get .., replicate_get .., replicate_get ..⟩, fun b => ⟨replicate_get .., replicate_get ..⟩,
    fun n => ⟨replicate_get .., replicate_get ..⟩, ⟨rfl, rfl, fun n => replicate_get ..⟩,
    ⟨rfl, rfl, rfl, rfl, rfl, rfl, rfl, rfl, rfl⟩, rfl, takes_pinReset 0 0 false p⟩
  case peers => rw [Part.powerUp_peers]; rfl
  case claims =>
    rw [Part.powerUp_claims]
    exact ⟨rfl, rfl, rfl, rfl, rfl, rfl, rfl, rfl, rfl, fun x => replicate_get ..⟩
  case burners =>
    rw [Part.powerUp_burners]
    exact ⟨rfl, rfl, rfl, rfl, rfl, rfl, rfl, rfl, rfl, rfl, rfl, rfl, rfl, rfl, rfl, rfl⟩
  case feeders =>
    rw [Part.powerUp_feeders]
    exact ⟨rfl, rfl, rfl, rfl, rfl, rfl, rfl, rfl, rfl, rfl, rfl, rfl, rfl, rfl, rfl, rfl, rfl, rfl⟩
  case fans =>
    rw [Part.powerUp_fans]
    exact ⟨rfl, rfl, rfl, rfl, rfl, rfl, rfl, rfl, rfl, rfl, rfl, rfl⟩

/-! ## The invariants after a pin reset -/

section
variable (straps : Fin 16) (rate : Fin 4) (eng : Bool)

theorem Part.powerUp_fits : (Part.powerUp straps rate eng).Fits where
  queue := Nat.zero_le _
  events := Nat.zero_le _
  lost := Nat.zero_le _
  window := Nat.zero_le _
  store := Nat.zero_le _
  current := by rintro r ⟨⟩
  stored := by rintro e ⟨⟩
  buffer := Nat.zero_le _
  badRun := le_rfl
  goodRun := Nat.zero_le _

theorem Part.powerUp_windowKeyed : (Part.powerUp straps rate eng).windowKeyed := ⟨nofun, nofun⟩

theorem Part.powerUp_lawful : (Part.powerUp straps rate eng).Lawful where
  users k := by rw [Part.powerUp_claims]; exact ⟨nofun, nofun⟩
  lightOff b := by rw [Part.powerUp_burners]; rintro (h | h) <;> cases h
  heavyStart n := by rw [Part.powerUp_fans]; nofun

theorem Part.powerUp_waiting : (Part.powerUp straps rate eng).Waiting where
  sorted := by rw [Part.powerUp_claims]; exact .nil
  inWait b := by rw [Part.powerUp_claims]; nofun
  known := by rw [Part.powerUp_claims]; nofun
  idle := by rw [Part.powerUp_claims]; exact fun _ => rfl
  user := by rw [Part.powerUp_claims]; nofun
  held := by rw [Part.powerUp_claims]; nofun

theorem Part.powerUp_dormant : (Part.powerUp straps rate eng).Dormant where
  claims k := by rw [Part.powerUp_claims]; exact ⟨rfl, rfl⟩
  burners b := by rw [Part.powerUp_burners]; rfl
  points i := by rw [Part.powerUp_points]; exact ⟨rfl, rfl⟩
  outputs := rfl

theorem Part.powerUp_tripLaw : (Part.powerUp straps rate eng).TripLaw where
  waiting := Part.powerUp_waiting straps rate eng
  unused b _ := by rw [Part.powerUp_burners]; rfl
  unstarted _ := Part.powerUp_dormant straps rate eng
  bound b i _ h := absurd (by rw [Part.powerUp_points]; rfl) h

theorem Part.powerUp_outputsAgree : (Part.powerUp straps rate eng).OutputsAgree where
  unstarted _ := Part.powerUp_dormant straps rate eng
  igniter b := by rw [Part.powerUp_burners]; exact replicate_get ..
  feeder f :=
    { run := by rw [Part.powerUp_feeders]; exact replicate_get ..
      remote := replicate_get ..
      speed := (replicate_get 6 0 f).trans_le (Nat.zero_le _)
      stopped := fun _ => replicate_get .. }
  fan n :=
    { run := by rw [Part.powerUp_fans]; exact replicate_get ..
      starting := by rw [Part.powerUp_fans]; nofun
      running := by rw [Part.powerUp_fans]; nofun
      stopped := fun _ _ => replicate_get .. }
  grate := { run := rfl, running := nofun, stopped := fun _ => rfl }
  horn := rfl

theorem Part.powerUp_mixWhole : (Part.powerUp straps rate eng).MixWhole where
  time := Nat.zero_lt_succ 299
  mix := nofun
  ramp b r := by rw [Part.powerUp_ramps]; nofun

end

/-- Settles O55, invariant by invariant. -/
theorem pinResetMeetsInvariants : Obligations.PinResetMeetsInvariants := fun straps rate eng =>
  ⟨Part.powerUp_fits straps rate eng, Part.powerUp_windowKeyed straps rate eng, Part.powerUp_lawful straps rate eng,
    Part.powerUp_tripLaw straps rate eng, Part.powerUp_outputsAgree straps rate eng, Part.powerUp_mixWhole straps rate eng⟩

/-! ## The checks of START STATION -/

theorem findFinRange_eq_some {n : Nat} {f : Fin n → Bool} {i : Fin n} :
    (List.finRange n).find? f = some i ↔ f i = true ∧ ∀ j < i, f j = false := by
  rw [List.find?_eq_some_iff_getElem]
  refine and_congr_right fun _ => ⟨?_, fun low => ⟨i.val, by simp, by simp, fun j hj => ?_⟩⟩
  · rintro ⟨k, hk, rfl, low⟩ j hj
    simpa using low j.val (by simpa [Fin.lt_def] using hj)
  · simpa using low ⟨j, hj.trans i.isLt⟩ hj

theorem findFinRange_eq_none {n : Nat} {f : Fin n → Bool} :
    (List.finRange n).find? f = none ↔ ∀ i, f i = false := by
  simp

theorem takes_startStation_refused {p : Part} (unstarted : p.started = false) (single : p.line.dupDeadline = none)
    {check object : Nat} (h : p.startRefusal = some (check, object)) :
    Takes .startStation p (p.answer 0x11 .wrongState [byteOf check, byteOf object]) := by
  refine takes_row rfl ?_
  dsimp only
  rw [if_neg (by simp [unstarted]), if_neg (by simp [single]), h]
  exact Part.reply_eq_answer ..

/-- Settles O16: the checks in their order, each with the lowest object that fails it. -/
theorem startStationChecks : Obligations.StartStationChecks := by
  refine fun p => ⟨fun started => takes_row rfl (if_pos started), fun unstarted dup => ?_, fun unstarted single => ?_⟩
  · refine takes_row rfl ?_
    dsimp only
    rw [if_neg (by simp [unstarted]), if_pos dup]
    exact Part.reply_eq_answer ..
  · intro stray unlit unmixed zoneless
    have refused {check object : Nat} := takes_startStation_refused unstarted single (check := check) (object := object)
    have first : ∀ f, stray f → (∀ g < f, ¬ stray g) → p.strayFeeder = some f := fun f hf low =>
      findFinRange_eq_some.2 ⟨by simpa [stray] using hf, fun g hg => by simpa [stray] using low g hg⟩
    have second : ∀ b, unlit b → (∀ c < b, ¬ unlit c) → p.unlitBurner = some b := fun b hb low =>
      findFinRange_eq_some.2 ⟨by simpa [unlit] using hb, fun c hc => by simpa [unlit] using low c hc⟩
    have third : ∀ b, unmixed b → (∀ c < b, ¬ unmixed c) → p.unmixedBurner = some b := fun b hb low =>
      findFinRange_eq_some.2 ⟨by simpa [unmixed] using hb, fun c hc => by simpa [unmixed] using low c hc⟩
    have fourth : ∀ b, zoneless b → (∀ c < b, ¬ zoneless c) → p.zonelessBurner = some b := fun b hb low =>
      findFinRange_eq_some.2 ⟨by simpa [zoneless] using hb, fun c hc => by simpa [zoneless] using low c hc⟩
    refine ⟨fun f hf low => refused (by simp [Part.startRefusal, first f hf low]), fun noStray => ?_⟩
    have none1 : p.strayFeeder = none := findFinRange_eq_none.2 fun f => by simpa [stray] using noStray f
    refine ⟨fun b hb low => refused (by simp [Part.startRefusal, none1, second b hb low]), fun noUnlit => ?_⟩
    have none2 : p.unlitBurner = none := findFinRange_eq_none.2 fun b => by simpa [unlit] using noUnlit b
    refine ⟨fun b hb low => refused (by simp [Part.startRefusal, none1, none2, third b hb low]),
      fun noUnmixed b hb low => ?_⟩
    have none3 : p.unmixedBurner = none := findFinRange_eq_none.2 fun b => by simpa [unmixed] using noUnmixed b
    exact refused (by simp [Part.startRefusal, none1, none2, none3, fourth b hb low])

/-! ## CONFIGURE STATION -/

theorem Zone.code_of_ofCode {z : Nat} {x : Zone} (h : Zone.ofCode z = some x) : z ≤ 2 ∧ x.code = z := by
  unfold Zone.ofCode at h
  split at h <;> cases h <;> exact ⟨by decide, rfl⟩

theorem Zone.ofCode_of_le {z : Nat} (h : z ≤ 2) : ∃ x, Zone.ofCode z = some x ∧ x.code = z := by
  interval_cases z <;> exact ⟨_, rfl, rfl⟩

theorem stationItems_in {z a fb hu per mt : Nat} {c : StationCfg} (h : stationItems z a fb hu per mt = some c) :
    z ≤ 2 ∧ a ≤ 1 ∧ fb ≤ 65535 ∧ hu ≤ 65535 ∧ (per = 250 ∨ per = 500 ∨ per = 1000) ∧ 60 ≤ mt ∧ mt ≤ 1800 := by
  unfold stationItems at h
  split at h
  · next hz ha =>
    split at h
    · next items => exact ⟨(Zone.code_of_ofCode hz).1, le_one_of_boolOf ha, items⟩
    · contradiction
  · contradiction

theorem ChangesOnly.peer_eq {T : Set Block} {p q : Part} (h : ChangesOnly T p q) {x : Fin 16} (hx : Block.peer x ∉ T) :
    q.peers[x] = p.peers[x] := h.same (.peer x) hx

theorem Part.losePeer_self (q : Fin 16) (p : Part) : (p.losePeer q).peers[q] = { p.peers[q] with
    state := .lost, flags := { p.peers[q].flags with lost := true },
    stale := p.peers[q].stale || p.peers[q].contents.isSome } := by
  have views := ChangesOnly.forAll (T := Set.range .view) (f := fun k => Part.dropClaimant k q)
    (fun k r => (r.dropClaimant_frame k q).mono (by simp)) resourceIds
    (p.updPeer q fun e =>
      { e with state := .lost, flags := { e.flags with lost := true }, stale := e.stale || e.contents.isSome })
  refine (views.peer_eq (by simp)).trans ?_
  simp [Part.updPeer]

theorem Part.ageNow_frame (x : Fin 16) (p : Part) : ChangesOnly ({.peer x} ∪ Set.range .view) p (p.ageNow x) :=
  .ite (p.losePeer_frame x) .refl

theorem Part.agingDeadline_live {p : Part} {x : Fin 16} {t : Time} (live : p.peers[x].state = .live)
    (last : p.peers[x].lastTime = some t) : p.agingDeadline x = some (later t p.agingTime) := by
  rw [Part.agingDeadline, if_pos live, last, Option.map_some]

theorem Part.agingDeadline_other {p : Part} {x : Fin 16} (other : p.peers[x].state ≠ .live) :
    p.agingDeadline x = none := if_neg other

/-- The entry of a station aged: LOST where its deadline has come. -/
theorem Part.ageNow_self (x : Fin 16) (p : Part) : (p.ageNow x).peers[x] =
    if x ≠ p.strapStation ∧ (p.agingDeadline x).any (reached p.now) = true then { p.peers[x] with
      state := .lost, flags := { p.peers[x].flags with lost := true },
      stale := p.peers[x].stale || p.peers[x].contents.isSome }
    else p.peers[x] := by
  unfold Part.ageNow
  simp only [Bool.and_eq_true, decide_eq_true_eq]
  split
  · exact p.losePeer_self x
  · rfl

/-- Aging every station of a list ages each of them by itself. -/
theorem Part.ageAll_peer {l : List (Fin 16)} (distinct : l.Nodup) (p : Part) (x : Fin 16) :
    (Part.forAll l Part.ageNow p).peers[x] = if x ∈ l then (p.ageNow x).peers[x] else p.peers[x] := by
  induction l generalizing p with
  | nil => rfl
  | cons y l ih =>
    obtain ⟨fresh, distinct⟩ := List.nodup_cons.1 distinct
    have one := p.ageNow_frame y
    refine (ih distinct (p.ageNow y)).trans ?_
    by_cases same : x = y
    · subst same
      simp [fresh]
    · have entry : (p.ageNow y).peers[x] = p.peers[x] := one.peer_eq (by simp [same])
      have aged : ((p.ageNow y).ageNow x).peers[x] = (p.ageNow x).peers[x] := by
        have cfg : (p.ageNow y).cfg = p.cfg := one.same .cfg (by simp)
        have now : (p.ageNow y).now = p.now := one.same .clock (by simp)
        have straps := (one.same .straps (by simp)).1
        rw [Part.ageNow_self, Part.ageNow_self, Part.agingDeadline, Part.agingDeadline, Part.agingTime, Part.agingTime,
          entry, cfg, now, straps]
      simp [same, aged, entry, -Fin.getElem_fin]

theorem takes_configureStation {p : Part} (unstarted : p.started = false) {z a fb hu per mt : Nat} {c : StationCfg}
    (items : stationItems z a fb hu per mt = some c) : ∃ q, Takes (.configureStation z a fb hu per mt) p q ∧ q.cfg = c ∧
      q.host = p.host.answered 0x10 .done [] ∧
      ∀ x : Fin 16, q.peers[x] = (Part.ageNow x { p with cfg := c }).peers[x] := by
  have row : Takes (.configureStation z a fb hu per mt) p
      (((Part.forAll stations Part.ageNow { p with cfg := c }).refreshMarks).settleAll.answer 0x10 .done []) := by
    refine takes_row rfl ?_
    dsimp only
    rw [if_neg (by simp [unstarted]), items]
    exact Part.reply_eq_answer ..
  obtain ⟨r, hr⟩ : ∃ r : Part, r = { p with cfg := c } := ⟨_, rfl⟩
  have host : r.host = p.host := by rw [hr]
  have cfg : r.cfg = c := by rw [hr]
  rw [← hr] at row ⊢
  have tail : ChangesOnly (Set.range .mark ∪ settleAllBlocks) (Part.forAll stations Part.ageNow r)
      ((Part.forAll stations Part.ageNow r).refreshMarks).settleAll :=
    ((Part.refreshMarks_frame _).mono Set.subset_union_left).settledAll Set.subset_union_right
  have peer : ∀ x : Fin 16, ((Part.forAll stations Part.ageNow r).refreshMarks).settleAll.peers[x] =
      (r.ageNow x).peers[x] := fun x =>
    (tail.peer_eq (by
      simp [settleAllBlocks, settleBlocks, tripBlocks, pointBlocks, sendBlocks, burnerBlocks, mixBlocks, leaveBlocks])).trans
      ((Part.ageAll_peer (List.nodup_finRange 16) r x).trans (if_pos (List.mem_finRange x)))
  have aged : ChangesOnly (Set.range .peer ∪ Set.range .view) r (Part.forAll stations Part.ageNow r) :=
    .forAll (fun x s => (s.ageNow_frame x).mono) _ _
  have whole := (aged.mono Set.subset_union_left).trans (tail.mono Set.subset_union_right)
  have outside : ∀ b : Block, b ∈ ({.cfg, .buffer, .response, .enables, .engineering, .dataOut} : Set Block) →
      b ∉ (Set.range .peer ∪ Set.range .view ∪ (Set.range .mark ∪ settleAllBlocks) : Set Block) := by
    rintro b (rfl | rfl | rfl | rfl | rfl | rfl) <;>
      simp [settleAllBlocks, settleBlocks, tripBlocks, pointBlocks, sendBlocks, burnerBlocks, mixBlocks, leaveBlocks]
  generalize ((Part.forAll stations Part.ageNow r).refreshMarks).settleAll = q at row whole peer
  have cfgKept : q.cfg = r.cfg := whole.same .cfg (outside _ (by simp))
  have hostKept : q.host = r.host := whole.host_eq (outside _ (by simp)) (outside _ (by simp)) (outside _ (by simp))
    (outside _ (by simp)) (outside _ (by simp))
  exact ⟨_, row, cfgKept.trans cfg, by rw [Part.answer_host, hostKept, host], peer⟩

/-- Settles O11: a period taken ages every peer by it. -/
theorem configureStationTaken : Obligations.ConfigureStationTaken := by
  refine fun p z a fb hu per mt unstarted => ⟨?_, fun out => takes_row rfl ?_⟩
  · rintro ⟨hz, ha, rest⟩
    obtain ⟨zone, hzone, hcode⟩ := Zone.ofCode_of_le hz
    have items : stationItems z a fb hu per mt = some ⟨zone, decide (a = 1), fb, hu, per, mt⟩ := by
      simp only [stationItems, hzone, boolOf_of_le ha]
      exact if_pos rest
    obtain ⟨q, row, cfg, host, peer⟩ := takes_configureStation unstarted items
    refine ⟨q, row, by rw [cfg]; exact hcode, by rw [cfg], by rw [cfg], by rw [cfg], by rw [cfg], by rw [cfg], host,
      fun x => ?_⟩
    rw [peer x, Part.ageNow_self]
    obtain ⟨r, hr⟩ : ∃ r : Part, r = { p with cfg := ⟨zone, decide (a = 1), fb, hu, per, mt⟩ } := ⟨_, rfl⟩
    have time : r.agingTime = 4 * per := by rw [hr]; rfl
    have now : r.now = p.now := by rw [hr]
    have straps : r.strapStation = p.strapStation := by rw [hr]
    have peers : r.peers = p.peers := by rw [hr]
    rw [← hr, peers, straps, now]
    refine ⟨fun t other live last come => ?_, fun t last ahead => ?_, fun kept => ?_⟩
    · rw [Part.agingDeadline_live (by rw [peers]; exact live) (by rw [peers]; exact last), time, Option.any_some,
        if_pos ⟨other, come⟩]
    · by_cases live : p.peers[x].state = .live
      · rw [Part.agingDeadline_live (by rw [peers]; exact live) (by rw [peers]; exact last), time, Option.any_some, ahead]
        exact if_neg fun due => Bool.false_ne_true due.2
      · rw [Part.agingDeadline_other (by rw [peers]; exact live)]
        exact if_neg fun due => Bool.false_ne_true due.2
    · rcases kept with own | lost
      · exact if_neg fun due => due.1 own
      · rw [Part.agingDeadline_other (by rw [peers]; exact lost)]
        exact if_neg fun due => Bool.false_ne_true due.2
  · dsimp only
    rw [if_neg (by simp [unstarted])]
    cases h : stationItems z a fb hu per mt with
    | none => exact Part.reply_eq_answer ..
    | some c => exact absurd (stationItems_in h) out

end Sys2Proof.Machine
end

section
/-! SUPPORT. What the laws of Safety.lean read of the part, and the operations that leave all of it alone. -/

namespace Sys2Proof.Machine

-- One proof at a time: the whole package as one text must not start a thread for each of them.
set_option Elab.async false

open Sys2Proof.Config

/-- Nothing that the laws speak of differs between p and q. -/
structure Alike (p q : Part) : Prop where
  started : q.started = p.started
  mixTime : q.cfg.mixTime = p.cfg.mixTime
  claims : ∀ k : Fin 3, q.claims[k].state = p.claims[k].state ∧ q.claims[k].user = p.claims[k].user ∧
    q.claims[k].waitList = p.claims[k].waitList
  burners : ∀ b : Fin 2, q.burners[b].state = p.burners[b].state ∧ q.burners[b].cfg = p.burners[b].cfg
  feeders : ∀ f : Fin 6, q.feeders[f].state = p.feeders[f].state ∧ q.feeders[f].mix = p.feeders[f].mix ∧
    q.feeders[f].cfg.used = p.feeders[f].cfg.used ∧ q.feeders[f].cfg.burner = p.feeders[f].cfg.burner
  ramps : q.ramps = p.ramps
  fans : ∀ n : Fin 4, q.fans[n].state = p.fans[n].state
  grate : q.grate.state = p.grate.state ∧ q.grate.cfg = p.grate.cfg
  points : ∀ i : Fin 62, q.alarms.points[i].state = p.alarms.points[i].state ∧
    q.alarms.points[i].eff = p.alarms.points[i].eff
  attrs : ∀ n : Fin 16, q.alarms.ext[n].attr = p.alarms.ext[n].attr
  output : q.field.output = p.field.output
  horn : q.alarms.horn = p.alarms.horn

/-- The records within their capacities (R146, R171). -/
structure Shift.Fits (s : Shift) : Prop where
  store : s.store.length ≤ storeSize
  current : ∀ r, s.current = some r → r.fits
  stored : ∀ e ∈ s.store, e.1.fits

/-- Nothing that the laws speak of differs but for lists and counts, which stay within their capacities. -/
structure Kin (p q : Part) : Prop extends Alike p q where
  queue : p.line.queue.length ≤ queueSize → q.line.queue.length ≤ queueSize
  events : p.alarms.events.length ≤ eventSize → q.alarms.events.length ≤ eventSize
  lost : p.alarms.lost ≤ 255 → q.alarms.lost ≤ 255
  shift : p.shift.Fits → q.shift.Fits

theorem set_self {α : Type} {n : Nat} (v : Vector α n) (i : Fin n) (x : α) : (v.set i x)[i] = x := by
  simp

theorem Alike.refl (p : Part) : Alike p p :=
  ⟨rfl, rfl, fun _ => ⟨rfl, rfl, rfl⟩, fun _ => ⟨rfl, rfl⟩, fun _ => ⟨rfl, rfl, rfl, rfl⟩, rfl, fun _ => rfl, ⟨rfl, rfl⟩,
    fun _ => ⟨rfl, rfl⟩, fun _ => rfl, rfl, rfl⟩

theorem Alike.trans {p q r : Part} (h : Alike p q) (g : Alike q r) : Alike p r where
  started := g.started.trans h.started
  mixTime := g.mixTime.trans h.mixTime
  claims k := by
    obtain ⟨s, u, w⟩ := h.claims k
    obtain ⟨s', u', w'⟩ := g.claims k
    exact ⟨s'.trans s, u'.trans u, w'.trans w⟩
  burners b := ⟨(g.burners b).1.trans (h.burners b).1, (g.burners b).2.trans (h.burners b).2⟩
  feeders f := by
    obtain ⟨s, m, u, b⟩ := h.feeders f
    obtain ⟨s', m', u', b'⟩ := g.feeders f
    exact ⟨s'.trans s, m'.trans m, u'.trans u, b'.trans b⟩
  ramps := g.ramps.trans h.ramps
  fans n := (g.fans n).trans (h.fans n)
  grate := ⟨g.grate.1.trans h.grate.1, g.grate.2.trans h.grate.2⟩
  points i := ⟨(g.points i).1.trans (h.points i).1, (g.points i).2.trans (h.points i).2⟩
  attrs n := (g.attrs n).trans (h.attrs n)
  output := g.output.trans h.output
  horn := g.horn.trans h.horn

theorem Kin.refl (p : Part) : Kin p p := ⟨.refl p, id, id, id, id⟩

theorem Kin.trans {p q r : Part} (h : Kin p q) (g : Kin q r) : Kin p r :=
  ⟨h.toAlike.trans g.toAlike, g.queue ∘ h.queue, g.events ∘ h.events, g.lost ∘ h.lost, g.shift ∘ h.shift⟩

theorem Kin.forAll {α : Type} {l : List α} {f : α → Part → Part} (h : ∀ a p, Kin p (f a p)) (p : Part) :
    Kin p (p.forAll l f) := by
  induction l generalizing p with
  | nil => exact .refl p
  | cons a l ih => exact (h a p).trans (ih _)

theorem Kin.ite {c : Prop} [Decidable c] {p q r : Part} (h : c → Kin p q) (g : ¬ c → Kin p r) :
    Kin p (if c then q else r) := by
  split
  · next hc => exact h hc
  · next hc => exact g hc

/-! ## One register -/

section
variable (p : Part)

/-- An update of the line that leaves the queue as it is, or within its capacity. -/
theorem Part.updLine_kin (f : Line → Line)
    (h : p.line.queue.length ≤ queueSize → (f p.line).queue.length ≤ queueSize := by exact id) : Kin p (p.updLine f) :=
  ⟨{ Alike.refl p with }, h, id, id, id⟩

theorem Part.updPeer_kin (x : Fin 16) (f : Peer → Peer) : Kin p (p.updPeer x f) := ⟨{ Alike.refl p with }, id, id, id, id⟩

theorem Part.updHost_kin (f : HostPort → HostPort) : Kin p (p.updHost f) := ⟨{ Alike.refl p with }, id, id, id, id⟩

theorem Part.reply_kin (cmd : Nat) (code : Code) (data : List Byte) : Kin p (p.reply cmd code data) := p.updHost_kin _

theorem Part.engineeringDone_kin (cmd : Nat) : Kin p (p.engineeringDone cmd) :=
  (p.updHost_kin _).trans (Part.reply_kin _ cmd _ _)

theorem Part.updRes_kin (k : Fin 3) (f : Resource → Resource)
    (h : (f p.claims[k]).state = p.claims[k].state ∧ (f p.claims[k]).user = p.claims[k].user ∧
      (f p.claims[k]).waitList = p.claims[k].waitList) : Kin p (p.updRes k f) := by
  refine ⟨{ Alike.refl p with claims := fun j => ?_ }, id, id, id, id⟩
  by_cases e : j = k
  · subst e; simpa only [Part.updRes_claims, set_self] using h
  · simp [-Fin.getElem_fin, set_other _ _ _ _ e]

theorem Part.updBurner_kin (b : Fin 2) (f : Burner → Burner)
    (h : (f p.burners[b]).state = p.burners[b].state ∧ (f p.burners[b]).cfg = p.burners[b].cfg) :
    Kin p (p.updBurner b f) := by
  refine ⟨{ Alike.refl p with burners := fun j => ?_ }, id, id, id, id⟩
  by_cases e : j = b
  · subst e; simpa only [Part.updBurner_burners, set_self] using h
  · simp [-Fin.getElem_fin, set_other _ _ _ _ e]

theorem Part.updFeeder_kin (i : Fin 6) (f : Feeder → Feeder)
    (h : (f p.feeders[i]).state = p.feeders[i].state ∧ (f p.feeders[i]).mix = p.feeders[i].mix ∧
      (f p.feeders[i]).cfg.used = p.feeders[i].cfg.used ∧ (f p.feeders[i]).cfg.burner = p.feeders[i].cfg.burner) :
    Kin p (p.updFeeder i f) := by
  refine ⟨{ Alike.refl p with feeders := fun j => ?_ }, id, id, id, id⟩
  by_cases e : j = i
  · subst e; simpa only [Part.updFeeder_feeders, set_self] using h
  · simp [-Fin.getElem_fin, set_other _ _ _ _ e]

theorem Part.updFan_kin (n : Fin 4) (f : Fan → Fan) (h : (f p.fans[n]).state = p.fans[n].state) :
    Kin p (p.updFan n f) := by
  refine ⟨{ Alike.refl p with fans := fun j => ?_ }, id, id, id, id⟩
  by_cases e : j = n
  · subst e; simpa only [Part.updFan_fans, set_self] using h
  · simp [-Fin.getElem_fin, set_other _ _ _ _ e]

theorem Part.updGrate_kin (f : Grate → Grate) (h : (f p.grate).state = p.grate.state ∧ (f p.grate).cfg = p.grate.cfg) :
    Kin p (p.updGrate f) := ⟨{ Alike.refl p with grate := h }, id, id, id, id⟩

theorem Part.record_kin (f : ShiftRec → ShiftRec) (h : ∀ r, r.fits → (f r).fits) : Kin p (p.record f) := by
  refine ⟨{ Alike.refl p with }, id, id, id, fun ⟨st, cur, old⟩ => ⟨st, fun r hr => ?_, old⟩⟩
  obtain ⟨r', hr', rfl⟩ : ∃ r', p.shift.current = some r' ∧ f r' = r := by simpa using hr
  exact h r' (cur r' hr')

/-- An addition to the open record that leaves its trip list. -/
theorem Part.record_same_kin (f : ShiftRec → ShiftRec) (h : ∀ r, (f r).trips = r.trips) : Kin p (p.record f) :=
  p.record_kin f fun r hr => by simpa only [ShiftRec.fits, h] using hr

/-- An update of the Alarm Unit outside points, external points, horn and lost count. -/
theorem Part.updAlarms_kin (f : Alarms → Alarms) (points : (f p.alarms).points = p.alarms.points)
    (ext : (f p.alarms).ext = p.alarms.ext) (horn : (f p.alarms).horn = p.alarms.horn)
    (events : (f p.alarms).events = p.alarms.events) (lost : (f p.alarms).lost = p.alarms.lost) :
    Kin p (p.updAlarms f) := by
  refine ⟨{ Alike.refl p with points := fun i => ?_, attrs := fun n => ?_, horn := horn }, id, fun l => events ▸ l,
    fun l => lost ▸ l, id⟩
  · rw [Part.updAlarms_alarms, points]; exact ⟨rfl, rfl⟩
  · rw [Part.updAlarms_alarms, ext]

theorem Part.offer_kin (k : EventKind) (s v : Nat) (m : Bool) (st : Nat) (o : Option Nat) :
    Kin p (p.offer k s v m st o) := by
  by_cases room : p.alarms.events.length < eventSize
  · refine ⟨{ Alike.refl p with points := fun i => ?_, attrs := fun n => ?_, horn := ?_ }, id, fun _ => ?_, ?_, id⟩ <;>
      simp only [Part.offer, Part.updAlarms_alarms, if_pos room, and_self, imp_self, List.length_append,
        List.length_singleton]
    omega
  · refine ⟨{ Alike.refl p with points := fun i => ?_, attrs := fun n => ?_, horn := ?_ }, id, ?_, fun _ => ?_, id⟩ <;>
      simp only [Part.offer, Part.updAlarms_alarms, if_neg room, and_self, imp_self, satAt_eq_min]
    omega

theorem Part.setExt_kin (i : Fin 16) (x : Ext) (h : x.attr = p.alarms.ext[i].attr) : Kin p (p.setExt i x) := by
  refine ⟨{ Alike.refl p with attrs := fun j => ?_ }, id, id, id, id⟩
  by_cases e : j = i
  · subst e; simpa only [Part.setExt, Part.updAlarms_alarms, set_self] using h
  · simp only [Part.setExt, Part.updAlarms_alarms, set_other _ _ _ _ e]

theorem Part.alloc_kin (a : Alloc) : Kin p { p with alloc := a } := ⟨{ Alike.refl p with }, id, id, id, id⟩

theorem Part.setMode_kin (m : PlantMode) : Kin p { p with mode := m } := ⟨{ Alike.refl p with }, id, id, id, id⟩

theorem Part.setFuel_kin (i : Fin 8) (cv : Nat) : Kin p (p.setFuel i cv) := ⟨{ Alike.refl p with }, id, id, id, id⟩

theorem Part.field_kin (f : Field) (h : f.output = p.field.output) : Kin p { p with field := f } :=
  ⟨{ Alike.refl p with output := h }, id, id, id, id⟩

end

/-! ## Frames queued, records changed -/

section
variable (p : Part)

theorem Part.transmitFailure_kin : Kin p p.transmitFailure :=
  (p.updLine_kin _).trans (Part.record_same_kin _ _ fun _ => rfl)

theorem Part.queueFrame_kin (body : FrameBody) : Kin p (p.queueFrame body) :=
  .ite (fun _ => .refl p) fun _ => .ite (fun _ => .refl p) fun _ =>
    .ite (fun room => p.updLine_kin _ fun _ => by
      have := ((Line.place_perm ⟨body, 0, none, p.line.nextTag⟩ p.line).length_eq)
      simp only [List.length_append, List.length_singleton] at this
      dsimp only; omega) fun _ => p.transmitFailure_kin

theorem Part.badFrame_kin : Kin p p.badFrame := (p.updLine_kin _).trans (Part.record_same_kin _ _ fun _ => rfl)

theorem Part.discardPartial_kin (r : Receiver) : Kin p (p.discardPartial r) := p.badFrame_kin.trans (Part.updLine_kin _ _)

theorem Part.lineIdled_kin (chars : List Byte) : Kin p (p.lineIdled chars) :=
  .ite (fun _ => p.discardPartial_kin _) fun _ => p.updLine_kin _

theorem Part.freeze_kin (b : Fin 2) : Kin p (p.freeze b) := p.alloc_kin _

theorem Part.evaluate_kin : Kin p p.evaluate :=
  .ite (fun _ => (p.alloc_kin _).trans (Part.record_same_kin _ _ fun _ => rfl)) fun _ => .refl p

theorem Part.deliverHeat_kin : Kin p p.deliverHeat := p.alloc_kin _

theorem Part.seeClaim_kin (k : Fin 3) (q : Fin 16) (u : Option Nat) : Kin p (p.seeClaim k q u) := by
  refine p.updRes_kin k _ ?_
  dsimp only
  split <;> [exact ⟨rfl, rfl, rfl⟩; (split <;> [exact ⟨rfl, rfl, rfl⟩; (split <;> exact ⟨rfl, rfl, rfl⟩)])]

theorem Part.dropClaimant_kin (k : Fin 3) (q : Fin 16) : Kin p (p.dropClaimant k q) := by
  refine p.updRes_kin k _ ?_
  split <;> exact ⟨rfl, rfl, rfl⟩

theorem Part.refreshMarks_kin : Kin p p.refreshMarks :=
  .forAll (fun k p => p.updRes_kin k _ (by split <;> exact ⟨rfl, rfl, rfl⟩)) p

theorem Part.beginReclaim_kin (k : Fin 3) : Kin p (p.beginReclaim k) := p.updRes_kin k _ ⟨rfl, rfl, rfl⟩

theorem Part.losePeer_kin (q : Fin 16) : Kin p (p.losePeer q) :=
  (p.updPeer_kin q _).trans (.forAll (fun k p => p.dropClaimant_kin k q) _)

theorem Part.renewPeer_kin (q : Fin 16) (s : Byte) : Kin p (p.renewPeer q s) :=
  (p.updPeer_kin q _).trans (Part.record_same_kin _ _ fun _ => rfl)

theorem Part.hearRelease_kin (k : Fin 3) (q : Fin 16) : Kin p (p.hearRelease k q) :=
  (p.updRes_kin k _ ⟨rfl, rfl, rfl⟩).trans (Part.dropClaimant_kin _ k q)

theorem Part.hearView_kin (c : List Byte) (q : Fin 16) (k : Fin 3) : Kin p (p.hearView c q k) :=
  (p.updRes_kin k _ ⟨rfl, rfl, rfl⟩).trans
    (.ite (fun _ => Part.seeClaim_kin _ k q none) fun _ => Part.dropClaimant_kin _ k q)

theorem Part.hearTripFlag_kin (c : List Byte) (q : Fin 16) : Kin p (p.hearTripFlag c q) :=
  .ite (fun _ => p.updAlarms_kin _ rfl rfl rfl rfl rfl) fun _ => p.updAlarms_kin _ rfl rfl rfl rfl rfl

theorem Part.followCauses_kin (b : Fin 2) : Kin p (p.followCauses b) :=
  p.updBurner_kin b _ (by split <;> exact ⟨rfl, rfl⟩)

theorem Part.zeroSetpoints_kin (b : Fin 2) : Kin p (p.zeroSetpoints b) :=
  .forAll (fun f p => p.updFeeder_kin f _ (by split <;> exact ⟨rfl, rfl, rfl, rfl⟩)) p

/-! ## Shift records -/

theorem Part.shift_kin (s : Shift) (h : p.shift.Fits → s.Fits) : Kin p { p with shift := s } :=
  ⟨{ Alike.refl p with }, id, id, id, h⟩

theorem Shift.keep_fits {s : Shift} {r : ShiftRec} (h : s.Fits) (hr : r.fits) : (s.keep r).Fits where
  store := by simp [Shift.keep]
  current := h.current
  stored := fun e he => by
    rcases List.mem_cons.1 (List.mem_of_mem_take he) with rfl | he
    · exact hr
    · exact h.stored e he

theorem Part.closeRecord_kin (restarted : Bool) : Kin p (p.closeRecord restarted) := by
  unfold Part.closeRecord
  split
  · next r hr =>
    refine p.shift_kin _ fun h => ?_
    obtain ⟨st, _, old⟩ := Shift.keep_fits (r := { r with closeTime := some p.now, restarted := restarted }) h (h.current r hr)
    exact ⟨st, by simp, old⟩
  · exact .refl p

theorem Part.openRecord_kin (n : Nat) (o : OpenOrigin) (i g : Bool) : Kin p (p.openRecord n o i g) := by
  refine p.shift_kin _ fun h => ⟨h.store, fun r hr => ?_, h.stored⟩
  obtain rfl : p.newRecord n o i g = r := by simpa using hr
  simp [ShiftRec.fits, Part.newRecord]

theorem Part.changeShift_kin (m : Nat) (o : OpenOrigin) (st : Nat) : Kin p (p.changeShift m o st) :=
  (((p.closeRecord_kin _).trans (Part.openRecord_kin _ _ _ _ _)).trans (Part.offer_kin _ _ _ _ _ _ _)).trans
    (Part.offer_kin _ _ _ _ _ _ _)

theorem Part.renumber_kin (m st : Nat) : Kin p (p.renumber m st) := by
  refine Kin.trans (q := { p with shift := { p.shift with number := m, current := p.shift.current.map _ } })
    (p.shift_kin _ fun h => ⟨h.store, fun r hr => ?_, h.stored⟩) (Part.offer_kin _ _ _ _ _ _ _)
  obtain ⟨r', hr', rfl⟩ : ∃ r', p.shift.current = some r' ∧ _ = r := by simpa using hr
  exact h.current r' hr'

theorem Part.hearShift_kin (m st : Nat) : Kin p (p.hearShift m st) :=
  .ite (fun _ => .refl p) fun _ => .ite (fun _ => p.renumber_kin m st) fun _ => p.changeShift_kin m _ st

theorem Shift.markRead_fits {s : Shift} (index : Nat) (h : s.Fits) : (s.markRead index).Fits := by
  unfold Shift.markRead
  split
  · exact h
  · refine ⟨by simpa using h.store, h.current, fun e he => ?_⟩
    obtain ⟨n, hn⟩ := List.mem_iff_getElem?.1 he
    rw [List.getElem?_modify] at hn
    obtain ⟨e', he', rfl⟩ := Option.map_eq_some_iff.1 hn
    have := h.stored e' (List.mem_of_getElem? he')
    split <;> simpa using this

theorem ShiftRec.tripped_fits (e : TripEntry) {r : ShiftRec} (h : r.fits) : (r.tripped e).fits := by
  unfold ShiftRec.tripped ShiftRec.fits at *
  dsimp only
  split
  · simp only [List.length_append, List.length_singleton]; omega
  · exact h

theorem ShiftRec.activation_trips (c : AlarmClass) (r : ShiftRec) : (r.activation c).trips = r.trips := by
  cases c <;> rfl

/-! ## The event window -/

/-- An OVERFLOW entry takes the place of the entry removed (R158). -/
theorem Alarms.readWindow_within (now : Time) (a : Alarms) :
    (a.events.length ≤ eventSize → (a.readWindow now).events.length ≤ eventSize) ∧
    (a.lost ≤ 255 → (a.readWindow now).lost ≤ 255) := by
  unfold Alarms.readWindow Alarms.removeOldest
  split
  · exact ⟨id, id⟩
  split
  · exact ⟨id, id⟩
  split
  · refine ⟨fun h => ?_, fun _ => Nat.zero_le _⟩
    simp only [List.length_append, List.length_tail, List.length_singleton]
    have : 0 < eventSize := by decide
    omega
  · refine ⟨fun h => ?_, id⟩
    simp only [List.length_tail]; omega

end

end Sys2Proof.Machine
end

section
/-! SUPPORT. A predicate of the part that the shared operations keep is kept by every row but those that configure, start
or reset: the walk through the rows, made once for all the laws of Safety.lean. -/

namespace Sys2Proof.Machine

-- One proof at a time: the whole package as one text must not start a thread for each of them.
set_option Elab.async false

open Sys2Proof.Config

/-- The station is STARTED, or `L` says that it does not matter. -/
def Awake (L : Prop) (p : Part) : Prop := L ∨ p.started = true

/-- A state in which a burner neither requests nor holds LIGHT-OFF (R78). -/
def BurnerState.free (s : BurnerState) : Bool := s != .lightWait && s != .igniting && s != .loading

/-- The operations on points that keep `I`, each where the model uses it; `L` holds where `I` is kept whether or not the
station is STARTED, and else `I` says that an UNSTARTED station is dormant. -/
structure PointWalk (I : Part → Prop) (L : Prop) : Prop where
  kin : ∀ {p q : Part}, Kin p q → I p → I q
  effAwake : ∀ {p : Part} {i : Fin 62}, I p → p.alarms.points[i].eff = true → Awake L p
  pointAwake : ∀ {p : Part} {i : Fin 62}, I p → p.alarms.points[i].state ≠ .normal → Awake L p
  point : ∀ {p : Part} (i : Fin 62) (f : Point → Point), I p → Awake L p →
    (p.alarms.points[i].state = .normal → (f p.alarms.points[i]).state = .normal) → I (p.updPoint i f)
  activate : ∀ {p : Part} (i : Fin 62), I p → Awake L p → I (p.activate i)
  horn : ∀ {p : Part} (on : Bool), I p → Awake L p → I (p.setHorn on)

/-- All the operations of the rows that keep `I`, each where the model uses it. -/
structure Walk (I : Part → Prop) (L : Prop) : Prop extends PointWalk I L where
  service : ∀ {p : Part} (k : Fin 3), I p → I (p.service k)
  yieldClaim : ∀ {p : Part} (k : Fin 3), I p → I (p.yieldClaim k)
  enterClaiming : ∀ {p : Part} (k : Fin 3), I p → p.claims[k].state = .waiting → I (p.enterClaiming k)
  claimNotice : ∀ {p : Part} (tag : Nat) (sent : Bool), I p → I (p.claimNotice tag sent)
  grant : ∀ {p : Part} (k : Fin 3), I p → p.claims[k].state = .claiming → I (p.grant k)
  conflict : ∀ {p : Part} (k : Fin 3) (q : Fin 16), I p → p.claims[k].state = .held → I (p.conflict k q)
  refuseSilent : ∀ {p : Part} (k : Fin 3), I p → p.started = true → I (p.refuseSilent k)
  leave : ∀ {p : Part} (b : Fin 2) (s : BurnerState) (fix : Burner → Burner) (mark : Bool), I p →
    p.burners[b].state ≠ .off → s.free = true → (s = .off ∨ s = .tripped ∨ p.burners[b].state ≠ .tripped) →
    (∀ x, (fix x).state = x.state ∧ (fix x).cfg = x.cfg) → I (p.burnerTo b s fix mark)
  enterLoading : ∀ {p : Part} (b : Fin 2), I p → p.burners[b].state = .igniting → I (p.enterLoading b)
  enterLightWait : ∀ {p : Part} (b : Fin 2) (c : BurnerState), I p →
    (p.burners[b].state = .held ∨ (p.started = true ∧ p.burners[b].state = .off ∧ p.burners[b].cfg.used = true ∧
      p.tripStands b = false)) → I (p.enterLightWait b c)
  settleFeeder : ∀ {p : Part} (f : Fin 6), I p → I (p.settleFeeder f)
  feederTo : ∀ {p : Part} (f : Fin 6) (s : FeederState) (sp : Nat), I p → p.started = true → I (p.feederTo f s sp)
  writeFeeder : ∀ {p : Part} (f : Fin 6), I p → p.started = true → I (p.writeFeeder f)
  fanTo : ∀ {p : Part} (n : Fin 4) (s : FanState), I p → s ≠ .startWait → s ≠ .starting →
    (s = .running → p.fans[n].state = .starting) →
    (p.started = true ∨ p.fans[n].state = .starting ∨ p.fans[n].state = .running) → I (p.fanTo n s)
  startFan : ∀ {p : Part} (n : Fin 4), I p → p.started = true → p.fans[n].state = .stopped →
    I ((p.fanTo n .startWait).request 1 n.val)
  grateTo : ∀ {p : Part} (s : GrateState), I p → (p.started = true ∨ p.grate.state = .running) → I (p.grateTo s)
  controlFan : ∀ {p : Part} (n : Fin 4), I p → p.started = true → I (p.controlFan n)
  controlGrate : ∀ {p : Part}, I p → p.started = true → I p.controlGrate
  setMix : ∀ {p : Part} (b : Fin 2) (m : Vector Nat 6), I p → p.started = true → p.burners[b].cfg.used = true →
    p.mixGood b m = true → I (p.setMix b m)
  rampStep : ∀ {p : Part} (b : Fin 2) (r : MixRamp), I p → p.ramps[b] = some r → I (p.rampStep b r)

/-- What each update of a list of objects keeps, all of them keep. -/
theorem forAll_keeps {I : Part → Prop} {α : Type} {l : List α} {f : α → Part → Part} {p : Part}
    (h : ∀ a q, I q → I (f a q)) (hp : I p) : I (p.forAll l f) := by
  induction l generalizing p with
  | nil => exact hp
  | cons a l ih => exact ih (h a p hp)

theorem ite_keeps {I : Part → Prop} {c : Prop} [Decidable c] {p q : Part} (h : c → I p) (g : ¬ c → I q) :
    I (if c then p else q) := by
  split
  · next hc => exact h hc
  · next hc => exact g hc

theorem whenDue_keeps {I : Part → Prop} {f : Part → Part} {p : Part} (d : Option Time) (h : I p → I (f p)) (hp : I p) :
    I (p.whenDue d f) := by
  unfold Part.whenDue
  split
  · exact ite_keeps (fun _ => h hp) fun _ => hp
  · exact hp

/-- A predicate kept while the lifecycle stays is kept with it. -/
theorem forAll_keeps_started {I : Part → Prop} {α : Type} {l : List α} {f : α → Part → Part} {p : Part}
    (h : ∀ a q, I q → q.started = true → I (f a q)) (hs : ∀ a q, (f a q).started = q.started) (hp : I p)
    (s : p.started = true) : I (p.forAll l f) ∧ (p.forAll l f).started = true :=
  forAll_keeps (I := fun q => I q ∧ q.started = true) (fun a q ⟨hq, sq⟩ => ⟨h a q hq sq, (hs a q).trans sq⟩) ⟨hp, s⟩

/-! ## Facts the guards need -/

theorem Part.effective_started {p : Part} {i : Fin 62} (h : p.effective i = true) : p.started = true := by
  simp only [Part.effective, Bool.and_eq_true] at h
  exact h.1.1

theorem Part.settlePoint_same (i : Fin 62) (p : Part) (same : Bool) (b : Block) (h : b ∉ tripBlocks) :
    b.Same p (p.settlePoint i same) :=
  (p.settlePoint_frame i same).1.same b h

@[simp] theorem Part.settlePoint_started (i : Fin 62) (p : Part) (same : Bool) :
    (p.settlePoint i same).started = p.started :=
  p.settlePoint_same i same .started (by simp [tripBlocks, pointBlocks, sendBlocks, burnerBlocks, mixBlocks, leaveBlocks])

@[simp] theorem Part.settlePoint_fans (i : Fin 62) (p : Part) (same : Bool) (n : Fin 4) :
    (p.settlePoint i same).fans[n] = p.fans[n] :=
  p.settlePoint_same i same (.fan n)
    (by simp [tripBlocks, pointBlocks, sendBlocks, burnerBlocks, mixBlocks, leaveBlocks])

@[simp] theorem Part.settlePoint_grate (i : Fin 62) (p : Part) (same : Bool) :
    (p.settlePoint i same).grate = p.grate :=
  p.settlePoint_same i same .grate
    (by simp [tripBlocks, pointBlocks, sendBlocks, burnerBlocks, mixBlocks, leaveBlocks])

@[simp] theorem Part.settle_started (p : Part) : p.settle.started = p.started :=
  p.settle_frame.same .started (by simp [settleBlocks, pointBlocks])

@[simp] theorem Part.settleFeeder_started (f : Fin 6) (p : Part) : (p.settleFeeder f).started = p.started :=
  (p.settleFeeder_frame f).same .started (by simp)

@[simp] theorem Part.secondOfFeeder_started (f : Fin 6) (p : Part) : (p.secondOfFeeder f).started = p.started := by
  unfold Part.secondOfFeeder Part.countRunning Part.totalize
  split <;> [(dsimp only; split <;> rfl); rfl]

theorem Part.started_of_frame {T : Set Block} {p q : Part} (h : ChangesOnly T p q) (hT : Block.started ∉ T) :
    q.started = p.started := h.same .started hT

theorem Feeder.moveSetpoint_same (t : Nat) (x : Feeder) : (x.moveSetpoint t).state = x.state ∧
    (x.moveSetpoint t).mix = x.mix ∧ (x.moveSetpoint t).cfg.used = x.cfg.used ∧
    (x.moveSetpoint t).cfg.burner = x.cfg.burner := by
  unfold Feeder.moveSetpoint Feeder.ramp
  dsimp only
  repeat' split
  all_goals exact ⟨rfl, rfl, rfl, rfl⟩

theorem Part.updPoint_kin (i : Fin 62) (f : Point → Point) (p : Part)
    (h : (f p.alarms.points[i]).state = p.alarms.points[i].state ∧ (f p.alarms.points[i]).eff = p.alarms.points[i].eff) :
    Kin p (p.updPoint i f) := by
  refine ⟨{ Alike.refl p with points := fun j => ?_ }, id, id, id, id⟩
  by_cases e : j = i
  · subst e; simpa only [Part.updPoint_alarms, set_self] using h
  · simp only [Part.updPoint_alarms, set_other _ _ _ _ e, and_self]

theorem Part.totalize_kin (f : Fin 6) (p : Part) : Kin p (p.totalize f) := by
  unfold Part.totalize
  exact (p.updFeeder_kin f _ ⟨rfl, rfl, rfl, rfl⟩).trans (Part.record_same_kin _ _ fun _ => rfl)

theorem Part.countRunning_kin (f : Fin 6) (p : Part) : Kin p (p.countRunning f) := by
  unfold Part.countRunning
  exact .ite (fun _ => (p.updFeeder_kin f _ ⟨rfl, rfl, rfl, rfl⟩).trans (Part.record_same_kin _ _ fun _ => rfl))
    fun _ => .refl _

theorem Part.air_kin (a : Air) (p : Part) : Kin p { p with air := a } := ⟨{ Alike.refl p with }, id, id, id, id⟩

theorem Part.formAir_kin (p : Part) : Kin p p.formAir := by
  unfold Part.formAir
  exact Kin.trans (.forAll (fun n q => q.updFan_kin n _ rfl) p) (Part.air_kin _ _)

theorem Fan.seen_state (now : Time) (c : Channel Nat) (present held : Bool) (x : Fan) :
    ((x.seeFlow now c).seeFeedback now present held).state = x.state := by
  unfold Fan.seeFeedback Fan.seeFlow
  dsimp only
  repeat' split
  all_goals rfl

theorem Part.scanGrate_kin (p : Part) : Kin p p.scanGrate := p.updGrate_kin _ ⟨rfl, rfl⟩

theorem Part.scanExternal_kin (n : Fin 16) (p : Part) : Kin p (p.scanExternal n) := by
  refine ⟨{ Alike.refl p with attrs := fun j => ?_ }, id, id, id, id⟩
  by_cases e : j = n
  · subst e
    rw [Part.scanExternal, Part.updAlarms_alarms, set_self]
    split <;> rfl
  · rw [Part.scanExternal, Part.updAlarms_alarms, set_other _ _ _ _ e]

/-- SILENT leaves at most the frame in hand (R19). -/
theorem Line.emptyQueue_length_le (l : Line) : l.emptyQueue.queue.length ≤ l.queue.length := by
  unfold Line.emptyQueue
  dsimp only
  split
  · exact Nat.zero_le _
  · rw [List.length_take]; exact Nat.min_le_right _ _

namespace PointWalk

variable {I : Part → Prop} {L : Prop} (w : PointWalk I L) {p : Part}
include w

theorem updPoint_moved (i : Fin 62) (s : PointState) (h : I p) (a : Awake L p) (e : p.alarms.points[i].state ≠ .normal) :
    I (p.movePoint i s) :=
  w.kin (Part.offer_kin _ _ _ _ _ _ _) (w.point i _ h a fun n => absurd n e)

theorem hornCheck (h : I p) (a : Awake L p) : I p.hornCheck :=
  ite_keeps (fun _ => h) fun _ => w.horn false h a

theorem risePoint (i : Fin 62) (h : I p) (a : Awake L p) : I (p.risePoint i) := by
  unfold Part.risePoint
  split
  · exact w.activate i h a
  · exact w.activate i h a
  · next e => exact w.updPoint_moved i _ h a (by rw [e]; decide)
  · exact h

theorem fallPoint (i : Fin 62) (h : I p) (a : Awake L p) : I (p.fallPoint i) := by
  unfold Part.fallPoint
  split
  · next e => exact w.updPoint_moved i _ h a (by rw [e]; decide)
  · next e =>
    exact ite_keeps (fun _ => w.updPoint_moved i _ h a (by rw [e]; decide))
      fun _ => w.updPoint_moved i _ h a (by rw [e]; decide)
  · exact h

theorem settlePoint (i : Fin 62) (same : Bool) (h : I p) : I (p.settlePoint i same) := by
  unfold Part.settlePoint
  dsimp only
  split
  · exact h
  · next e =>
    have a : Awake L p := by
      cases he : p.effective i
      · exact w.effAwake (i := i) h (by cases hx : p.alarms.points[i].eff <;> simp_all)
      · exact .inr (Part.effective_started he)
    have h' : I (p.updPoint i fun x => { x with eff := p.effective i }) := w.point i _ h a id
    have a' : Awake L (p.updPoint i fun x => { x with eff := p.effective i }) := a
    have fallen := w.fallPoint i h' a'
    have fallenAwake : Awake L ((p.updPoint i fun x => { x with eff := p.effective i }).fallPoint i) :=
      a'.imp id fun s => (Part.started_of_frame (Part.fallPoint_frame i _) (by simp [pointBlocks])).trans s
    exact ite_keeps (fun _ => h') fun _ => ite_keeps (fun _ => w.risePoint i h' a') fun _ =>
      ite_keeps (fun _ => w.hornCheck fallen fallenAwake) fun _ => fallen

theorem settlePoints (l : List (Fin 62)) (h : I p) : I (p.settlePoints l) :=
  forAll_keeps (fun i _ hq => w.settlePoint i false hq) h

theorem reply (cmd : Nat) (code : Code) (data : List Byte) (h : I p) : I (p.reply cmd code data) :=
  w.kin (Part.reply_kin _ cmd code data) h

end PointWalk

namespace Walk

variable {I : Part → Prop} {L : Prop} (w : Walk I L) {p : Part}
include w

/-! ## The end of an event -/

theorem settle (h : I p) : I p.settle :=
  w.settlePoints _ (w.kin (Part.evaluate_kin _) (w.kin (.forAll (fun b q => q.freeze_kin b) _)
    (forAll_keeps (fun k _ hq => w.service k hq) h)))

theorem burnerMoved (b : Fin 2) (s : BurnerState) (fix : Burner → Burner) (mark : Bool) (h : I p)
    (e : p.burners[b].state ≠ .off) (out : p.burners[b].state ≠ .tripped) (hs : s.free = true)
    (hf : ∀ x, (fix x).state = x.state ∧ (fix x).cfg = x.cfg) : I (p.burnerTo b s fix mark) :=
  w.leave b s fix mark h e hs (.inr (.inr out)) hf

theorem enterOff (b : Fin 2) (mark : Bool) (h : I p) (e : p.burners[b].state ≠ .off) : I (p.enterOff b mark) :=
  w.leave b .off id mark h e (by decide) (.inl rfl) fun _ => ⟨rfl, rfl⟩

theorem enterStopping (b : Fin 2) (h : I p) (e : p.burners[b].state.fires = true) : I (p.enterStopping b) :=
  w.burnerMoved b .stopping id false h (by rintro c; rw [c] at e; cases e) (by rintro c; rw [c] at e; cases e) (by decide)
    fun _ => ⟨rfl, rfl⟩

theorem enterFiring (b : Fin 2) (h : I p) (e : p.burners[b].state = .loading ∨ p.burners[b].state = .held) :
    I (p.enterFiring b) :=
  w.burnerMoved b .firing _ false h (by rcases e with e | e <;> rw [e] <;> decide)
    (by rcases e with e | e <;> rw [e] <;> decide) (by decide) fun _ => ⟨rfl, rfl⟩

theorem hold (b : Fin 2) (c : Bool) (h : I p) (e : p.burners[b].state ≠ .off) (out : p.burners[b].state ≠ .tripped) :
    I (p.hold b c) := w.burnerMoved b .held _ false h e out (by decide) fun _ => ⟨rfl, rfl⟩

theorem tripBurner (b : Fin 2) (h : I p) : I (p.tripBurner b) :=
  ite_keeps (fun _ => h) fun e =>
    w.leave b .tripped id false h (fun c => e (by simp [c, -Fin.getElem_fin])) (by decide) (.inr (.inl rfl))
      fun _ => ⟨rfl, rfl⟩

theorem resume (b : Fin 2) (h : I p) (e : p.burners[b].state = .held) : I (p.resume b) := by
  unfold Part.resume
  split
  · exact w.enterFiring b h (.inr e)
  · exact w.enterLightWait b _ h (.inl e)

theorem autoResume (b : Fin 2) (h : I p) : I (p.autoResume b) :=
  ite_keeps (fun m => w.resume b h (by
    simp only [Part.mayAutoResume, Bool.and_eq_true, beq_iff_eq] at m
    exact m.1.1.1.1.1.2)) fun _ => h

theorem settleHolds (h : I p) : I p.settleHolds :=
  forAll_keeps (fun b _ hq => w.autoResume b (w.kin (Part.followCauses_kin _ b) hq)) h

theorem settleAll (h : I p) : I p.settleAll := w.settle (w.settleHolds (w.settlePoints _ h))

theorem keepHorn (i : Fin 62) (h : I p) : I (p.keepHorn i) :=
  ite_keeps (fun e => w.horn true h (w.pointAwake h (i := i) (by rw [e]; decide))) fun _ => h

theorem keepAborted (before : Vector Fan 4) (h : I p) : I (p.keepAborted before) :=
  forAll_keeps (fun _ _ hq => ite_keeps (fun _ => w.keepHorn _ hq) fun _ => hq) h

theorem settled (cmd : Nat) (h : I p) : I (p.settle.reply cmd .done) := w.reply _ _ _ (w.settle h)

theorem settledAll (cmd : Nat) (h : I p) : I (p.settleAll.reply cmd .done) := w.reply _ _ _ (w.settleAll h)

theorem checkStopped (b : Fin 2) (h : I p) : I (p.checkStopped b) :=
  ite_keeps (fun ⟨e, _⟩ => w.enterOff b false h (by rw [e]; decide)) fun _ => h

/-! ## The rows of the line and the peers -/

theorem setSilent (h : I p) (s : p.started = true) : I p.setSilent := by
  refine (forAll_keeps_started (fun k q hq sq => w.refuseSilent k hq sq) (fun k q => ?_)
    (w.kin (p.updLine_kin (fun l => { l.emptyQueue with silent := true }) fun l =>
      le_trans p.line.emptyQueue_length_le l) h) s).1
  exact Part.started_of_frame (Part.refuseSilent_frame k q) (by
    simp [userBlocks, tripBlocks, pointBlocks, sendBlocks, burnerBlocks, mixBlocks, leaveBlocks])

theorem duplicateFrame (h : I p) : I p.duplicateFrame := by
  have h' := w.kin (p.updLine_kin fun l =>
    { l with counts := { l.counts with duplicates := l.counts.duplicates + 1 },
             dupDeadline := some (later p.now p.agingTime) }) h
  refine ite_keeps (fun s => ?_) fun _ => h'
  exact ite_keeps (fun _ => w.settlePoint 1 false h') fun _ =>
    w.setSilent (w.settlePoint 1 false h') ((Part.settlePoint_started ..).trans s)

theorem hearClaim (k : Fin 3) (u : Nat) (q : Fin 16) (h : I p) : I (p.hearClaim k u q) := by
  refine ite_keeps (fun _ => h) fun _ => ?_
  have seen := w.kin (p.seeClaim_kin k q (some u)) h
  have yielded : I (if q < (p.seeClaim k q (some u)).strapStation then (p.seeClaim k q (some u)).yieldClaim k
      else p.seeClaim k q (some u)) := ite_keeps (fun _ => w.yieldClaim k seen) fun _ => seen
  exact ite_keeps (fun _ => w.kin (Part.queueFrame_kin _ _) yielded) fun _ => yielded

theorem hearSets (c : List Byte) (q : Fin 16) (h : I p) : I (p.hearSets c q) := by
  refine forAll_keeps (fun k r hr => ?_) (forAll_keeps (fun k r hr => ?_)
    (forAll_keeps (fun k r hr => w.kin (r.hearView_kin c q k) hr) h))
  · refine ite_keeps (fun e => w.conflict k q hr ?_) fun _ => hr
    simp only [Bool.and_eq_true, beq_iff_eq] at e
    exact e.2
  · exact ite_keeps (fun _ => w.yieldClaim k hr) fun _ => hr

theorem takeStatus (q : Fin 16) (c : List Byte) (h : I p) : I (p.takeStatus q c) :=
  ite_keeps (fun _ => w.kin (Part.hearShift_kin _ _ _) (w.settlePoint 2 false (w.kin (Part.hearTripFlag_kin _ c q)
    (w.hearSets c q (w.kin (p.updPeer_kin q _) h))))) fun _ => h

theorem handOn (q : Fin 16) (kind : Byte) (c : List Byte) (h : I p) : I (p.handOn q kind c) := by
  refine ite_keeps (fun _ => w.takeStatus q c h) fun _ => ite_keeps (fun _ => ?_) fun _ => ite_keeps (fun _ => ?_) fun _ =>
    ite_keeps (fun _ => ?_) fun _ => w.kin (p.hearShift_kin _ _) h
  · split
    · exact w.hearClaim _ _ q h
    · exact h
  · split
    · exact w.kin (p.hearRelease_kin _ q) h
    · exact h
  · exact ite_keeps (fun _ => w.kin (p.updAlarms_kin _ rfl rfl rfl rfl rfl) h) fun _ => h

theorem acceptFrame (q : Fin 16) (l : List Byte) (h : I p) : I (p.acceptFrame q l) :=
  w.kin (Part.refreshMarks_kin _) (w.handOn q _ _ (w.kin (Part.renewPeer_kin _ q _)
    (w.kin ((p.updLine_kin _).trans (Part.record_same_kin _ _ fun _ => rfl)) h)))

theorem wholeFrame (l : List Byte) (h : I p) : I (p.wholeFrame l) := by
  refine ite_keeps (fun _ => ?_) fun _ => w.kin p.badFrame_kin h
  have h' := w.kin (p.updLine_kin fun x => { x with stuck := false }) h
  split
  · exact ite_keeps (fun _ => w.duplicateFrame h') fun _ => w.acceptFrame _ l h'
  · exact h'

theorem takeChars (chars : List Byte) (h : I p) : I (p.takeChars chars) := by
  unfold Part.takeChars
  split
  · refine ite_keeps (fun _ => w.kin (p.discardPartial_kin _) h) fun _ => ite_keeps (fun _ => w.kin (p.updLine_kin _) h)
      fun _ => ?_
    have whole := w.wholeFrame ((p.line.assembly ++ chars).take (frameSize (p.line.assembly ++ chars)))
      (w.kin (p.updLine_kin fun x => { x with assembly := [], receiver := .behind }) h)
    exact ite_keeps (fun _ => w.kin (Part.discardPartial_kin _ _) whole) fun _ => whole
  · exact ite_keeps (fun _ => h) fun _ => w.kin (p.discardPartial_kin _) h
  · exact h
  · exact h

theorem sentWhole (f : TxFrame) (h : I p) : I (p.sentWhole f) := 
  w.claimNotice _ _ (w.kin (p.updLine_kin _ fun l => le_trans (by simp) l) h)

theorem failAttempt (f : TxFrame) (t : List TxFrame) (h : I p) (q : p.line.queue = f :: t) : I (p.failAttempt f t) := by
  have shorter : t.length ≤ p.line.queue.length := by simp [q]
  refine ite_keeps (fun _ => w.kin (p.updLine_kin _ (le_trans shorter)) h) fun _ => ite_keeps (fun _ => ?_) fun _ => ?_
  · refine w.kin (Part.record_same_kin _ _ fun _ => rfl) (w.kin (p.updLine_kin _ (le_trans ?_)) h)
    rw [(orderQueue_perm _).length_eq, q]
    exact le_rfl
  · exact w.claimNotice _ _ (w.kin ((p.updLine_kin _ (le_trans shorter)).trans (Part.transmitFailure_kin _)) h)

theorem endStagger (k : Fin 3) (h : I p) (e : p.claims[k].state = .waiting) : I (p.endStagger k) :=
  ite_keeps (fun _ => w.enterClaiming k h e) fun _ => w.kin (p.updRes_kin k _ ⟨rfl, rfl, rfl⟩) h

/-! ## The rows of the plant -/

theorem failStart (n : Fin 4) (h : I p) (e : p.fans[n].state = .starting) : I (p.failStart n) := by
  have h' := w.settlePoint (fanFailPoint n) false (w.kin (p.updFan_kin n (fun x => { x with startFail := true }) rfl) h)
  refine w.settlePoint _ true (w.fanTo n _ h' (by decide) (by decide) nofun (.inr (.inl ?_)))
  rw [Part.settlePoint_fans, Part.updFan_fans, set_self]; exact e

theorem loseFan (n : Fin 4) (h : I p) (e : p.fans[n].state = .running) : I (p.loseFan n) := by
  have h' := w.settlePoint (fanTripPoint n) false (w.kin (p.updFan_kin n (fun x => { x with tripCond := true }) rfl) h)
  refine w.settlePoint _ true (w.fanTo n _ h' (by decide) (by decide) nofun (.inr (.inr ?_)))
  rw [Part.settlePoint_fans, Part.updFan_fans, set_self]; exact e

theorem faultGrate (h : I p) (e : p.grate.state = .running) : I p.faultGrate := by
  have h' := w.settlePoint 45 false (w.kin (p.updGrate_kin (fun g => { g with fault := true }) ⟨rfl, rfl⟩) h)
  refine w.settlePoint _ true (w.grateTo _ h' (.inr ?_))
  rw [Part.settlePoint_grate]; exact e

theorem coolBurner (b : Fin 2) (h : I p) : I (p.coolBurner b) := by
  refine ite_keeps (fun _ => h) fun _ => ?_
  split
  iterate 3 next e => exact w.enterOff b false h (by rw [e]; decide)
  iterate 2 next e => exact w.enterStopping b h (by rw [e]; rfl)
  exact h

theorem changeMode (m : PlantMode) (h : I p) : I (p.changeMode m) := by
  have h' := w.kin (p.setMode_kin m) h
  exact w.settleAll (w.kin (Part.offer_kin _ _ _ _ _ _ _)
    (ite_keeps (fun _ => forAll_keeps (fun b _ hq => w.coolBurner b hq) h') fun _ => h'))

theorem checkLoaded (b : Fin 2) (h : I p) : I (p.checkLoaded b) :=
  ite_keeps (fun ⟨e, _⟩ => w.enterFiring b h (.inl e)) fun _ => h

theorem secondOfFeeder (f : Fin 6) (h : I p) : I (p.secondOfFeeder f) := by
  refine ite_keeps (fun _ => ?_) fun _ => h
  refine w.kin (Part.updFeeder_kin _ f _ ?_) ?_
  · unfold Feeder.closeBucket; split <;> exact ⟨rfl, rfl, rfl, rfl⟩
  exact w.kin ((Part.totalize_kin f p).trans (Part.countRunning_kin f _)) h

theorem stationSecond (h : I p) : I p.stationSecond := by
  refine forAll_keeps (fun f _ hq => w.secondOfFeeder f hq) (forAll_keeps (fun b q hq => ?_) ?_)
  · exact ite_keeps (fun _ => w.kin (q.record_same_kin _ fun _ => rfl) hq) fun _ => hq
  · exact ite_keeps (fun _ => w.kin (p.record_same_kin _ fun _ => rfl) h) fun _ => h

theorem dose (h : I p) (s : p.started = true) : I p.dose := by
  have moved := forAll_keeps_started (l := p.usedFeeders)
    (f := fun f q => q.updFeeder f (Feeder.moveSetpoint q.alloc.massF[f])) (fun f q hq _ => w.kin (q.updFeeder_kin f _ (Feeder.moveSetpoint_same _ _)) hq) (fun _ _ => rfl) h s
  have settled := forAll_keeps_started (l := feederIds) (f := Part.settleFeeder) (fun f _ hq _ => w.settleFeeder f hq)
    (fun f q => q.settleFeeder_started f) moved.1 moved.2
  have written := fun l => forAll_keeps_started (l := l)
    (f := fun f q => (q.updFeeder f Feeder.updateTrim).writeFeeder f) (fun f q hq sq => w.writeFeeder f
      (w.kin (q.updFeeder_kin f _ (by unfold Feeder.updateTrim; split <;> exact ⟨rfl, rfl, rfl, rfl⟩)) hq) sq)
    (fun _ _ => rfl) settled.1 settled.2
  exact forAll_keeps (fun f q hq => w.kin (q.updFeeder_kin f _ (by
    unfold Feeder.testTimers; split <;> exact ⟨rfl, rfl, rfl, rfl⟩)) hq) (written _).1

theorem controlPeriod (t : Time) (h : I p) (s : p.started = true) : I (p.controlPeriod t) := by
  have h' : I { p with nextFeeder := nextMultiple t feederPeriod } := w.kin ⟨{ Alike.refl p with }, id, id, id, id⟩ h
  have second : I (if t % second = 0 then Part.stationSecond { p with nextFeeder := nextMultiple t feederPeriod }
      else { p with nextFeeder := nextMultiple t feederPeriod }) ∧ Part.started (if t % second = 0 then
        Part.stationSecond { p with nextFeeder := nextMultiple t feederPeriod }
      else { p with nextFeeder := nextMultiple t feederPeriod }) = true := by
    split
    · exact ⟨w.stationSecond h', (Part.started_of_frame (Part.stationSecond_frame _) (by simp)).trans s⟩
    · exact ⟨h', s⟩
  exact w.settle (forAll_keeps (fun b _ hq => w.checkStopped b hq) (forAll_keeps (fun b _ hq => w.checkLoaded b hq)
    (w.kin (Part.deliverHeat_kin _) (w.dose second.1 second.2))))

theorem cooled (h : I p) (s : p.started = true) :
    I (((((p.forAll fanIds Part.controlFan).controlGrate).formAir).forAll fanIds Part.fanSecond).grateSecond.settle) := by
  have fans := forAll_keeps_started (l := fanIds) (f := Part.controlFan) (fun n _ hq sq => w.controlFan n hq sq)
    (fun n q => Part.started_of_frame (q.controlFan_frame n) (by simp)) h s
  have air := w.kin (Part.formAir_kin _) (w.controlGrate fans.1 fans.2)
  have seconds := forAll_keeps (l := fanIds) (f := Part.fanSecond)
    (fun n q hq => ite_keeps (fun _ => w.kin (q.record_same_kin _ fun _ => rfl) hq) fun _ => hq) air
  exact w.settle (w.kin (Part.record_same_kin _ _ fun _ => rfl) seconds)

theorem coolingPeriod (t : Time) (h : I p) (s : p.started = true) : I (p.coolingPeriod t) :=
  w.cooled (p := { p with nextCool := nextMultiple t second }) (w.kin ⟨{ Alike.refl p with }, id, id, id, id⟩ h) s

/-! ## The field scan -/

theorem enterLocal (f : Fin 6) (h : I p) (s : p.started = true) : I (p.enterLocal f) :=
  w.checkStopped _ (w.kin (Part.freeze_kin _ _) (w.kin (Part.offer_kin _ _ _ _ _ _ _) (w.feederTo f _ _ h s)))

theorem leaveLocal (f : Fin 6) (h : I p) (s : p.started = true) : I (p.leaveLocal f) :=
  w.checkStopped _ (w.kin (Part.freeze_kin _ _) (w.kin (Part.offer_kin _ _ _ _ _ _ _)
    (ite_keeps (fun _ => w.feederTo f _ _ h s) fun _ => w.feederTo f _ _ h s)))

theorem takeLocal (c : Channel Bool) (f : Fin 6) (h : I p) : I (p.takeLocal c f) := by
  refine ite_keeps (fun _ => h) fun e => ?_
  have s : p.started = true := by
    simp only [Bool.or_eq_true, not_or, Bool.not_eq_true', Bool.not_eq_false] at e
    exact e.1.1
  refine ite_keeps (fun _ => ite_keeps (fun _ => h) fun _ => w.enterLocal f h s) fun _ =>
    ite_keeps (fun _ => w.leaveLocal f h s) fun _ => ite_keeps (fun _ => h) fun _ => w.settleFeeder f h

theorem scanFeeder (v : Vector (Channel Bool) 6) (f : Fin 6) (h : I p) : I (p.scanFeeder v f) := by
  refine ite_keeps (fun _ => w.takeLocal _ f (w.kin (p.updFeeder_kin f _ ?_) h)) fun _ => h
  unfold Feeder.scan Feeder.spoil
  split <;> [split; skip] <;> exact ⟨rfl, rfl, rfl, rfl⟩

theorem scanPermit (b : Fin 2) (h : I p) : I (p.scanPermit b) := by
  refine ite_keeps (fun _ => h) fun _ => ?_
  split
  · next e => exact w.enterOff b false h (by rw [e]; decide)
  iterate 3 next e => exact w.hold b false h (by rw [e]; decide) (by rw [e]; decide)
  exact h

theorem scanFan (n : Fin 4) (h : I p) : I (p.scanFan n) := by
  unfold Part.scanFan
  refine w.kin (Part.updFan_kin _ n _ ?_) (ite_keeps (fun e => ?_) fun _ => h)
  · exact Fan.seen_state _ _ _ _ _
  · have starting : p.fans[n].state = .starting := by
      simp only [Part.startComplete, Bool.and_eq_true, beq_iff_eq] at e
      exact e.1.1.1
    exact w.fanTo n .running h (by decide) (by decide) (fun _ => starting) (.inr (.inl starting))

theorem handScan (v : Vector (Channel Bool) 6) (h : I p) : I (p.handScan v) := by
  have fed := forAll_keeps (l := feederIds) (fun f _ hq => w.scanFeeder v f hq) (w.settlePoint 0 false h)
  have lit := forAll_keeps (l := burnerIds) (f := Part.scanFlame)
    (fun b q hq => ite_keeps (fun _ => w.kin (q.updBurner_kin b _ ⟨rfl, rfl⟩) hq) fun _ => hq) fed
  have fans := forAll_keeps (l := fanIds) (fun n _ hq => w.scanFan n hq)
    (forAll_keeps (l := burnerIds) (fun b _ hq => w.scanPermit b hq) lit)
  have grate := w.kin (Part.scanGrate_kin _) fans
  exact w.settleAll (forAll_keeps (l := List.finRange 16) (fun n q hq => w.kin (q.scanExternal_kin n) hq) grate)

theorem completeScan (l : List Byte) (h : I p) : I (p.completeScan l) :=
  w.handScan _ (w.kin (p.field_kin _ (Field.move_output _ _ _)) h)

/-! ## Alarms -/

theorem putPoint (i : Fin 62) (s : PointState) (h : I p) (e : p.alarms.points[i].state ≠ .normal) :
    I (p.putPoint i s) := w.point i _ h (w.pointAwake h e) fun n => absurd n e

theorem ackPoint (i : Fin 62) (h : I p) : I (p.ackPoint i) := by
  unfold Part.ackPoint
  split
  · next a => exact w.putPoint i _ h (by rintro e; rw [e] at a; cases a)
  · exact h

theorem endShelving (i : Fin 62) (h : I p) : I (p.endShelving i) := by
  have h' := w.kin (p.updPoint_kin i (fun x => { x with shelvedUntil := none }) ⟨rfl, rfl⟩) h
  exact ite_keeps (fun e => w.activate i h' (show Awake L p from w.effAwake h e)) fun _ => h'

end Walk

end Sys2Proof.Machine
end

section
/-! SUPPORT. The walk's rows: every row but those that configure, start or reset keeps what the operations keep. -/

namespace Sys2Proof.Machine

-- One proof at a time: the whole package as one text must not start a thread for each of them.
set_option Elab.async false

open Sys2Proof.Config

theorem effect_keeps {I : Part → Prop} {c : Instr} {p r : Part} (e : exec c ⟨p, []⟩ = .next ⟨r, []⟩) (h : I r) :
    I (effect c p) := (effect_of_exec e).symm ▸ h

/-- The rows that configure the station, start it or reset it. -/
def reconfigures : Instr → Bool
  | .pinReset .. | .configureStation .. | .startStation | .restartStation | .configureBurner .. | .configureFeeder ..
  | .configureFan .. | .configureGrate .. | .configureExternalPoint .. => true
  | _ => false

namespace Walk

variable {I : Part → Prop} {L : Prop} (w : Walk I L) {p : Part}
include w

/-! ## The checks that commands begin with -/

theorem burnerCommand (cmd n : Nat) (f : Fin 2 → Part → Part) (h : I p)
    (hf : ∀ b, p.started = true → p.burners[b].cfg.used = true → I (f b p)) : I (p.burnerCommand cmd n f) := by
  unfold Part.burnerCommand
  refine ite_keeps (fun _ => w.reply _ _ _ h) fun s => ?_
  split
  · exact w.reply _ _ _ h
  · exact ite_keeps (fun u => hf _ (by simpa using s) u) fun _ => w.reply _ _ _ h

theorem fanCommand (cmd k : Nat) (f : Fin 4 → Part → Part) (h : I p) (hf : ∀ n, p.started = true → I (f n p)) :
    I (p.fanCommand cmd k f) := by
  unfold Part.fanCommand
  refine ite_keeps (fun _ => w.reply _ _ _ h) fun s => ?_
  split
  · exact w.reply _ _ _ h
  · exact ite_keeps (fun _ => hf _ (by simpa using s)) fun _ => w.reply _ _ _ h

theorem pointCommand (cmd n : Nat) (f : Fin 62 → Part → Part) (h : I p) (hf : ∀ i, p.started = true → I (f i p)) :
    I (p.pointCommand cmd n f) := by
  unfold Part.pointCommand
  refine ite_keeps (fun _ => w.reply _ _ _ h) fun s => ?_
  split
  · exact w.reply _ _ _ h
  · exact hf _ (by simpa using s)

theorem grateCommand (cmd : Nat) (f : Part → Part) (h : I p) (hf : p.started = true → I (f p)) :
    I (p.grateCommand cmd f) :=
  ite_keeps (fun _ => w.reply _ _ _ h) fun s => ite_keeps (fun _ => hf (by simpa using s)) fun _ => w.reply _ _ _ h

theorem engineering (cmd : Nat) (f : Part → Part) (h : I p) (hf : I (f p)) : I (p.engineering cmd f) :=
  ite_keeps (fun _ => hf) fun _ => w.reply _ _ _ h

theorem resetPoint (cmd : Nat) (i : Fin 62) (right : Bool) (h : I p) : I (p.resetPoint cmd i right) :=
  ite_keeps (fun _ => w.reply _ _ _ h) fun _ =>
    ite_keeps (fun e => w.reply _ _ _ (w.putPoint i _ h (by rw [e]; decide))) fun _ => w.reply _ _ _ h

/-! ## Commands, by unit -/

theorem setMode (mode : Nat) (h : I p) : I (effect (.setMode mode) p) := by
  refine effect_keeps rfl ?_
  refine ite_keeps (fun _ => w.reply _ _ _ h) fun _ => ?_
  split
  · exact w.reply _ _ _ h
  · exact ite_keeps (fun _ => w.reply _ _ _ h) fun _ =>
      ite_keeps (fun _ => w.reply _ _ _ (w.changeMode _ h)) fun _ => w.reply _ _ _ h

theorem startBurner (n : Nat) (h : I p) : I (effect (.startBurner n) p) := by
  refine effect_keeps rfl ?_
  refine w.burnerCommand _ _ _ h fun b s u => ?_
  refine ite_keeps (fun _ => w.reply _ _ _ h) fun off => ite_keeps (fun _ => w.reply _ _ _ h) fun _ =>
    ite_keeps (fun _ => w.reply _ _ _ h) fun permitted => w.settled _ (w.enterLightWait b _ h (.inr ⟨s, ?_, u, ?_⟩))
  · simpa [-Fin.getElem_fin] using off
  · simp only [Part.startPermitted, Bool.not_eq_true', Bool.not_eq_false, Bool.and_eq_true] at permitted
    exact permitted.1.2

theorem stopBurner (n : Nat) (h : I p) : I (effect (.stopBurner n) p) := by
  refine effect_keeps rfl ?_
  refine w.burnerCommand _ _ _ h fun b _ _ => ?_
  split
  iterate 3 next e => exact w.settled _ (w.enterOff b false h (by rw [e]; decide))
  iterate 2 next e => exact w.settled _ (w.enterStopping b h (by rw [e]; rfl))
  exact w.reply _ _ _ h

theorem resumeBurner (n : Nat) (h : I p) : I (effect (.resumeBurner n) p) := by
  refine effect_keeps rfl ?_
  refine w.burnerCommand _ _ _ h fun b _ _ => ?_
  refine ite_keeps (fun _ => w.reply _ _ _ h) fun e => ite_keeps (fun _ => w.reply _ _ _ h) fun _ =>
    ite_keeps (fun _ => w.reply _ _ _ h) fun _ => w.settled _ (w.resume b h ?_)
  simpa [-Fin.getElem_fin] using e

theorem resetTripBurner (n : Nat) (h : I p) : I (effect (.resetTripBurner n) p) := by
  refine effect_keeps rfl ?_
  refine w.burnerCommand _ _ _ h fun b _ _ => ?_
  refine ite_keeps (fun _ => w.reply _ _ _ h) fun e => ite_keeps (fun _ => w.reply _ _ _ h) fun _ =>
    w.settled _ (w.enterOff b false h ?_)
  rw [not_not.1 e]; decide

theorem setMixCommand (n m0 m1 m2 m3 m4 m5 : Nat) (h : I p) : I (effect (.setMix n m0 m1 m2 m3 m4 m5) p) := by
  refine effect_keeps rfl ?_
  refine w.burnerCommand _ _ _ h fun b s u => ?_
  refine ite_keeps (fun _ => w.reply _ _ _ h) fun good => ite_keeps (fun _ => w.reply _ _ _ h) fun _ =>
    w.settled _ (w.setMix b _ h s u ?_)
  simpa using good

theorem startFanCommand (n : Nat) (h : I p) : I (effect (.startFan n) p) := by
  refine effect_keeps rfl ?_
  refine w.fanCommand _ _ _ h fun n s => ?_
  exact ite_keeps (fun _ => w.reply _ _ _ h) fun e => ite_keeps (fun _ => w.reply _ _ _ h) fun _ =>
    w.settled _ (w.startFan n h s (not_not.1 e))

theorem stopFan (n : Nat) (h : I p) : I (effect (.stopFan n) p) := by
  refine effect_keeps rfl ?_
  refine w.fanCommand _ _ _ h fun n s => ?_
  split
  iterate 3 exact w.settled _ (w.fanTo n .stopped h (by decide) (by decide) nofun (.inl s))
  exact w.reply _ _ _ h

theorem resetFan (n : Nat) (h : I p) : I (effect (.resetFan n) p) := by
  refine effect_keeps rfl ?_
  refine w.fanCommand _ _ _ h fun n s => ?_
  exact ite_keeps (fun _ => w.reply _ _ _ h) fun _ => ite_keeps (fun _ => w.reply _ _ _ h) fun _ =>
    w.settled _ (w.fanTo n .stopped h (by decide) (by decide) nofun (.inl s))

theorem startGrate (h : I p) : I (effect .startGrate p) := by
  refine effect_keeps rfl ?_
  exact (w.grateCommand _ _ h fun s =>
    ite_keeps (fun _ => w.settled _ (w.grateTo _ h (.inl s))) fun _ => w.reply _ _ _ h)

theorem stopGrate (h : I p) : I (effect .stopGrate p) := by
  refine effect_keeps rfl ?_
  exact (w.grateCommand _ _ h fun s =>
    ite_keeps (fun _ => w.settled _ (w.grateTo _ h (.inl s))) fun _ => w.reply _ _ _ h)

theorem setBedPressure (n : Nat) (h : I p) : I (effect (.setBedPressure n) p) := by
  refine effect_keeps rfl ?_
  exact (w.grateCommand _ _ h fun _ => ite_keeps (fun _ => w.reply _ _ _ h) fun _ =>
    w.reply _ _ _ (w.kin (p.updGrate_kin _ ⟨rfl, rfl⟩) h))

theorem acknowledge (n : Nat) (h : I p) : I (effect (.acknowledge n) p) := by
  refine effect_keeps rfl ?_
  refine w.pointCommand _ _ _ h fun i s => ite_keeps (fun _ => w.reply _ _ _ ?_) fun _ => w.reply _ _ _ h
  exact w.hornCheck (w.ackPoint i h) (.inr ((Part.started_of_frame (Part.ackPoint_frame i p) (by simp)).trans s))

theorem acknowledgeAll (h : I p) : I (effect .acknowledgeAll p) := by
  refine effect_keeps rfl ?_
  refine ite_keeps (fun s => w.reply _ _ _ ?_) fun _ => w.reply _ _ _ h
  have acked := forAll_keeps_started (l := pointIds) (f := Part.ackPoint) (fun i _ hq _ => w.ackPoint i hq)
    (fun i q => Part.started_of_frame (q.ackPoint_frame i) (by simp)) h s
  exact w.hornCheck acked.1 (.inr acked.2)

theorem shelve (n m : Nat) (h : I p) : I (effect (.shelve n m) p) := by
  refine effect_keeps rfl ?_
  refine w.engineering _ _ h (w.pointCommand _ _ _ h fun i s => ?_)
  exact ite_keeps (fun _ => w.reply _ _ _ h) fun _ =>
    w.kin (Part.engineeringDone_kin _ _) (w.point i _ h (.inr s) fun _ => rfl)

theorem unshelve (n : Nat) (h : I p) : I (effect (.unshelve n) p) := by
  refine effect_keeps rfl ?_
  refine w.engineering _ _ h (w.pointCommand _ _ _ h fun i s => ?_)
  exact ite_keeps (fun _ => w.kin (Part.engineeringDone_kin _ _) (w.settleAll (w.endShelving i h)))
    fun _ => w.reply _ _ _ h

theorem hostCondition (cmd n : Nat) (on : Bool) (h : I p) : I (p.hostCondition cmd n on) := by
  unfold Part.hostCondition
  refine ite_keeps (fun _ => w.reply _ _ _ h) fun _ => ?_
  split
  · exact w.reply _ _ _ h
  · next i _ =>
    exact ite_keeps (fun _ => w.reply _ _ _ h) fun _ => ite_keeps (fun _ => w.reply _ _ _ h) fun _ =>
      w.settledAll _ (w.kin (p.setExt_kin i _ rfl) h)

theorem discardPeerTrip (n : Nat) (h : I p) : I (effect (.discardPeerTrip n) p) := by
  refine effect_keeps rfl ?_
  refine w.engineering _ _ h ?_
  split
  · exact w.reply _ _ _ h
  · exact ite_keeps (fun _ => w.reply _ _ _ h) fun _ =>
      w.kin (Part.engineeringDone_kin _ _) (w.settleAll (w.kin (p.updAlarms_kin _ rfl rfl rfl rfl rfl) h))

theorem offerCommand (cmd : Nat) (flag : Bool) (v : Nat) (h : I p) : I (p.offerCommand cmd flag v) :=
  ite_keeps (fun _ => w.reply _ _ _ h) fun _ => ite_keeps (fun _ => w.reply _ _ _ h) fun _ => w.reply _ _ _
    (ite_keeps (fun _ => h) fun _ => w.settle (w.kin ((p.alloc_kin _).trans (Part.queueFrame_kin _ _)) h))

theorem writeFuel (n cv : Nat) (h : I p) : I (effect (.writeFuel n cv) p) := by
  refine effect_keeps rfl ?_
  refine w.engineering _ _ h ?_
  split
  · exact w.reply _ _ _ h
  · exact ite_keeps (fun _ => w.kin (Part.engineeringDone_kin _ _) (w.settle
      (w.kin ((p.setFuel_kin _ _).trans (Part.record_same_kin _ _ fun _ => rfl)) h))) fun _ => w.reply _ _ _ h

theorem writePulseWeight (n v : Nat) (h : I p) : I (effect (.writePulseWeight n v) p) := by
  refine effect_keeps rfl ?_
  refine w.engineering _ _ h ?_
  split
  · exact w.reply _ _ _ h
  · exact ite_keeps (fun _ => w.reply _ _ _ h) fun _ => ite_keeps (fun _ => w.reply _ _ _ h) fun _ =>
      w.kin (Part.engineeringDone_kin _ _) (w.kin (Part.record_same_kin _ _ fun _ => rfl)
        (w.kin (p.updFeeder_kin _ _ ⟨rfl, rfl, rfl, rfl⟩) h))

theorem closeShift (n : Nat) (h : I p) : I (effect (.closeShift n) p) := by
  refine effect_keeps rfl ?_
  exact (ite_keeps (fun _ => w.reply _ _ _ h) fun _ => ite_keeps (fun _ => w.reply _ _ _ h) fun _ =>
    w.settled _ (w.kin ((p.changeShift_kin _ _ _).trans (Part.queueFrame_kin _ _)) h))

theorem readShiftRecord (i n : Nat) (h : I p) : I (effect (.readShiftRecord i n) p) := by
  refine effect_keeps rfl ?_
  refine ite_keeps (fun _ => w.reply _ _ _ h) fun _ => ?_
  split
  · exact w.reply _ _ _ h
  · exact w.reply _ _ _ (ite_keeps (fun _ => w.kin (p.shift_kin _ (Shift.markRead_fits i)) h) fun _ => h)

theorem configureFuel (n cv : Nat) (h : I p) : I (effect (.configureFuel n cv) p) := by
  refine effect_keeps rfl ?_
  refine ite_keeps (fun _ => w.reply _ _ _ h) fun _ => ?_
  split
  · exact w.reply _ _ _ h
  · exact ite_keeps (fun _ => w.reply _ _ _ (w.kin (p.setFuel_kin _ _) h)) fun _ => w.reply _ _ _ h

theorem openEngineering (eng : Bool) (h : I p) : I (effect (.openEngineering eng) p) := by
  refine effect_keeps rfl ?_
  refine ite_keeps (fun _ => w.reply _ _ _ ?_) fun _ => w.reply _ _ _ (w.kin (p.updHost_kin _) h)
  have h' := w.kin (p.updHost_kin fun x => { x.renew p.now with eng := true }) h
  exact ite_keeps (fun _ => w.kin (Part.record_same_kin _ _ fun _ => rfl) h') fun _ => h'

theorem submit (h : I p) : I (effect .submit p) := by
  refine effect_keeps rfl ?_
  refine ite_keeps (fun _ => w.kin (p.updHost_kin _) h) fun _ => ?_
  dsimp only
  split <;> exact w.kin ((p.updHost_kin _).trans (Part.updHost_kin _ _)) h

theorem readPeerEntry (n : Nat) (h : I p) : I (effect (.readPeerEntry n) p) := by
  refine effect_keeps rfl ?_
  dsimp only
  split
  · exact w.reply _ _ _ h
  · exact ite_keeps (fun _ => w.reply _ _ _ h) fun _ => w.kin ((p.reply_kin _ _ _).trans (Part.updPeer_kin _ _ _)) h

theorem eventWindowRead (h : I p) : I (effect .eventWindowRead p) := by
  refine effect_keeps rfl ?_
  dsimp only
  refine w.kin ?_ (w.kin (p.updHost_kin fun x => { x with dataOut := p.alarms.windowByte }) h)
  generalize p.updHost _ = q
  refine ⟨{ Alike.refl q with points := fun i => ?_, attrs := fun n => ?_, horn := ?_ }, id,
    (Alarms.readWindow_within _ _).1, (Alarms.readWindow_within _ _).2, id⟩
  all_goals
    obtain ⟨e, m, r, z, read⟩ := Alarms.readWindow_rest p.now q.alarms
    simp [read]

/-! ## Events, by unit -/

theorem accessGapReached (idle : Nat) (h : I p) : I (effect (.accessGapReached idle) p) := by
  have heard : I (if p.listening && decide (2 < idle) then p.lineIdled [] else p) :=
    ite_keeps (fun _ => w.kin (p.lineIdled_kin _) h) fun _ => h
  refine effect_keeps rfl ?_
  dsimp only
  generalize (if p.listening && decide (2 < idle) then p.lineIdled [] else p) = q at heard
  split
  · refine ite_keeps (fun _ => ?_) fun _ => heard
    unfold Part.beginAttempt
    split
    · next x t e =>
      exact w.kin (q.updLine_kin _ fun l => by rw [e] at l; exact l) heard
    · exact heard
  · exact heard

theorem frameSentWhole (back : List ReadBack) (h : I p) : I (effect (.frameSentWhole back) p) := by
  refine effect_keeps rfl ?_
  dsimp only
  split
  · exact ite_keeps (fun _ => w.settleAll (w.sentWhole _ h)) fun _ => h
  · exact h

theorem readBackMismatch (back : List ReadBack) (h : I p) : I (effect (.readBackMismatch back) p) := by
  refine effect_keeps rfl ?_
  dsimp only
  split
  · exact w.kin (p.updLine_kin _) h
  · exact h

theorem breakEnded (h : I p) : I (effect .breakEnded p) := by
  refine effect_keeps rfl ?_
  dsimp only
  split
  · next e => exact w.settleAll (w.failAttempt _ _ (w.kin (p.updLine_kin _) h) e)
  · exact w.kin (p.updLine_kin _) h
  · exact h

theorem heard (chars : List Byte) (h : I p) :
    I (if p.listening then ((p.takeChars chars).settleAll).keepAborted p.fans else p) :=
  ite_keeps (fun _ => w.keepAborted _ (w.settleAll (w.takeChars chars h))) fun _ => h

theorem partialFrameDiscard (d : Disturbance) (chars : List Byte) (h : I p) :
    I (effect (.partialFrameDiscard d chars) p) := by
  refine effect_keeps rfl ?_
  exact (ite_keeps (fun _ => h) fun _ => ite_keeps (fun _ => w.kin (p.updLine_kin _) h)
    fun _ => w.kin (p.discardPartial_kin _) h)

theorem settledWhen (d : Option Time) (f : Part → Part) (k : ∀ q, Kin q (f q)) (h : I p) :
    I (p.whenDue d fun q => (f q).settle) := whenDue_keeps d (fun h => w.settle (w.kin (k p) h)) h

theorem mixRampStep (b : Fin 2) (h : I p) : I (effect (.mixRampStep b) p) := by
  refine effect_keeps rfl ?_
  dsimp only
  split
  · next r e => exact ite_keeps (fun _ => whenDue_keeps _ (fun h => w.settle (w.rampStep b r h e)) h) fun _ => h
  · exact h

theorem flameProven (b : Fin 2) (h : I p) : I (effect (.flameProven b) p) := by
  refine effect_keeps rfl ?_
  dsimp only [Part.whenDue]
  split
  · next t e =>
    refine ite_keeps (fun _ => w.settle (w.enterLoading b h ?_)) fun _ => h
    by_contra n
    simp [Part.provenDue, n, -Fin.getElem_fin] at e
  · exact h

theorem failed (i : Fin 62) (h : I p) (same : Bool) : I (((p.settlePoint i false).settlePoint i same).settleAll.keepHorn i) :=
  w.keepHorn i (w.settleAll (w.settlePoint i same (w.settlePoint i false h)))

theorem fieldScanComplete (fdi : List Bool) (h : I p) : I (effect (.fieldScanComplete fdi) p) := by
  have started : I (if p.field.inFlight then p else p.startScan p.now) :=
    ite_keeps (fun _ => h) fun _ => w.kin (p.field_kin _ rfl) h
  have e : effect (.fieldScanComplete fdi) p =
      (if p.field.inFlight then p else p.startScan p.now).completeScan (fieldBytes fdi) := by
    simp only [effect, exec, execFieldScanComplete, State.act]
  rw [e]
  exact w.completeScan _ started

/-- A command that only answers. -/
theorem answers {cmd : Nat} {code : Code} {data : List Byte} {c : Instr}
    (e : exec c ⟨p, []⟩ = .next ⟨p.reply cmd code data, []⟩) (h : I p) : I (effect c p) :=
  effect_keeps e (w.reply cmd code data h)

/-- Every command that configures or starts nothing. -/
theorem command_row {c : Instr} (command : c.spelling ≠ none) (plain : reconfigures c = false) (h : I p) : I (effect c p) := by
  cases c
  case configureStation | startStation | restartStation | configureBurner | configureFeeder | configureFan
    | configureGrate | configureExternalPoint => cases plain
  case pinReset | commandByteWrite | submit | responseByteRead | interruptEnablesWrite | eventWindowRead
    | eventWindowWrite | engineeringDeadline | engNegated | shelvingExpiry | accessGapReached | frameSentWhole
    | readBackMismatch | breakEnded | statusPeriodExpiry | frameReceived | badHeaderDiscard
    | partialFrameDiscard | interCharacterGap | duplicateDeadlineExpiry | lineStuckSet | lineStuckCleared
    | peerAgingExpiry | staggerEnd | settleDeadline | claimantExpiry | reclaimDelayEnd | airHoldExpiry
    | feederControlPeriod | mixRampStep | deviationTime | noFlowTime | lightWaitExpiry | flameProven
    | ignitionDeadline | loadingDeadline | flameFailTime | flameWeakTime | heldDeadline | fieldScanStart
    | fieldScanComplete | fanStartDeadline | fanFeedbackLoss | heldFlowExpiry | coolingPeriod
    | grateFeedbackLoss | bedPressureHighTime => exact absurd rfl command
  case readStation => exact w.answers rfl h
  case readLineStatus => exact w.answers rfl h
  case readPeerChanges => exact w.answers rfl h
  case readResources => exact w.answers rfl h
  case readAllocation => exact w.answers rfl h
  case readFuelTable => exact w.answers rfl h
  case readCooler => exact w.answers rfl h
  case readSummary => exact w.answers rfl h
  case readPointStates => exact w.answers rfl h
  case readField => exact w.answers rfl h
  case readBurner | readFeeder | readPoint =>
    refine effect_keeps rfl ?_
    dsimp only
    split <;> exact w.reply _ _ _ h
  case readPeerEntry n => exact w.readPeerEntry n h
  case readFirstOut =>
    refine effect_keeps rfl ?_
    exact w.reply _ _ _ (w.kin (p.updAlarms_kin _ rfl rfl rfl rfl rfl) h)
  case readShiftRecord i n => exact w.readShiftRecord i n h
  case openEngineering eng => exact w.openEngineering eng h
  case closeEngineering =>
    refine effect_keeps rfl ?_
    exact ite_keeps (fun _ => w.reply _ _ _ (w.kin (p.updHost_kin _) h)) fun _ => w.reply _ _ _ h
  case offerDemand v => exact effect_keeps rfl (w.offerCommand _ _ _ h)
  case withdrawDemand => exact effect_keeps rfl (w.offerCommand _ _ _ h)
  case setMode m => exact w.setMode m h
  case startBurner n => exact w.startBurner n h
  case stopBurner n => exact w.stopBurner n h
  case resumeBurner n => exact w.resumeBurner n h
  case resetTripBurner n => exact w.resetTripBurner n h
  case resetTripPoint n => exact effect_keeps rfl (w.pointCommand _ _ _ h fun i _ => w.resetPoint _ i _ h)
  case resetAlarm n => exact effect_keeps rfl (w.pointCommand _ _ _ h fun i _ => w.resetPoint _ i _ h)
  case configureFuel n cv => exact w.configureFuel n cv h
  case writeFuel n cv => exact w.writeFuel n cv h
  case setMix n m0 m1 m2 m3 m4 m5 => exact w.setMixCommand n m0 m1 m2 m3 m4 m5 h
  case writePulseWeight n v => exact w.writePulseWeight n v h
  case startFan n => exact w.startFanCommand n h
  case stopFan n => exact w.stopFan n h
  case resetFan n => exact w.resetFan n h
  case startGrate => exact w.startGrate h
  case stopGrate => exact w.stopGrate h
  case setBedPressure n => exact w.setBedPressure n h
  case acknowledge n => exact w.acknowledge n h
  case acknowledgeAll => exact w.acknowledgeAll h
  case shelve n m => exact w.shelve n m h
  case unshelve n => exact w.unshelve n h
  case raiseExternal n => exact effect_keeps rfl (w.hostCondition _ n true h)
  case clearExternal n => exact effect_keeps rfl (w.hostCondition _ n false h)
  case discardPeerTrip n => exact w.discardPeerTrip n h
  case resetFirstOut =>
    refine effect_keeps rfl ?_
    exact ite_keeps (fun _ => w.reply _ _ _ h) fun _ => ite_keeps (fun _ => w.reply _ _ _ h) fun _ =>
      w.reply _ _ _ (w.kin (p.updAlarms_kin _ rfl rfl rfl rfl rfl) h)
  case clearSummary =>
    refine effect_keeps rfl ?_
    exact ite_keeps (fun _ => w.settledAll _ (w.kin (p.updAlarms_kin _ rfl rfl rfl rfl rfl) h)) fun _ => w.reply _ _ _ h
  case silenceHorn =>
    refine effect_keeps rfl ?_
    exact ite_keeps (fun s => w.reply _ _ _ (w.horn false h (.inr s))) fun _ => w.reply _ _ _ h
  case closeShift n => exact w.closeShift n h
  case writeShiftNote =>
    refine effect_keeps rfl ?_
    exact ite_keeps (fun _ => w.reply _ _ _ (w.kin (p.record_same_kin _ fun _ => rfl) h)) fun _ => w.reply _ _ _ h

/-- Every row that is no command, but for PIN_RESET. -/
theorem event_row {c : Instr} (event : c.spelling = none) (plain : reconfigures c = false) (h : I p) : I (effect c p) := by
  cases c
  case pinReset => cases plain
  case configureStation | startStation | restartStation | readStation | openEngineering | closeEngineering
    | readLineStatus | readPeerChanges | readPeerEntry | readResources | offerDemand | withdrawDemand
    | readAllocation | setMode | configureBurner | startBurner | stopBurner | resumeBurner | resetTripPoint
    | resetTripBurner | readBurner | configureFuel | writeFuel | readFuelTable | configureFeeder | setMix
    | writePulseWeight | readFeeder | configureFan | startFan | stopFan | resetFan | configureGrate | startGrate
    | stopGrate | setBedPressure | readCooler | acknowledge | acknowledgeAll | resetAlarm | shelve | unshelve
    | configureExternalPoint | raiseExternal | clearExternal | discardPeerTrip | readFirstOut | resetFirstOut
    | readSummary | clearSummary | silenceHorn | readPoint | readPointStates | closeShift | readShiftRecord
    | writeShiftNote | readField => cases event
  case commandByteWrite => exact effect_keeps rfl (w.kin (p.updHost_kin _) h)
  case submit => exact w.submit h
  case responseByteRead => exact effect_keeps rfl (w.kin (p.updHost_kin _) h)
  case interruptEnablesWrite => exact effect_keeps rfl (w.kin (p.updHost_kin _) h)
  case eventWindowRead => exact w.eventWindowRead h
  case eventWindowWrite => exact effect_keeps rfl h
  case engineeringDeadline => exact effect_keeps rfl (whenDue_keeps _ (w.kin (p.updHost_kin _)) h)
  case engNegated => exact effect_keeps rfl (w.kin (p.updHost_kin _) h)
  case shelvingExpiry i => exact effect_keeps rfl (whenDue_keeps _ (fun h => w.settleAll (w.endShelving i h)) h)
  case accessGapReached idle => exact w.accessGapReached idle h
  case frameSentWhole back => exact w.frameSentWhole back h
  case readBackMismatch back => exact w.readBackMismatch back h
  case breakEnded => exact w.breakEnded h
  case statusPeriodExpiry =>
    exact effect_keeps rfl (whenDue_keeps _ (fun h => w.settle (w.kin ((p.updLine_kin _).trans (Part.queueFrame_kin _ _)) h)) h)
  case frameReceived chars => exact effect_keeps rfl (w.heard chars h)
  case badHeaderDiscard chars => exact effect_keeps rfl (w.heard chars h)
  case partialFrameDiscard d chars => exact w.partialFrameDiscard d chars h
  case interCharacterGap chars =>
    refine effect_keeps rfl ?_
    exact ite_keeps (fun _ => w.kin (p.lineIdled_kin _) h) fun _ => h
  case duplicateDeadlineExpiry =>
    exact effect_keeps rfl (whenDue_keeps _ (fun h => w.settleAll (w.kin (p.updLine_kin _) h)) h)
  case lineStuckSet =>
    refine effect_keeps rfl ?_
    exact ite_keeps (fun _ => h) fun _ => w.settleAll (w.kin (p.updLine_kin _) h)
  case lineStuckCleared =>
    refine effect_keeps rfl ?_
    exact ite_keeps (fun _ => h) fun _ => w.settleAll (w.kin (p.updLine_kin _) h)
  case peerAgingExpiry x =>
    refine effect_keeps rfl ?_
    exact ite_keeps (fun _ => h) fun _ => whenDue_keeps _ (fun h => w.settleAll (w.kin
      ((p.losePeer_kin x).trans (Part.refreshMarks_kin _)) h)) h
  case staggerEnd k =>
    refine effect_keeps rfl ?_
    exact ite_keeps (fun e => whenDue_keeps _ (fun h => w.settle (w.endStagger k h e)) h) fun _ => h
  case settleDeadline k =>
    refine effect_keeps rfl ?_
    exact ite_keeps (fun e => whenDue_keeps _ (fun h => w.settleAll (w.grant k h e)) h) fun _ => h
  case claimantExpiry k =>
    exact effect_keeps rfl (w.settledWhen _ _ (fun q => q.updRes_kin k _ ⟨rfl, rfl, rfl⟩) h)
  case reclaimDelayEnd k =>
    exact effect_keeps rfl (w.settledWhen _ _ (fun q => q.updRes_kin k _ ⟨rfl, rfl, rfl⟩) h)
  case airHoldExpiry =>
    refine effect_keeps rfl ?_
    exact ite_keeps (fun _ => w.settledWhen _ _ (fun q => q.alloc_kin _) h) fun _ => h
  case feederControlPeriod =>
    refine effect_keeps rfl ?_
    exact ite_keeps (fun s => whenDue_keeps _ (fun h => w.controlPeriod _ h s) h) fun _ => h
  case mixRampStep b => exact w.mixRampStep b h
  case deviationTime f =>
    exact effect_keeps rfl (w.settledWhen _ _ (fun q => q.updFeeder_kin f _ ⟨rfl, rfl, rfl, rfl⟩) h)
  case noFlowTime f =>
    exact effect_keeps rfl (w.settledWhen _ _ (fun q => q.updFeeder_kin f _ ⟨rfl, rfl, rfl, rfl⟩) h)
  case lightWaitExpiry b =>
    refine effect_keeps rfl ?_
    exact ite_keeps (fun e => whenDue_keeps _ (fun h => w.settle (w.enterOff b true h (by rw [e]; decide))) h) fun _ => h
  case flameProven b => exact w.flameProven b h
  case ignitionDeadline b =>
    refine effect_keeps rfl ?_
    exact ite_keeps (fun _ => whenDue_keeps _ (fun h => w.failed _ (w.kin (p.updBurner_kin b _ ⟨rfl, rfl⟩) h) true) h)
      fun _ => h
  case loadingDeadline b =>
    refine effect_keeps rfl ?_
    exact ite_keeps (fun e => whenDue_keeps _ (fun h => w.settle (w.enterFiring b h (.inl e))) h) fun _ => h
  case flameFailTime b =>
    exact effect_keeps rfl (whenDue_keeps _ (fun h => w.failed _ (w.kin (p.updBurner_kin b _ ⟨rfl, rfl⟩) h) true) h)
  case flameWeakTime b =>
    exact effect_keeps rfl (w.settledWhen _ _ (fun q => q.updBurner_kin b _ ⟨rfl, rfl⟩) h)
  case heldDeadline b =>
    refine effect_keeps rfl ?_
    exact ite_keeps (fun e => whenDue_keeps _ (fun h => w.settle (w.enterOff b false h (by rw [e]; decide))) h) fun _ => h
  case fieldScanStart => exact effect_keeps rfl (whenDue_keeps _ (w.kin (p.field_kin _ rfl)) h)
  case fieldScanComplete fdi => exact w.fieldScanComplete fdi h
  case fanStartDeadline n =>
    refine effect_keeps rfl ?_
    exact ite_keeps (fun e => whenDue_keeps _ (fun h => w.keepHorn _ (w.settleAll (w.failStart n h e))) h) fun _ => h
  case fanFeedbackLoss n =>
    refine effect_keeps rfl ?_
    exact ite_keeps (fun e => whenDue_keeps _ (fun h => w.keepHorn _ (w.settleAll (w.loseFan n h e))) h) fun _ => h
  case heldFlowExpiry n => exact effect_keeps rfl (whenDue_keeps _ (w.kin (p.updFan_kin n _ rfl)) h)
  case coolingPeriod =>
    refine effect_keeps rfl ?_
    exact ite_keeps (fun s => whenDue_keeps _ (fun h => w.coolingPeriod _ h s) h) fun _ => h
  case grateFeedbackLoss =>
    refine effect_keeps rfl ?_
    exact ite_keeps (fun e => whenDue_keeps _ (fun h => w.keepHorn _ (w.settleAll (w.faultGrate h e))) h) fun _ => h
  case bedPressureHighTime =>
    exact effect_keeps rfl (w.settledWhen _ _ (fun q => q.updGrate_kin _ ⟨rfl, rfl⟩) h)

/-- Every row that configures, starts and resets nothing. -/
theorem row {c : Instr} (plain : reconfigures c = false) (h : I p) : I (effect c p) := by
  by_cases s : c.spelling = none
  · exact w.event_row s plain h
  · exact w.command_row s plain h

end Walk

/-- What a walk keeps, and the rows that configure, start or reset keep too, every step keeps. -/
theorem step_keeps_walked {I : Part → Prop} {L : Prop} (w : Walk I L) {s t : State}
    (sets : ∀ c : Instr, reconfigures c = true → I s.part → I (effect c s.part)) (h : I s.part) (e : step s = .next t) : I t.part := by
  refine step_keeps (fun c q taken => ?_) (w.kin ⟨{ Alike.refl s.part with }, id, id, id, id⟩ h) e
  rw [← takes_iff.1 taken]
  cases hc : reconfigures c
  · exact w.row hc h
  · exact sets c hc h

end Sys2Proof.Machine
end

section
/-! SUPPORT. The walk of a predicate that claims do not touch while the station is awake: it is enough to keep it through
each single change of a register. -/

namespace Sys2Proof.Machine

-- One proof at a time: the whole package as one text must not start a thread for each of them.
set_option Elab.async false

open Sys2Proof.Config

/-- A mix ramp as SET MIX makes it (R115). -/
def Part.newRamp (b : Fin 2) (m : Vector Nat 6) (p : Part) : MixRamp :=
  { ramping := false, old := p.presentMix b, target := m, time := p.cfg.mixTime, elapsed := 0, nextStep := 0 }

/-- A mix ramp as SET MIX retargets it (R117). -/
def Part.turned (b : Fin 2) (m : Vector Nat 6) (r : MixRamp) (p : Part) : MixRamp :=
  { r with target := m, old := p.presentMix b, elapsed := 0, nextStep := nextMultiple p.now second }

/-- A mix ramp one step on (R116). -/
def MixRamp.stepped (r : MixRamp) : MixRamp :=
  { r with elapsed := r.elapsed + 1, nextStep := nextMultiple r.nextStep second }

/-- The single changes that keep `I`, each where the model makes it. -/
structure Changes (I : Part → Prop) (L : Prop) : Prop where
  kin : ∀ {p q : Part}, Kin p q → I p → I q
  effAwake : ∀ {p : Part} {i : Fin 62}, I p → p.alarms.points[i].eff = true → Awake L p
  pointAwake : ∀ {p : Part} {i : Fin 62}, I p → p.alarms.points[i].state ≠ .normal → Awake L p
  burnerAwake : ∀ {p : Part} {b : Fin 2}, I p → p.burners[b].state ≠ .off → Awake L p
  claimAwake : ∀ {p : Part} {k : Fin 3}, I p → p.claims[k].state ≠ .idle ∨ p.claims[k].waitList ≠ [] → Awake L p
  point : ∀ {p : Part} (i : Fin 62) (f : Point → Point), I p → Awake L p → I (p.updPoint i f)
  horn : ∀ {p : Part} (on : Bool), I p → Awake L p → I (p.setHorn on)
  claim : ∀ {p : Part} (k : Fin 3) (f : Resource → Resource), I p → Awake L p → I (p.updRes k f)
  burner : ∀ {p : Part} (b : Fin 2) (s : BurnerState) (f : Burner → Burner), I p → Awake L p →
    (∀ x, (f x).state = s ∧ (f x).cfg = x.cfg) →
    I ((p.updBurner b f).updOutput fun o => { o with igniter := o.igniter.set b (s == .igniting) })
  writeFeeder : ∀ {p : Part} (f : Fin 6), I p → p.started = true → I (p.writeFeeder f)
  feederTo : ∀ {p : Part} (f : Fin 6) (s : FeederState) (sp : Nat), I p → p.started = true → I (p.feederTo f s sp)
  fan : ∀ {p : Part} (n : Fin 4) (s : FanState) (f : Fan → Fan), I p →
    (Awake L p ∨ p.fans[n].state = .starting ∨ p.fans[n].state = .running) →
    (s = .running → p.fans[n].state = .starting) → (∀ x, (f x).state = s) →
    I ((p.updFan n f).updOutput (OutputImage.fanTo n s))
  fanAwake : ∀ {p : Part} {n : Fin 4}, I p → p.fans[n].state = .starting ∨ p.fans[n].state = .running → Awake L p
  grateTo : ∀ {p : Part} (s : GrateState), I p → (p.started = true ∨ p.grate.state = .running) → I (p.grateTo s)
  controlFan : ∀ {p : Part} (n : Fin 4), I p → p.started = true → I (p.controlFan n)
  controlGrate : ∀ {p : Part}, I p → p.started = true → I p.controlGrate
  startRamp : ∀ {p : Part} (b : Fin 2), I p → I (p.startRamp b)
  dropRamp : ∀ {p : Part} (b : Fin 2), I p → I (p.setRamp b none)
  ramped : ∀ {p : Part} (b : Fin 2) (r : MixRamp), I p → p.ramps[b] = some r →
    I ((p.replaceMix b r.target).setRamp b none)
  stepped : ∀ {p : Part} (b : Fin 2) (r : MixRamp), I p → p.ramps[b] = some r → r.stepped.elapsed < r.time →
    I ((p.replaceMix b (p.steppedMix b r.stepped)).setRamp b (some r.stepped))
  arrived : ∀ {p : Part} (b : Fin 2) (r : MixRamp), I p → p.ramps[b] = some r → r.time ≤ r.stepped.elapsed →
    I ((p.replaceMix b (p.steppedMix b r.stepped)).setRamp b none)
  turned : ∀ {p : Part} (b : Fin 2) (m : Vector Nat 6) (r : MixRamp), I p → p.started = true →
    p.burners[b].cfg.used = true → p.mixGood b m = true → p.ramps[b] = some r → I (p.setRamp b (some (p.turned b m r)))
  mixed : ∀ {p : Part} (b : Fin 2) (m : Vector Nat 6), I p → p.mixGood b m = true → p.ramps[b] = none →
    I (p.replaceMix b m)
  newRamp : ∀ {p : Part} (b : Fin 2) (m : Vector Nat 6), I p → p.started = true → p.burners[b].cfg.used = true →
    p.mixGood b m = true → I (p.setRamp b (some (p.newRamp b m)))

theorem Awake.of_started {L : Prop} {p q : Part} (h : Awake L p) (e : q.started = p.started) : Awake L q :=
  h.imp id e.trans

theorem Part.leaveBlocks_started (k : Fin 3) : Block.started ∉ leaveBlocks k := by simp [leaveBlocks, sendBlocks]

@[simp] theorem Part.withdraw_started (k : Fin 3) (u : Nat) (p : Part) : (p.withdraw k u).started = p.started :=
  Part.started_of_frame (p.withdraw_frame k u) (Part.leaveBlocks_started k)

@[simp] theorem Part.endRamp_started (b : Fin 2) (p : Part) : (p.endRamp b).started = p.started :=
  Part.started_of_frame (p.endRamp_frame b) (by simp [mixBlocks, leaveBlocks, sendBlocks])

@[simp] theorem Part.burnerTo_started (b : Fin 2) (s : BurnerState) (fix : Burner → Burner) (p : Part) (mark : Bool) :
    (p.burnerTo b s fix mark).started = p.started :=
  Part.started_of_frame (p.burnerTo_frame b s fix mark) (by simp [burnerBlocks, mixBlocks, leaveBlocks, sendBlocks])

@[simp] theorem Part.tripBurner_started (b : Fin 2) (p : Part) : (p.tripBurner b).started = p.started :=
  Part.started_of_frame (p.tripBurner_frame b) (by simp [burnerBlocks, mixBlocks, leaveBlocks, sendBlocks])

@[simp] theorem Part.fanTo_started (n : Fin 4) (s : FanState) (p : Part) : (p.fanTo n s).started = p.started :=
  Part.started_of_frame (p.fanTo_frame n s) (by simp [fanBlocks, leaveBlocks, sendBlocks])

@[simp] theorem Part.service_started (k : Fin 3) (p : Part) : (p.service k).started = p.started :=
  Part.started_of_frame (p.service_frame k) (by simp)

@[simp] theorem Part.queueFrame_started (body : FrameBody) (p : Part) : (p.queueFrame body).started = p.started :=
  Part.started_of_frame (p.queueFrame_frame body) (by simp [sendBlocks])

@[simp] theorem Part.offer_started (k : EventKind) (s v : Nat) (m : Bool) (st : Nat) (o : Option Nat) (p : Part) :
    (p.offer k s v m st o).started = p.started := Part.started_of_frame (Part.offer_frame k s v m st o p) (by simp)

/-- Every update of a list that keeps the predicate wherever the station is awake. -/
theorem forAll_awake {I : Part → Prop} {L : Prop} {α : Type} {l : List α} {f : α → Part → Part} {p : Part}
    (h : ∀ a q, I q → Awake L q → I (f a q)) (hs : ∀ a q, (f a q).started = q.started) (hp : I p) (a : Awake L p) :
    I (p.forAll l f) :=
  (forAll_keeps (I := fun q => I q ∧ Awake L q) (fun x q ⟨hq, aq⟩ => ⟨h x q hq aq, aq.of_started (hs x q)⟩) ⟨hp, a⟩).1

/-! ## An activation, stage by stage -/

/-- The point in ACTIVE with its event and its mark in the summary (R145). -/
def Part.announce (i : Fin 62) (p : Part) : Part :=
  ((p.updPoint i fun x =>
    { x with state := .active, lastActivation := some p.now, origin := p.activationOrigin i }).offerPoint i .active).updAlarms
    fun x => { x with seen := x.seen.set (p.pointAttr i).cls, autoResume := x.autoResume && !(p.pointAttr i).latching }

/-- And the horn on, for a TRIP or ALARM point (R156). -/
def Part.sounded (i : Fin 62) (p : Part) : Part :=
  if (p.pointAttr i).cls = .trip ∨ (p.pointAttr i).cls = .alarm then (p.announce i).setHorn true else p.announce i

theorem Part.activate_eq (i : Fin 62) (p : Part) : p.activate i =
    if (p.pointAttr i).cls = .trip then ((p.sounded i).record (ShiftRec.activation (p.pointAttr i).cls)).actTrip i
    else (p.sounded i).record (ShiftRec.activation (p.pointAttr i).cls) := rfl

theorem Part.announce_started (i : Fin 62) (p : Part) : (p.announce i).started = p.started := by
  have offered (q : Part) : (q.offerPoint i .active).started = q.started :=
    Part.started_of_frame (q.offerPoint_frame i .active) (by simp)
  exact offered _

theorem Part.sounded_started (i : Fin 62) (p : Part) : (p.sounded i).started = p.started := by
  unfold Part.sounded
  split <;> exact p.announce_started i

/-- A feeder is found again through a change of state only, and only while the station is STARTED (R100). -/
theorem settleFeeder_keeps {I : Part → Prop} (moved : ∀ {p : Part} (f : Fin 6) (t : FeederState) (sp : Nat), I p →
    p.started = true → I (p.feederTo f t sp)) {p : Part} (f : Fin 6) (h : I p) : I (p.settleFeeder f) := by
  refine ite_keeps (fun _ => h) fun e => ?_
  have s : p.started = true := by
    simp only [Bool.or_eq_true, not_or, Bool.not_eq_true', Bool.not_eq_false] at e
    exact e.1.1.1.1
  exact ite_keeps (fun _ => ite_keeps (fun _ => h) fun _ => moved f _ _ h s) fun _ =>
    ite_keeps (fun _ => h) fun _ => moved f _ _ h s

/-- A mix replaced: each feeder's fraction, then each feeder found again. -/
theorem replaceMix_keeps {I : Part → Prop} (moved : ∀ {p : Part} (f : Fin 6) (t : FeederState) (sp : Nat), I p →
    p.started = true → I (p.feederTo f t sp)) {p : Part} (b : Fin 2) (m : Vector Nat 6)
    (h : I (p.forAll (p.feedersOf b) fun f => Part.updFeeder f fun x => { x with mix := m[f] })) : I (p.replaceMix b m) :=
  forAll_keeps (fun f _ hq => settleFeeder_keeps moved f hq) h

namespace Changes

variable {I : Part → Prop} {L : Prop} (w : Changes I L) {p : Part}
include w

theorem settleFeeder (f : Fin 6) (h : I p) : I (p.settleFeeder f) :=
  settleFeeder_keeps (fun f s sp h st => w.feederTo f s sp h st) f h

theorem settleFeedersOf (b : Fin 2) (h : I p) : I (p.settleFeedersOf b) :=
  forAll_keeps (fun f _ hq => w.settleFeeder f hq) h

/-! ## Claims -/

theorem service (k : Fin 3) (h : I p) : I (p.service k) :=
  ite_keeps (fun r => w.claim k _ h (.inr (by
    simp only [Part.serviceReady, Bool.and_eq_true] at r; exact r.1.2))) fun _ => h

theorem withdraw (k : Fin 3) (u : Nat) (h : I p) : I (p.withdraw k u) := by
  unfold Part.withdraw
  dsimp only
  have awake (s : ClaimState) (hs : s ≠ .idle) (e : (p.claims[k].user == some u && p.claims[k].state == s) = true) :
      Awake L p := w.claimAwake h (.inl (by
    simp only [Bool.and_eq_true, beq_iff_eq] at e; rw [e.2]; exact hs))
  split
  · next e =>
    refine w.kin (Part.beginReclaim_kin _ k) (w.kin (Part.offer_kin _ _ _ _ _ _ _) (w.claim k _ (w.kin (p.queueFrame_kin _) h) ?_))
    exact (awake .held (by decide) e).of_started (p.queueFrame_started _)
  split
  · next e =>
    have a := awake .claiming (by decide) e
    refine w.kin (Part.beginReclaim_kin _ k) (w.claim k _ (w.kin (Part.queueFrame_kin _ _) (w.claim k _ h a)) ?_)
    exact a.of_started (Part.queueFrame_started _ _)
  split
  · next e => exact w.service k (w.claim k _ h (awake .waiting (by decide) e))
  · by_cases none : p.claims[k].waitList = []
    · exact w.kin (p.updRes_kin k _ ⟨rfl, rfl, by dsimp only; rw [none]; rfl⟩) h
    · exact w.claim k _ h (w.claimAwake h (.inr none))

theorem request (k : Fin 3) (u : Nat) (h : I p) (s : p.started = true) : I (p.request k u) :=
  ite_keeps (fun _ => h) fun _ => ite_keeps (fun _ => h) fun _ => w.service k (w.claim k _ h (.inr s))

theorem yieldClaim (k : Fin 3) (h : I p) : I (p.yieldClaim k) := by
  by_cases e : p.claims[k].state = .claiming
  · exact w.claim k _ h (w.claimAwake h (.inl (by rw [e]; decide)))
  · exact w.kin (p.updRes_kin k _ (by simp only [if_neg e, and_self])) h

theorem enterClaiming (k : Fin 3) (h : I p) (e : p.claims[k].state = .waiting) : I (p.enterClaiming k) := by
  have a : Awake L p := w.claimAwake (k := k) h (.inl (by rw [e]; decide))
  exact ite_keeps (fun _ => w.kin (Part.queueFrame_kin _ _) (w.claim k _ h a))
    fun _ => w.kin (Part.queueFrame_kin _ _) (w.claim k _ h a)

theorem claimNotice (tag : Nat) (sent : Bool) (h : I p) : I (p.claimNotice tag sent) := by
  refine forAll_keeps (fun k q hq => ?_) h
  by_cases e : q.claims[k].state = .claiming ∧ q.claims[k].note = some tag
  · exact w.claim k _ hq (w.claimAwake (k := k) hq (.inl (by rw [e.1]; decide)))
  · exact w.kin (q.updRes_kin k _ (by simp only [if_neg e, and_self])) hq

/-! ## Burners -/

theorem endRamp (b : Fin 2) (h : I p) : I (p.endRamp b) := by
  unfold Part.endRamp
  split
  · next r e => exact w.withdraw 2 _ (w.ramped b r h e)
  · exact h

theorem burnerTo (b : Fin 2) (s : BurnerState) (fix : Burner → Burner) (mark : Bool) (h : I p) (a : Awake L p)
    (hf : ∀ x, (fix x).state = x.state ∧ (fix x).cfg = x.cfg) : I (p.burnerTo b s fix mark) := by
  have left : I (p.leaveFor b s) := by
    have gone : I (if s = .lightWait ∨ s = .igniting ∨ s = .loading then p else p.withdraw 0 b.val) :=
      ite_keeps (fun _ => h) fun _ => w.withdraw 0 _ h
    exact ite_keeps (fun _ => gone) fun _ => w.endRamp b gone
  have awake : Awake L (p.leaveFor b s) := a.of_started (Part.started_of_frame (p.leaveFor_frame b s)
    (by simp [mixBlocks, leaveBlocks, sendBlocks]))
  have moved := w.burner b s (fun x => fix (x.cleared s)) left awake fun x => ⟨(hf _).1, (hf _).2⟩
  refine w.kin (Part.offer_kin _ _ _ _ _ _ _) (w.kin (Part.record_same_kin _ _ fun _ => rfl) (w.settleFeedersOf b ?_))
  exact ite_keeps (fun _ => w.kin (Part.zeroSetpoints_kin _ b) moved) fun _ => moved

theorem tripBurner (b : Fin 2) (h : I p) (a : Awake L p) : I (p.tripBurner b) :=
  ite_keeps (fun _ => h) fun _ => w.burnerTo b _ _ false h a fun _ => ⟨rfl, rfl⟩

/-! ## Points -/

theorem tripBound (b : Binding) (h : I p) (a : Awake L p) : I (p.tripBound b) := by
  cases b with
  | none => exact h
  | station => exact w.tripBurner 1 (w.tripBurner 0 h a) (a.of_started (p.tripBurner_started 0))
  | burner b => exact w.tripBurner b h a

theorem actTrip (i : Fin 62) (h : I p) (a : Awake L p) : I (p.actTrip i) := by
  have filled (o : Option Origin) : I ((((p.tripBound (p.pointAttr i).binding).fillFirstOut i o).record
      (ShiftRec.tripped ⟨i, p.now, o⟩))) :=
    w.kin (Part.record_kin _ _ fun _ => ShiftRec.tripped_fits _) (w.kin (Part.updAlarms_kin _ _ rfl rfl rfl rfl rfl)
      (w.tripBound _ h a))
  unfold Part.actTrip
  exact ite_keeps (fun _ => w.kin ((Part.updAlarms_kin _ _ rfl rfl rfl rfl rfl).trans (Part.queueFrame_kin _ _)) (filled _))
    fun _ => filled _

theorem activate (i : Fin 62) (h : I p) (a : Awake L p) : I (p.activate i) := by
  have announced : I (p.announce i) := w.kin (Part.updAlarms_kin _ _ rfl rfl rfl rfl rfl)
    (w.kin (Part.offer_kin _ _ _ _ _ _ _) (w.point i _ h a))
  have awake : Awake L (p.announce i) := a.of_started (Part.announce_started i p)
  have sounded : I (p.sounded i) := ite_keeps (fun _ => w.horn true announced awake) fun _ => announced
  have counted := w.kin (Part.record_same_kin _ _ (ShiftRec.activation_trips (p.pointAttr i).cls)) sounded
  rw [Part.activate_eq]
  exact ite_keeps (fun _ => w.actTrip i counted (a.of_started (Part.sounded_started i p))) fun _ => counted

theorem pointWalk : PointWalk I L where
  kin := w.kin
  effAwake := w.effAwake
  pointAwake := w.pointAwake
  point i f h a _ := w.point i f h a
  activate i h a := w.activate i h a
  horn on h a := w.horn on h a

/-! ## Users told -/

theorem fanTo (n : Fin 4) (s : FanState) (h : I p) (a : Awake L p) (r : s = .running → p.fans[n].state = .starting) :
    I (p.fanTo n s) := by
  have gone : I (if s = .startWait ∨ s = .starting then p else p.withdraw 1 n.val) :=
    ite_keeps (fun _ => h) fun _ => w.withdraw 1 _ h
  have same : (if s = .startWait ∨ s = .starting then p else p.withdraw 1 n.val).started = p.started ∧
      (if s = .startWait ∨ s = .starting then p else p.withdraw 1 n.val).fans[n] = p.fans[n] := by
    split
    · exact ⟨rfl, rfl⟩
    · exact ⟨p.withdraw_started 1 _, (p.withdraw_frame 1 n.val).same (.fan n) (by simp [leaveBlocks, sendBlocks])⟩
  refine w.kin (Part.offer_kin _ _ _ _ _ _ _) (w.kin (Part.record_same_kin _ _ fun _ => rfl)
    (w.fan n s _ gone (.inl (a.of_started same.1)) (fun e => ?_) fun _ => rfl))
  rw [same.2]; exact r e

theorem failStart (n : Fin 4) (h : I p) (a : Awake L p) : I (p.failStart n) := by
  have h' := w.pointWalk.settlePoint (fanFailPoint n) false (w.kin (p.updFan_kin n (fun x => { x with startFail := true }) rfl) h)
  exact w.pointWalk.settlePoint _ true (w.fanTo n _ h' (a.of_started (Part.settlePoint_started ..)) nofun)

theorem tellGranted (k : Fin 3) (u : Nat) (h : I p) (a : Awake L p) : I (p.tellGranted k u) := by
  refine ite_keeps (fun _ => ?_) fun _ => ite_keeps (fun _ => w.startRamp _ h) fun _ => ?_
  · exact w.kin (Part.updFan_kin _ _ _ rfl) (w.fanTo _ .starting h a nofun)
  · exact ite_keeps (fun _ => w.burnerTo _ _ _ false h a fun _ => ⟨rfl, rfl⟩)
      fun _ => w.burnerTo _ _ _ false h a fun _ => ⟨rfl, rfl⟩

theorem grant (k : Fin 3) (h : I p) (e : p.claims[k].state = .claiming) : I (p.grant k) := by
  have a : Awake L p := w.claimAwake (k := k) h (.inl (by rw [e]; decide))
  unfold Part.grant
  split
  · exact w.kin ((Part.queueFrame_kin _ _).trans (Part.offer_kin _ _ _ _ _ _ _)) (w.tellGranted k _ (w.claim k _ h a) a)
  · exact h

theorem tellAborted (k : Fin 3) (u : Nat) (h : I p) (a : Awake L p) : I (p.tellAborted k u) :=
  ite_keeps (fun _ => w.failStart _ h a) fun _ => ite_keeps (fun _ => w.endRamp _ h) fun _ =>
    w.pointWalk.settlePoint _ false (w.burnerTo _ _ _ false h a fun _ => ⟨rfl, rfl⟩)

theorem conflict (k : Fin 3) (q : Fin 16) (h : I p) (e : p.claims[k].state = .held) : I (p.conflict k q) := by
  have a : Awake L p := w.claimAwake (k := k) h (.inl (by rw [e]; decide))
  unfold Part.conflict
  split
  · exact w.kin (Part.updRes_kin _ k _ ⟨rfl, rfl, rfl⟩) (w.kin (Part.offer_kin _ _ _ _ _ _ _)
      (w.kin (Part.beginReclaim_kin _ k) (w.tellAborted k _ (w.claim k _ h a) a)))
  · exact h

theorem refuseSilent (k : Fin 3) (h : I p) (s : p.started = true) : I (p.refuseSilent k) := by
  have a : Awake L p := .inr s
  refine forAll_awake (L := L) (fun u q hq aq => ?_) (fun u q => ?_) (w.claim k _ h a) a
  · exact ite_keeps (fun _ => w.fanTo _ _ hq aq nofun) fun _ => ite_keeps (fun _ => w.endRamp _ hq) fun _ =>
      w.burnerTo _ _ _ false hq aq fun _ => ⟨rfl, rfl⟩
  · unfold Part.tellRefused Part.enterOff
    split <;> [exact Part.fanTo_started ..; (split <;> [exact Part.endRamp_started ..; exact Part.burnerTo_started ..])]

theorem setMix (b : Fin 2) (m : Vector Nat 6) (h : I p) (s : p.started = true) (u : p.burners[b].cfg.used = true)
    (good : p.mixGood b m = true) : I (p.setMix b m) := by
  unfold Part.setMix
  split
  · next r e => exact ite_keeps (fun _ => w.withdraw 2 _ (w.dropRamp b h)) fun _ => w.turned b m r h s u good e
  · next e =>
    exact ite_keeps (fun _ => w.mixed b m h good e) fun _ => ite_keeps (fun _ => h) fun _ =>
      w.request 2 _ (w.newRamp b m h s u good) s

theorem rampStep (b : Fin 2) (r : MixRamp) (h : I p) (e : p.ramps[b] = some r) : I (p.rampStep b r) :=
  ite_keeps (fun g => w.withdraw 2 _ (w.arrived b r h e g)) fun g => w.stepped b r h e (Nat.lt_of_not_le g)

/-- Through single changes, every operation of the rows. -/
theorem walk : Walk I L where
  toPointWalk := w.pointWalk
  service k h := w.service k h
  yieldClaim k h := w.yieldClaim k h
  enterClaiming k h e := w.enterClaiming k h e
  claimNotice tag sent h := w.claimNotice tag sent h
  grant k h e := w.grant k h e
  conflict k q h e := w.conflict k q h e
  refuseSilent k h s := w.refuseSilent k h s
  leave b s fix mark h e _ _ hf := w.burnerTo b s fix mark h (w.burnerAwake h e) hf
  enterLoading b h e := w.burnerTo b _ _ false h (w.burnerAwake (b := b) h (by rw [e]; decide)) fun _ => ⟨rfl, rfl⟩
  enterLightWait {p} b c h g := by
    have a : Awake L p := by
      rcases g with e | ⟨s, -⟩
      · exact w.burnerAwake (b := b) h (by rw [e]; decide)
      · exact .inr s
    have moved := w.burnerTo b .lightWait (fun x => { x with cont := some c, lightWait := some (later p.now lightWaitTime) })
      false h a fun _ => ⟨rfl, rfl⟩
    by_cases s : p.started = true
    · exact w.request 0 _ moved ((Part.burnerTo_started ..).trans s)
    · have : (p.enterLightWait b c) = _ := if_pos (by simp [s])
      rw [this]
      exact moved
  settleFeeder f h := w.settleFeeder f h
  feederTo f s sp h st := w.feederTo f s sp h st
  writeFeeder f h st := w.writeFeeder f h st
  fanTo n s h _ _ r g := w.fanTo n s h (g.elim .inr (w.fanAwake h)) r
  startFan n h s _ := w.request 1 _ (w.fanTo n .startWait h (.inr s) nofun) ((Part.fanTo_started ..).trans s)
  grateTo s h g := w.grateTo s h g
  controlFan n h s := w.controlFan n h s
  controlGrate h s := w.controlGrate h s
  setMix b m h s u g := w.setMix b m h s u g
  rampStep b r h e := w.rampStep b r h e

end Changes

end Sys2Proof.Machine
end

section
/-! SUPPORT. START STATION and RESTART STATION stage by stage, and what each register holds when their stages have run. -/

namespace Sys2Proof.Machine

-- One proof at a time: the whole package as one text must not start a thread for each of them.
set_option Elab.async false

open Sys2Proof.Config

/-! ## START STATION (R195) -/

/-- The first record open and a STATUS queued. -/
def Part.opened (p : Part) : Part := (({ p with started := true } : Part).openAtStart).queueFrame .status

/-- Every block at its initial values, the outputs of the feeders written, the status period begun. -/
def Part.cleaned (p : Part) : Part :=
  (p.updLine fun l => { l with statusDue := some (later p.now p.cfg.period) }).blocksInitial.writeFeeders

/-- The station STARTED, before its first evaluation. -/
def Part.risen (p : Part) : Part :=
  { p.opened.cleaned with
    nextFeeder := nextMultiple p.opened.cleaned.now feederPeriod, nextCool := nextMultiple p.opened.cleaned.now second }

/-- The station STARTED and evaluated, before the conditions are found. -/
def Part.ready (p : Part) : Part := p.risen.evaluate.updAlarms fun a => { a with autoResume := true }

theorem Part.start_eq (p : Part) : p.start = p.ready.settleAll := rfl

section
variable (p : Part)

theorem Part.opened_kin : Kin { p with started := true } p.opened :=
  ((Part.openRecord_kin _ _ _ _ _).trans (Part.offer_kin _ _ _ _ _ _ _)).trans (Part.queueFrame_kin _ _)

@[simp] theorem Part.blocksInitial_burners (b : Fin 2) : p.blocksInitial.burners[b] = p.burners[b].cleared .off := by
  simp [Part.blocksInitial]
@[simp] theorem Part.blocksInitial_feeders (f : Fin 6) : p.blocksInitial.feeders[f] = p.feeders[f].initial := by
  simp [Part.blocksInitial]
@[simp] theorem Part.blocksInitial_fans (n : Fin 4) : p.blocksInitial.fans[n] = p.fans[n].initial := by
  simp [Part.blocksInitial]
@[simp] theorem Part.blocksInitial_grate : p.blocksInitial.grate = p.grate.initial := rfl
@[simp] theorem Part.blocksInitial_field : p.blocksInitial.field = p.field := rfl
@[simp] theorem Part.blocksInitial_alarms : p.blocksInitial.alarms = p.alarms := rfl
@[simp] theorem Part.blocksInitial_claims : p.blocksInitial.claims = p.claims := rfl
@[simp] theorem Part.blocksInitial_started : p.blocksInitial.started = p.started := rfl
@[simp] theorem Part.blocksInitial_cfg : p.blocksInitial.cfg = p.cfg := rfl
@[simp] theorem Part.blocksInitial_ramps : p.blocksInitial.ramps = p.ramps := rfl
@[simp] theorem Part.blocksInitial_line : p.blocksInitial.line = p.line := rfl
@[simp] theorem Part.blocksInitial_shift : p.blocksInitial.shift = p.shift := rfl

/-- The outputs of every feeder written by its state. -/
theorem Part.writeFeeders_frame : ChangesOnly {.driveOut} p p.writeFeeders := .forAll (fun f q => q.writeFeeder_frame f) _ _

theorem Part.forAll_writeFeeder_eq (l : List (Fin 6)) :
    p.forAll l Part.writeFeeder = { p with field := (p.forAll l Part.writeFeeder).field } := by
  induction l generalizing p with
  | nil => rfl
  | cons f l ih => exact ih (p.writeFeeder f)

/-- The cleaned part but for its outputs. -/
theorem Part.cleaned_eq : p.cleaned = { (p.updLine fun l => { l with statusDue := some (later p.now p.cfg.period) }).blocksInitial with
    field := p.cleaned.field } := Part.forAll_writeFeeder_eq _ feederIds

@[simp] theorem Part.cleaned_started : p.cleaned.started = p.started := by rw [Part.cleaned_eq]; rfl
@[simp] theorem Part.cleaned_cfg : p.cleaned.cfg = p.cfg := by rw [Part.cleaned_eq]; rfl
@[simp] theorem Part.cleaned_claims : p.cleaned.claims = p.claims := by rw [Part.cleaned_eq]; rfl
@[simp] theorem Part.cleaned_ramps : p.cleaned.ramps = p.ramps := by rw [Part.cleaned_eq]; rfl
@[simp] theorem Part.cleaned_alarms : p.cleaned.alarms = p.alarms := by rw [Part.cleaned_eq]; rfl
@[simp] theorem Part.cleaned_shift : p.cleaned.shift = p.shift := by rw [Part.cleaned_eq]; rfl
@[simp] theorem Part.cleaned_queue : p.cleaned.line.queue = p.line.queue := by rw [Part.cleaned_eq]; rfl
@[simp] theorem Part.cleaned_burners (b : Fin 2) : p.cleaned.burners[b] = p.burners[b].cleared .off := by
  rw [Part.cleaned_eq]; exact Part.blocksInitial_burners _ b
@[simp] theorem Part.cleaned_feeders (f : Fin 6) : p.cleaned.feeders[f] = p.feeders[f].initial := by
  rw [Part.cleaned_eq]; exact Part.blocksInitial_feeders _ f
@[simp] theorem Part.cleaned_fans (n : Fin 4) : p.cleaned.fans[n] = p.fans[n].initial := by
  rw [Part.cleaned_eq]; exact Part.blocksInitial_fans _ n
@[simp] theorem Part.cleaned_grate : p.cleaned.grate = p.grate.initial := by rw [Part.cleaned_eq]; rfl

end

/-! ## RESTART STATION (R196) -/

/-- Every mix ramp ended at its target. -/
def Part.rampsEnded (p : Part) : Part :=
  p.forAll burnerIds fun b p =>
    match p.ramps[b] with
    | some r => (p.replaceMix b r.target).setRamp b none
    | none => p

/-- Blocks at their initial values, resources released, the station UNSTARTED. -/
def Part.unstarted (p : Part) : Part :=
  { p.blocksInitial with claims := Vector.ofFn fun k => p.claims[k].restarted, alloc := .reset, started := false }

/-- The station left UNSTARTED with its alarms, outputs and interrupts off. -/
def Part.shutDown (p : Part) : Part :=
  (((p.unstarted.updGrate fun g => { g with bedHigh := none }).updAlarms Alarms.restarted).updOutput fun _ => .off).updHost
    fun h => { h with enables := 0 }

/-- The line emptied, the record closed, the mix ramps ended. -/
def Part.wound (p : Part) : Part := ((p.restartLine).closeRecord true).rampsEnded

theorem Part.restart_eq (p : Part) : p.restart = p.wound.shutDown := rfl

section
variable (p : Part)

theorem Part.rampsEnded_frame : ChangesOnly (mixBlocks ∪ Set.range .ramp) p p.rampsEnded := by
  refine .forAll (fun b q => ?_) _ p
  split
  · exact (q.replaceMix_frame _ _).mono.next (Part.setRamp_frame _ _ _)
  · exact .refl

theorem Part.forAll_restartRelease (l : List (Fin 3)) : ∃ line, p.forAll l Part.restartRelease = { p with line := line } := by
  induction l generalizing p with
  | nil => exact ⟨p.line, rfl⟩
  | cons k l ih =>
    obtain ⟨line, e⟩ : ∃ line, p.restartRelease k = { p with line := line } := by
      unfold Part.restartRelease
      split
      · exact ⟨_, rfl⟩
      · exact ⟨p.line, rfl⟩
    obtain ⟨line', e'⟩ := ih { p with line := line }
    exact ⟨line', by rw [← e] at e'; exact e'.trans (by rw [e])⟩

theorem Part.restartLine_line : p.restartLine.line = { ((p.updLine fun l => { l.emptyQueue with txFail := false }).forAll
    resourceIds Part.restartRelease).line with silent := false } := by
  simp only [Part.restartLine, Part.updLine_line]

/-- A restart's line step changes the line only. -/
theorem Part.restartLine_eq : ∃ line, p.restartLine = { p with line := line } := by
  obtain ⟨line, e⟩ := Part.forAll_restartRelease (p.updLine fun l => { l.emptyQueue with txFail := false }) resourceIds
  unfold Part.restartLine
  dsimp only
  rw [e]
  exact ⟨_, rfl⟩

@[simp] theorem Part.unstarted_started : p.unstarted.started = false := rfl
@[simp] theorem Part.unstarted_line : p.unstarted.line = p.line := rfl
@[simp] theorem Part.unstarted_shift : p.unstarted.shift = p.shift := rfl
@[simp] theorem Part.unstarted_alarms : p.unstarted.alarms = p.alarms := rfl
@[simp] theorem Part.unstarted_cfg : p.unstarted.cfg = p.cfg := rfl
@[simp] theorem Part.unstarted_ramps : p.unstarted.ramps = p.ramps := rfl
@[simp] theorem Part.unstarted_claims (k : Fin 3) : p.unstarted.claims[k] = p.claims[k].restarted := by
  simp [Part.unstarted]
@[simp] theorem Part.unstarted_burners (b : Fin 2) : p.unstarted.burners[b] = p.burners[b].cleared .off :=
  p.blocksInitial_burners b
@[simp] theorem Part.unstarted_feeders (f : Fin 6) : p.unstarted.feeders[f] = p.feeders[f].initial :=
  p.blocksInitial_feeders f
@[simp] theorem Part.unstarted_fans (n : Fin 4) : p.unstarted.fans[n] = p.fans[n].initial := p.blocksInitial_fans n
@[simp] theorem Part.unstarted_grate : p.unstarted.grate = p.grate.initial := rfl

@[simp] theorem Part.shutDown_started : p.shutDown.started = false := rfl
@[simp] theorem Part.shutDown_cfg : p.shutDown.cfg = p.cfg := rfl
@[simp] theorem Part.shutDown_output : p.shutDown.field.output = .off := rfl
@[simp] theorem Part.shutDown_horn : p.shutDown.alarms.horn = false := rfl
@[simp] theorem Part.shutDown_burners (b : Fin 2) : p.shutDown.burners[b] = p.burners[b].cleared .off :=
  p.blocksInitial_burners b
@[simp] theorem Part.shutDown_claims (k : Fin 3) : p.shutDown.claims[k] = p.claims[k].restarted := p.unstarted_claims k
@[simp] theorem Part.shutDown_feeders (f : Fin 6) : p.shutDown.feeders[f] = p.feeders[f].initial :=
  p.blocksInitial_feeders f
@[simp] theorem Part.shutDown_fans (n : Fin 4) : p.shutDown.fans[n] = p.fans[n].initial := p.blocksInitial_fans n
@[simp] theorem Part.shutDown_grate : p.shutDown.grate = { p.grate.initial with bedHigh := none } := rfl
@[simp] theorem Part.shutDown_points (i : Fin 62) : p.shutDown.alarms.points[i] = p.alarms.points[i].restarted := by
  show (Alarms.restarted p.alarms).points[i] = _
  simp [Alarms.restarted]
@[simp] theorem Part.shutDown_ext (n : Fin 16) : p.shutDown.alarms.ext[n] = p.alarms.ext[n].restarted := by
  show (Alarms.restarted p.alarms).ext[n] = _
  simp [Alarms.restarted]
@[simp] theorem Part.shutDown_ramps : p.shutDown.ramps = p.ramps := rfl
@[simp] theorem Part.shutDown_line : p.shutDown.line = p.line := rfl
@[simp] theorem Part.shutDown_shift : p.shutDown.shift = p.shift := rfl
@[simp] theorem Part.shutDown_events : p.shutDown.alarms.events = [] := rfl
@[simp] theorem Part.shutDown_lost : p.shutDown.alarms.lost = 0 := rfl

end

end Sys2Proof.Machine
end

section
/-! SUPPORT. The rows that configure the station, start it or reset it: what it is enough to show of each for a predicate
to be kept by every row. -/

namespace Sys2Proof.Machine

-- One proof at a time: the whole package as one text must not start a thread for each of them.
set_option Elab.async false

open Sys2Proof.Config

/-- The settings of an UNSTARTED station, its start and its resets keep `I`. -/
structure Settings (I : Part → Prop) : Prop where
  powerUp : ∀ (straps : Fin 16) (rate : Fin 4) (eng : Bool), I (Part.powerUp straps rate eng)
  station : ∀ {p : Part} (c : StationCfg), I p → p.started = false → 0 < c.mixTime → I { p with cfg := c }
  burner : ∀ {p : Part} (b : Fin 2) (c : BurnerCfg), I p → p.started = false → I (p.updBurner b fun x => { x with cfg := c })
  feeder : ∀ {p : Part} (f : Fin 6) (c : FeederCfg), I p → p.started = false → I (p.updFeeder f (Feeder.configure c))
  fan : ∀ {p : Part} (n : Fin 4) (c : FanCfg), I p → p.started = false → I (p.updFan n fun _ => p.fans[n].configure c)
  grate : ∀ {p : Part} (c : GrateCfg), I p → p.started = false → I (p.updGrate fun _ => p.grate.configure c)
  ext : ∀ {p : Part} (n : Fin 16) (x : Ext), I p → p.started = false → I (p.setExt n x)
  start : ∀ {p q : Part}, I p → p.started = false → p.startRefusal = none → Kin { p with started := true } q → I q.cleaned
  restart : ∀ {p : Part}, I p → I p.restart

theorem stationItems_mixTime {zone airCeiling fallback heatUp period mixTime : Nat} {c : StationCfg}
    (h : stationItems zone airCeiling fallback heatUp period mixTime = some c) : 0 < c.mixTime := by
  unfold stationItems at h
  split at h
  · split at h
    · next ok => cases h; exact Nat.lt_of_lt_of_le (by decide) ok.2.2.2.1
    · cases h
  · cases h

theorem Part.risen_kin (p : Part) : Kin p.opened.cleaned p.risen := by
  unfold Part.risen
  generalize p.opened.cleaned = q
  exact ⟨{ Alike.refl q with }, id, id, id, id⟩

namespace Settings

variable {I : Part → Prop} {L : Prop} (s : Settings I) (w : Walk I L) {p : Part}
include s w

theorem started (h : I p) (e : p.started = false) (ok : p.startRefusal = none) : I p.start := by
  have risen : I p.risen := w.kin p.risen_kin (s.start h e ok p.opened_kin)
  have ready : I p.ready := w.kin (Part.updAlarms_kin _ _ rfl rfl rfl rfl rfl) (w.kin (Part.evaluate_kin _) risen)
  rw [Part.start_eq]
  exact w.settleAll ready

/-- Such a row keeps `I`. -/
theorem row {c : Instr} (hc : reconfigures c = true) (h : I p) : I (effect c p) := by
  have refused (cmd : Nat) (code : Code) (data : List Byte) : I (p.reply cmd code data) := w.reply cmd code data h
  have unstarted (e : ¬ p.started = true) : p.started = false := Bool.eq_false_iff.2 e
  cases c
  case pinReset straps rate eng => exact effect_keeps rfl (s.powerUp _ _ eng)
  case startStation =>
    refine effect_keeps rfl (ite_keeps (fun _ => refused ..) fun e => ite_keeps (fun _ => refused ..) fun _ => ?_)
    split
    · exact refused ..
    · next ok => exact w.reply _ _ _ (s.started w h (unstarted e) ok)
  case restartStation => exact effect_keeps rfl (ite_keeps (fun _ => w.reply _ _ _ (s.restart h)) fun _ => refused ..)
  case configureStation =>
    refine effect_keeps rfl (ite_keeps (fun _ => refused ..) fun e => ?_)
    split
    · exact refused ..
    · next c items =>
      refine w.settledAll _ (w.kin (Part.refreshMarks_kin _) (forAll_keeps (fun q r hr => ?_)
        (s.station c h (unstarted e) (stationItems_mixTime items))))
      exact ite_keeps (fun _ => w.kin (r.losePeer_kin q) hr) fun _ => hr
  case configureBurner =>
    refine effect_keeps rfl (ite_keeps (fun _ => refused ..) fun e => ?_)
    split
    · exact w.reply _ _ _ (s.burner _ _ h (unstarted e))
    · exact refused ..
  case configureFeeder =>
    refine effect_keeps rfl (ite_keeps (fun _ => refused ..) fun e => ?_)
    split
    · exact w.reply _ _ _ (s.feeder _ _ h (unstarted e))
    · exact refused ..
  case configureExternalPoint =>
    refine effect_keeps rfl (ite_keeps (fun _ => refused ..) fun e => ?_)
    split
    · exact w.reply _ _ _ (s.ext _ _ h (unstarted e))
    · exact refused ..
  case configureFan =>
    refine effect_keeps rfl (ite_keeps (fun _ => refused ..) fun e => ?_)
    split
    · refine w.reply _ _ _ (ite_keeps (fun _ => ?_) fun _ => w.kin (Part.offer_kin _ _ _ _ _ _ _) ?_) <;>
        exact s.fan _ _ h (unstarted e)
    · exact refused ..
  case configureGrate =>
    refine effect_keeps rfl (ite_keeps (fun _ => refused ..) fun e => ?_)
    split
    · refine w.reply _ _ _ (ite_keeps (fun _ => ?_) fun _ => w.kin (Part.offer_kin _ _ _ _ _ _ _) ?_) <;>
        exact s.grate _ h (unstarted e)
    · exact refused ..
  all_goals cases hc

/-- Every step keeps `I`. -/
theorem step {t t' : State} (h : I t.part) (e : Machine.step t = .next t') : I t'.part :=
  step_keeps_walked w (fun _ hc hp => s.row w hc hp) h e

end Settings

end Sys2Proof.Machine
end

section
/-! SUPPORT. The capacities and the engineering key: kept by every step. -/

namespace Sys2Proof.Machine

-- One proof at a time: the whole package as one text must not start a thread for each of them.
set_option Elab.async false

open Sys2Proof.Config

/-- The transmit queue, the event queue and the records within their capacities. -/
structure Part.Counted (p : Part) : Prop where
  queue : p.line.queue.length ≤ queueSize
  events : p.alarms.events.length ≤ eventSize
  lost : p.alarms.lost ≤ 255
  shift : p.shift.Fits

theorem Part.Counted.of_kin {p q : Part} (h : p.Counted) (k : Kin p q) : q.Counted :=
  ⟨k.queue h.queue, k.events h.events, k.lost h.lost, k.shift h.shift⟩

/-- An update that touches neither the queues nor the records. -/
theorem Part.Counted.of_same {p q : Part} (h : p.Counted) (queue : q.line.queue = p.line.queue)
    (events : q.alarms.events = p.alarms.events) (lost : q.alarms.lost = p.alarms.lost) (shift : q.shift = p.shift) :
    q.Counted := ⟨queue ▸ h.queue, events ▸ h.events, lost ▸ h.lost, shift ▸ h.shift⟩

theorem Shift.eq_of_closed {s t : Shift} (h : s.closed = t.closed) (c : s.current = t.current) : s = t := by
  cases s; cases t; simp_all [Shift.closed]

theorem Part.Counted.of_frame {T : Set Block} {p q : Part} (h : p.Counted) (f : ChangesOnly T p q) (queue : .queue ∉ T)
    (events : .events ∉ T) (record : .record ∉ T) (shift : .shift ∉ T) : q.Counted := by
  obtain ⟨e, l⟩ := f.same .events events
  exact h.of_same (f.same .queue queue).1 e l (Shift.eq_of_closed (f.same .shift shift) (f.same .record record))

theorem Part.replaceMix_counted {b : Fin 2} {m : Vector Nat 6} {p : Part} (h : p.Counted) : (p.replaceMix b m).Counted :=
  h.of_frame (p.replaceMix_frame b m) (by simp [mixBlocks]) (by simp [mixBlocks]) (by simp [mixBlocks])
    (by simp [mixBlocks])

theorem Part.grateTo_counted (s : GrateState) {p : Part} (h : p.Counted) : (p.grateTo s).Counted := by
  unfold Part.grateTo
  dsimp only
  refine Part.Counted.of_kin ?_ (Part.offer_kin _ _ _ _ _ _ _)
  exact h.of_same rfl rfl rfl rfl

/-- Nothing but the queues and the records bears on their capacities. -/
theorem counted_changes : Changes Part.Counted True where
  kin k h := h.of_kin k
  effAwake _ _ := .inl trivial
  pointAwake _ _ := .inl trivial
  burnerAwake _ _ := .inl trivial
  claimAwake _ _ := .inl trivial
  fanAwake _ _ := .inl trivial
  point _ _ h _ := h.of_same rfl rfl rfl rfl
  horn _ h _ := h.of_same rfl rfl rfl rfl
  claim _ _ h _ := h.of_same rfl rfl rfl rfl
  burner _ _ _ h _ _ := h.of_same rfl rfl rfl rfl
  writeFeeder _ h _ := h.of_same rfl rfl rfl rfl
  feederTo _ _ _ h _ := h.of_same rfl rfl rfl rfl
  fan _ _ _ h _ _ _ := h.of_same rfl rfl rfl rfl
  grateTo _ h _ := Part.grateTo_counted _ h
  controlFan n h _ := h.of_frame (Part.controlFan_frame n _) (by simp) (by simp) (by simp) (by simp)
  controlGrate h _ := h.of_frame (Part.controlGrate_frame _) (by simp) (by simp) (by simp) (by simp)
  startRamp _ h := h.of_same rfl rfl rfl rfl
  dropRamp _ h := h.of_same rfl rfl rfl rfl
  ramped _ _ h _ := (Part.replaceMix_counted h).of_same rfl rfl rfl rfl
  stepped _ _ h _ _ := (Part.replaceMix_counted h).of_same rfl rfl rfl rfl
  arrived _ _ h _ _ := (Part.replaceMix_counted h).of_same rfl rfl rfl rfl
  turned _ _ _ h _ _ _ _ := h.of_same rfl rfl rfl rfl
  mixed _ _ h _ _ := Part.replaceMix_counted h
  newRamp _ _ h _ _ _ := h.of_same rfl rfl rfl rfl

theorem Part.place_queue_length (body : FrameBody) (p : Part) :
    (p.place body).line.queue.length = p.line.queue.length + 1 := by
  have := (p.place_queue body).length_eq
  simpa using this

theorem Part.restartReleases_queue (l : List (Fin 3)) (p : Part) :
    (p.forAll l Part.restartRelease).line.queue.length ≤ p.line.queue.length + l.length := by
  induction l generalizing p with
  | nil => exact le_rfl
  | cons k l ih =>
    have one : (p.restartRelease k).line.queue.length ≤ p.line.queue.length + 1 := by
      unfold Part.restartRelease
      split
      · exact (p.place_queue_length _).le
      · exact Nat.le_succ _
    have rest := ih (p.restartRelease k)
    simp only [List.length_cons]
    exact rest.trans (by omega)

/-- At most the frame in hand and three restart releases. -/
theorem Part.restartLine_queue (p : Part) : p.restartLine.line.queue.length ≤ queueSize := by
  have start : (p.updLine fun l => { l.emptyQueue with txFail := false }).line.queue.length ≤ 1 := by
    simp only [Part.updLine_line, Line.emptyQueue]
    split
    · exact Nat.zero_le _
    · rw [List.length_take]; exact Nat.min_le_left _ _
  have := Part.restartReleases_queue resourceIds (p.updLine fun l => { l.emptyQueue with txFail := false })
  rw [List.length_finRange] at this
  have e : p.restartLine.line.queue = ((p.updLine fun l => { l.emptyQueue with txFail := false }).forAll resourceIds
    Part.restartRelease).line.queue := by rw [Part.restartLine_line]
  have room : 4 ≤ queueSize := by decide
  rw [e]
  exact this.trans ((Nat.add_le_add_right start 3).trans room)

theorem Part.rampsEnded_counted {p : Part} (h : p.Counted) : p.rampsEnded.Counted :=
  h.of_frame p.rampsEnded_frame (by simp [mixBlocks]) (by simp [mixBlocks]) (by simp [mixBlocks]) (by simp [mixBlocks])

theorem Part.restart_counted {p : Part} (h : p.Counted) : p.restart.Counted := by
  have line : p.restartLine.Counted := by
    have queue := p.restartLine_queue
    obtain ⟨l, e⟩ := p.restartLine_eq
    rw [e] at queue ⊢
    exact ⟨queue, h.events, h.lost, h.shift⟩
  have wound : p.wound.Counted := Part.rampsEnded_counted (line.of_kin (Part.closeRecord_kin _ true))
  rw [Part.restart_eq]
  generalize p.wound = q at wound
  refine ⟨?_, ?_, ?_, ?_⟩
  · rw [Part.shutDown_line]; exact wound.queue
  · rw [Part.shutDown_events]; exact Nat.zero_le _
  · rw [Part.shutDown_lost]; exact Nat.zero_le _
  · rw [Part.shutDown_shift]; exact wound.shift

theorem Part.powerUp_counted (straps : Fin 16) (rate : Fin 4) (eng : Bool) : (Part.powerUp straps rate eng).Counted :=
  have fits := Part.powerUp_fits straps rate eng
  ⟨fits.queue, fits.events, fits.lost, ⟨fits.store, fits.current, fits.stored⟩⟩

theorem Part.cleaned_counted {p : Part} (h : p.Counted) : p.cleaned.Counted :=
  h.of_same (Part.cleaned_queue _) (by rw [Part.cleaned_alarms]) (by rw [Part.cleaned_alarms]) (Part.cleaned_shift _)

/-- The rows that configure, start or reset keep the queues and records within their capacities. -/
theorem counted_settings : Settings Part.Counted where
  powerUp := Part.powerUp_counted
  station _ h _ _ := h.of_same rfl rfl rfl rfl
  burner _ _ h _ := h.of_same rfl rfl rfl rfl
  feeder _ _ h _ := h.of_same rfl rfl rfl rfl
  fan _ _ h _ := h.of_same rfl rfl rfl rfl
  grate _ h _ := h.of_same rfl rfl rfl rfl
  ext _ _ h _ := h.of_same rfl rfl rfl rfl
  start {p _} h _ _ k := Part.cleaned_counted
    (Part.Counted.of_kin (p := { p with started := true }) (h.of_same rfl rfl rfl rfl) k)
  restart h := Part.restart_counted h

/-! ## Window, buffer, scan -/

/-- The registers whose bounds a frame keeps. -/
structure Part.Bounded (p : Part) : Prop where
  window : p.alarms.readPos ≤ 10
  buffer : p.host.buffer.length ≤ bufferSize
  badRun : p.field.badRun ≤ 4
  goodRun : p.field.goodRun ≤ 2

theorem Part.Bounded.of_frame {T : Set Block} {p q : Part} (h : p.Bounded) (f : ChangesOnly T p q) (window : .window ∉ T)
    (buffer : .buffer ∉ T) (scan : .scan ∉ T) : q.Bounded where
  window := (f.same .window window).1 ▸ h.window
  buffer := (f.same .buffer buffer).1 ▸ h.buffer
  badRun := (congrArg Field.badRun (f.same .scan scan)).trans_le h.badRun
  goodRun := (congrArg Field.goodRun (f.same .scan scan)).trans_le h.goodRun

/-- The counts of the table of R179 stay in their ranges. -/
theorem Field.move_runs (good : Bool) (l : List Byte) (f : Field) (bad : f.badRun ≤ 4) (run : f.goodRun ≤ 2) :
    (f.move good l).badRun ≤ 4 ∧ (f.move good l).goodRun ≤ 2 := by
  unfold Field.move
  split
  · exact ⟨bad, run⟩
  · exact ⟨by simp, run⟩
  · exact ⟨by simp, run⟩
  · split
    · next h => exact ⟨by dsimp only; omega, run⟩
    · exact ⟨by simp, by simp⟩
  · split
    · next h => exact ⟨bad, by dsimp only; omega⟩
    · exact ⟨by simp, by simp⟩
  · exact ⟨bad, by simp⟩

theorem Field.count_runs (now : Time) (l : List Byte) (f : Field) :
    (f.count now l).badRun = f.badRun ∧ (f.count now l).goodRun = f.goodRun := ⟨rfl, rfl⟩

/-- A scan completes with its runs in their ranges. -/
theorem Part.completeScan_bounded (l : List Byte) {p : Part} (h : p.Bounded) : (p.completeScan l).Bounded := by
  unfold Part.completeScan
  obtain ⟨bad, good⟩ := Field.move_runs (blockCrcGood l && blockReady l) l (p.field.count p.now l) h.badRun h.goodRun
  have moved : Part.Bounded { p with field := { (p.field.count p.now l).move (blockCrcGood l && blockReady l) l with inFlight := false } } :=
    ⟨h.window, h.buffer, bad, good⟩
  exact moved.of_frame (Part.handScan_frame _ _) (by simp [scanBlocks, settleAllBlocks, tripBlocks, pointBlocks, sendBlocks, burnerBlocks,
      mixBlocks, leaveBlocks, settleBlocks])
    (by simp [scanBlocks, settleAllBlocks, tripBlocks, pointBlocks, sendBlocks, burnerBlocks, mixBlocks, leaveBlocks, settleBlocks])
    (by simp [scanBlocks, settleAllBlocks, tripBlocks, pointBlocks, sendBlocks, burnerBlocks, mixBlocks, leaveBlocks, settleBlocks])

theorem Alarms.readWindow_readPos (now : Time) (a : Alarms) : (a.readWindow now).readPos ≤ 10 := by
  unfold Alarms.readWindow
  split
  · next h => exact h
  · exact Nat.zero_le _

/-- The blocks whose registers rows change by themselves, not through the shared operations. -/
def ownBlocks : Set Block := {.window, .buffer, .scan, .engineering}

section
variable {x : Block} (hx : x ∈ ownBlocks)
include hx

theorem own_not_send : x ∉ sendBlocks := by rcases hx with rfl | rfl | rfl | rfl <;> simp [sendBlocks]
theorem own_not_leave (k : Fin 3) : x ∉ leaveBlocks k := by
  rcases hx with rfl | rfl | rfl | rfl <;> simp [leaveBlocks, sendBlocks]
theorem own_not_mix : x ∉ mixBlocks := by rcases hx with rfl | rfl | rfl | rfl <;> simp [mixBlocks]
theorem own_not_settle : x ∉ settleBlocks := by
  rcases hx with rfl | rfl | rfl | rfl <;> simp [settleBlocks, pointBlocks]
theorem own_not_burner (b : Fin 2) : x ∉ burnerBlocks b := by
  rcases hx with rfl | rfl | rfl | rfl <;> simp [burnerBlocks, mixBlocks, leaveBlocks, sendBlocks]
theorem own_not_fan (n : Fin 4) : x ∉ fanBlocks n := by
  rcases hx with rfl | rfl | rfl | rfl <;> simp [fanBlocks, leaveBlocks, sendBlocks]
theorem own_not_trip : x ∉ tripBlocks := by
  simp only [tripBlocks, Set.mem_union, own_not_send hx, own_not_burner hx, or_false]
  rcases hx with rfl | rfl | rfl | rfl <;> simp [pointBlocks]
theorem own_not_settleAll : x ∉ settleAllBlocks := fun h => h.elim (own_not_trip hx) (own_not_settle hx)
theorem own_not_user : x ∉ userBlocks := by
  simp only [userBlocks, Set.mem_union, own_not_trip hx, false_or]
  rcases hx with rfl | rfl | rfl | rfl <;> simp
theorem own_not_received : x ∉ receivedBlocks := by
  simp only [receivedBlocks, silentBlocks, Set.mem_union, own_not_user hx, or_false]
  rcases hx with rfl | rfl | rfl | rfl <;> simp
theorem own_not_ofBurner (n : Nat) : x ∉ ofBurner n := fun ⟨b, _, h⟩ => own_not_burner hx b h
theorem own_not_ofFan (n : Nat) : x ∉ ofFan n := fun ⟨b, _, h⟩ => own_not_fan hx b h

end

/-- The commands that change a register of `ownBlocks`: RESTART STATION the event window's, others the engineering
window's. -/
theorem own_of_command {c : Instr} (command : c.spelling ≠ none) {x : Block} (hx : x ∈ ownBlocks) (h : x ∈ rowBlocks c) :
    (c = .restartStation ∧ x = .window) ∨ x = .engineering := by
  cases c
  case pinReset | commandByteWrite | submit | responseByteRead | interruptEnablesWrite | eventWindowRead
    | eventWindowWrite | engineeringDeadline | engNegated | shelvingExpiry | accessGapReached | frameSentWhole
    | readBackMismatch | breakEnded | statusPeriodExpiry | frameReceived | badHeaderDiscard
    | partialFrameDiscard | interCharacterGap | duplicateDeadlineExpiry | lineStuckSet | lineStuckCleared
    | peerAgingExpiry | staggerEnd | settleDeadline | claimantExpiry | reclaimDelayEnd | airHoldExpiry
    | feederControlPeriod | mixRampStep | deviationTime | noFlowTime | lightWaitExpiry | flameProven
    | ignitionDeadline | loadingDeadline | flameFailTime | flameWeakTime | heldDeadline | fieldScanStart
    | fieldScanComplete | fanStartDeadline | fanFeedbackLoss | heldFlowExpiry | coolingPeriod
    | grateFeedbackLoss | bedPressureHighTime => exact absurd rfl command
  all_goals
    simp only [rowBlocks, Set.mem_union, own_not_settleAll hx, own_not_settle hx, own_not_send hx, own_not_leave hx,
      own_not_mix hx, own_not_ofBurner hx, own_not_ofFan hx, or_false] at h
    rcases hx with rfl | rfl | rfl | rfl <;> simp [blockOf] at h ⊢

/-- The events that change a register of `ownBlocks`. -/
theorem own_of_event {c : Instr} (event : c.spelling = none) {x : Block} (hx : x ∈ ownBlocks) (h : x ∈ rowBlocks c) :
    (∃ a r e, c = .pinReset a r e) ∨ (∃ b, c = .commandByteWrite b) ∨ c = .submit ∨ c = .eventWindowRead ∨
      x = .engineering ∨ c = .fieldScanStart ∨ ∃ fdi, c = .fieldScanComplete fdi := by
  cases c
  case configureStation | startStation | restartStation | readStation | openEngineering | closeEngineering
    | readLineStatus | readPeerChanges | readPeerEntry | readResources | offerDemand | withdrawDemand
    | readAllocation | setMode | configureBurner | startBurner | stopBurner | resumeBurner | resetTripPoint
    | resetTripBurner | readBurner | configureFuel | writeFuel | readFuelTable | configureFeeder | setMix
    | writePulseWeight | readFeeder | configureFan | startFan | stopFan | resetFan | configureGrate | startGrate
    | stopGrate | setBedPressure | readCooler | acknowledge | acknowledgeAll | resetAlarm | shelve | unshelve
    | configureExternalPoint | raiseExternal | clearExternal | discardPeerTrip | readFirstOut | resetFirstOut
    | readSummary | clearSummary | silenceHorn | readPoint | readPointStates | closeShift | readShiftRecord
    | writeShiftNote | readField => cases event
  case pinReset a r e => exact .inl ⟨a, r, e, rfl⟩
  case commandByteWrite b => exact .inr (.inl ⟨b, rfl⟩)
  case fieldScanComplete fdi => exact .inr (.inr (.inr (.inr (.inr (.inr ⟨fdi, rfl⟩)))))
  all_goals
    simp only [rowBlocks, Set.mem_union, own_not_settleAll hx, own_not_settle hx, own_not_send hx, own_not_leave hx,
      own_not_mix hx, own_not_burner hx, own_not_fan hx, own_not_user hx, own_not_received hx, or_false] at h
  all_goals rcases hx with rfl | rfl | rfl | rfl <;> simp at h ⊢

theorem Part.Bounded.of_quiet {c : Instr} {p : Part} (h : p.Bounded) (window : .window ∉ rowBlocks c)
    (buffer : .buffer ∉ rowBlocks c) (scan : .scan ∉ rowBlocks c) : (effect c p).Bounded :=
  h.of_frame (effect_frame c p) window buffer scan

/-- A row whose blocks hold none of the bounded registers. -/
theorem Part.Bounded.command {c : Instr} (command : c.spelling ≠ none) {p : Part} (h : p.Bounded) : (effect c p).Bounded := by
  by_cases restart : c = .restartStation
  · subst restart
    have f := effect_frame .restartStation p
    refine ⟨?_, ?_, ?_, ?_⟩
    · have shut : ∀ q : Part, (q.shutDown.reply 0x12 .done).alarms.readPos ≤ 10 := fun q => Nat.zero_le _
      refine effect_keeps (I := fun q => q.alarms.readPos ≤ 10) rfl ?_
      dsimp only
      split
      · rw [Part.restart_eq]; exact shut _
      · exact h.window
    · exact (f.same .buffer fun hx => by simpa using own_of_command command (x := .buffer) (by simp [ownBlocks]) hx).1 ▸ h.buffer
    · exact (congrArg Field.badRun (f.same .scan fun hx => by
        simpa using own_of_command command (x := .scan) (by simp [ownBlocks]) hx)).trans_le h.badRun
    · exact (congrArg Field.goodRun (f.same .scan fun hx => by
        simpa using own_of_command command (x := .scan) (by simp [ownBlocks]) hx)).trans_le h.goodRun
  · have quiet : ∀ x ∈ ownBlocks, x ≠ .engineering → x ∉ rowBlocks c := fun x hx ne hr =>
      (own_of_command command hx hr).elim (fun e => restart e.1) ne
    exact h.of_quiet (quiet _ (by simp [ownBlocks]) nofun) (quiet _ (by simp [ownBlocks]) nofun)
      (quiet _ (by simp [ownBlocks]) nofun)

theorem Part.Bounded.event {c : Instr} (event : c.spelling = none) {p : Part} (h : p.Bounded) : (effect c p).Bounded := by
  by_cases quiet : ∀ x ∈ ownBlocks, x ≠ .engineering → x ∉ rowBlocks c
  · exact h.of_quiet (quiet _ (by simp [ownBlocks]) nofun) (quiet _ (by simp [ownBlocks]) nofun)
      (quiet _ (by simp [ownBlocks]) nofun)
  · push Not at quiet
    obtain ⟨x, hx, ne, hr⟩ := quiet
    rcases own_of_event event hx hr with ⟨a, r, e, rfl⟩ | ⟨b, rfl⟩ | rfl | rfl | rfl | rfl | ⟨fdi, rfl⟩
    · have fits := Part.powerUp_fits (Fin.ofNat 16 a) (Fin.ofNat 4 r) e
      exact effect_keeps rfl ⟨fits.window, fits.buffer, fits.badRun, fits.goodRun⟩
    · refine effect_keeps rfl ⟨h.window, ?_, h.badRun, h.goodRun⟩
      show List.length (HostPort.buffer (if _ then _ else _)) ≤ _
      split
      · next room => simpa using room
      · exact h.buffer
    · refine effect_keeps rfl (ite_keeps (fun _ => ⟨h.window, h.buffer, h.badRun, h.goodRun⟩) fun _ => ?_)
      dsimp only
      split
      · exact ⟨h.window, Nat.zero_le _, h.badRun, h.goodRun⟩
      · exact ⟨h.window, Nat.zero_le _, h.badRun, h.goodRun⟩
    · exact effect_keeps rfl ⟨Alarms.readWindow_readPos _ _, h.buffer, h.badRun, h.goodRun⟩
    · exact absurd rfl ne
    · exact effect_keeps rfl (whenDue_keeps _ (fun h => ⟨h.window, h.buffer, h.badRun, h.goodRun⟩) h)
    · have started : Part.Bounded (if p.field.inFlight then p else p.startScan p.now) :=
        ite_keeps (fun _ => h) fun _ => ⟨h.window, h.buffer, h.badRun, h.goodRun⟩
      have e : effect (.fieldScanComplete fdi) p =
          (if p.field.inFlight then p else p.startScan p.now).completeScan (fieldBytes fdi) := by
        simp only [effect, exec, execFieldScanComplete, State.act]
      rw [e]
      exact Part.completeScan_bounded _ started

theorem Part.Bounded.row {p : Part} (h : p.Bounded) (c : Instr) : (effect c p).Bounded := by
  by_cases event : c.spelling = none
  · exact h.event event
  · exact h.command event

/-! ## The engineering key -/

theorem Part.keyed_of_frame {T : Set Block} {p q : Part} (h : p.windowKeyed) (f : ChangesOnly T p q)
    (engineering : .engineering ∉ T) : q.windowKeyed := by
  obtain ⟨window, lapsed, eng⟩ := f.same .engineering engineering
  exact ⟨by rw [window, eng]; exact h.1, by rw [window, lapsed]; exact h.2⟩

theorem Part.keyed_of_host {p q : Part} (h : p.windowKeyed) (window : q.host.window = p.host.window)
    (lapsed : q.host.lapsed = p.host.lapsed) (eng : q.host.eng = p.host.eng) : q.windowKeyed :=
  ⟨by rw [window, eng]; exact h.1, by rw [window, lapsed]; exact h.2⟩

theorem Part.reply_keyed (cmd : Nat) (code : Code) (data : List Byte) {p : Part} (h : p.windowKeyed) :
    (p.reply cmd code data).windowKeyed := p.keyed_of_host h rfl rfl rfl

/-- A CLOSED window, with or without its key. -/
theorem Part.keyed_of_closed {p : Part} (window : p.host.window = none) (lapsed : p.host.lapsed = false) : p.windowKeyed :=
  ⟨by simp [window], by simp [lapsed]⟩

/-- An engineering command taken with the window OPEN, whose own effect leaves the window alone. -/
theorem Part.engineeringDone_keyed {T : Set Block} {p q : Part} (h : p.windowKeyed) (isOpen : p.host.window.isSome = true)
    (f : ChangesOnly T p q) (engineering : .engineering ∉ T) (cmd : Nat) : (q.engineeringDone cmd).windowKeyed := by
  refine ⟨fun _ => ?_, fun _ => rfl⟩
  have e : (q.engineeringDone cmd).host.eng = q.host.eng := rfl
  rw [e, (f.same .engineering engineering).2.2]
  exact h.1 isOpen

/-- The first check of an engineering command. -/
theorem Part.engineering_keyed {p : Part} (h : p.windowKeyed) (cmd : Nat) {f : Part → Part}
    (taken : p.host.window.isSome = true → (f p).windowKeyed) : (p.engineering cmd f).windowKeyed :=
  ite_keeps taken fun _ => Part.reply_keyed _ _ _ h

theorem Part.pointCommand_keyed {p : Part} (h : p.windowKeyed) (cmd n : Nat) {f : Fin 62 → Part → Part}
    (taken : ∀ i, (f i p).windowKeyed) : (p.pointCommand cmd n f).windowKeyed := by
  unfold Part.pointCommand
  refine ite_keeps (fun _ => Part.reply_keyed _ _ _ h) fun _ => ?_
  split
  · exact Part.reply_keyed _ _ _ h
  · exact taken _

theorem engineering_not_settleAll : Block.engineering ∉ settleAllBlocks := own_not_settleAll (by simp [ownBlocks])

theorem writeFuel_keyed {p : Part} (h : p.windowKeyed) (index cv : Nat) : (effect (.writeFuel index cv) p).windowKeyed := by
  refine effect_keeps rfl (Part.engineering_keyed h _ fun isOpen => ?_)
  split
  · exact Part.reply_keyed _ _ _ h
  · refine ite_keeps (fun _ => ?_) fun _ => Part.reply_keyed _ _ _ h
    refine Part.engineeringDone_keyed h isOpen (T := {.fuel, .record} ∪ settleBlocks) ?_ ?_ _
    · exact (((Part.setFuel_frame ..).mono.next (Part.record_frame ..)).mono Set.subset_union_left).settled Set.subset_union_right
    · simp [own_not_settle (x := .engineering) (by simp [ownBlocks])]

theorem writePulseWeight_keyed {p : Part} (h : p.windowKeyed) (feeder weight : Nat) :
    (effect (.writePulseWeight feeder weight) p).windowKeyed := by
  refine effect_keeps rfl (Part.engineering_keyed h _ fun isOpen => ?_)
  split
  · exact Part.reply_keyed _ _ _ h
  · next f _ =>
    refine ite_keeps (fun _ => Part.reply_keyed _ _ _ h) fun _ => ite_keeps (fun _ => Part.reply_keyed _ _ _ h) fun _ => ?_
    have quiet : ChangesOnly {.record, .feeder f} p ((p.updFeeder f (Feeder.weigh p.started weight)).record ShiftRec.calibrated) :=
      ((p.weigh_frame f _ _).mono (by simp)).next (Part.record_frame ..)
    exact Part.engineeringDone_keyed h isOpen quiet (by simp) _

theorem shelve_keyed {p : Part} (h : p.windowKeyed) (point minutes : Nat) : (effect (.shelve point minutes) p).windowKeyed := by
  refine effect_keeps rfl (Part.engineering_keyed h _ fun isOpen => Part.pointCommand_keyed h _ _ fun i => ?_)
  refine ite_keeps (fun _ => Part.reply_keyed _ _ _ h) fun _ => ?_
  exact Part.engineeringDone_keyed h isOpen (p.updPoint_frame i _) (by simp) _

theorem unshelve_keyed {p : Part} (h : p.windowKeyed) (point : Nat) : (effect (.unshelve point) p).windowKeyed := by
  refine effect_keeps rfl (Part.engineering_keyed h _ fun isOpen => Part.pointCommand_keyed h _ _ fun i => ?_)
  refine ite_keeps (fun _ => ?_) fun _ => Part.reply_keyed _ _ _ h
  exact Part.engineeringDone_keyed h isOpen
    (((p.endShelving_frame i).mono tripBlocks_subset_settleAllBlocks).settledAll Set.Subset.rfl) engineering_not_settleAll _

theorem discardPeerTrip_keyed {p : Part} (h : p.windowKeyed) (station : Nat) :
    (effect (.discardPeerTrip station) p).windowKeyed := by
  refine effect_keeps rfl (Part.engineering_keyed h _ fun isOpen => ?_)
  split
  · exact Part.reply_keyed _ _ _ h
  · next q _ =>
    refine ite_keeps (fun _ => Part.reply_keyed _ _ _ h) fun _ => ?_
    refine Part.engineeringDone_keyed h isOpen (T := {.peerTrips} ∪ settleAllBlocks)
      (((p.removePeerTrip_frame q).mono (by simp)).settledAll Set.subset_union_right) ?_ _
    simp [engineering_not_settleAll]

/-- OPEN ENGINEERING opens the window with the key asserted, or closes it with the key negated. -/
theorem openEngineering_keyed {p : Part} (eng : Bool) : (effect (.openEngineering eng) p).windowKeyed := by
  refine effect_keeps rfl (ite_keeps (fun _ => ?_) fun _ => Part.keyed_of_closed rfl rfl)
  dsimp only
  exact Part.reply_keyed _ _ _ (ite_keeps (fun _ => ⟨fun _ => rfl, fun _ => rfl⟩) fun _ => ⟨fun _ => rfl, fun _ => rfl⟩)

/-- The rows that change the engineering window. -/
def turnsKey : Instr → Bool
  | .pinReset .. | .openEngineering _ | .closeEngineering | .engineeringDeadline | .engNegated | .writeFuel ..
  | .writePulseWeight .. | .shelve .. | .unshelve _ | .discardPeerTrip _ => true
  | _ => false

theorem quiet_of_command {c : Instr} (command : c.spelling ≠ none) (h : turnsKey c = false) : .engineering ∉ rowBlocks c := by
  have hx : Block.engineering ∈ ownBlocks := by simp [ownBlocks]
  cases c
  case openEngineering | closeEngineering | writeFuel | writePulseWeight | shelve | unshelve | discardPeerTrip => cases h
  case pinReset | commandByteWrite | submit | responseByteRead | interruptEnablesWrite | eventWindowRead
    | eventWindowWrite | engineeringDeadline | engNegated | shelvingExpiry | accessGapReached | frameSentWhole
    | readBackMismatch | breakEnded | statusPeriodExpiry | frameReceived | badHeaderDiscard
    | partialFrameDiscard | interCharacterGap | duplicateDeadlineExpiry | lineStuckSet | lineStuckCleared
    | peerAgingExpiry | staggerEnd | settleDeadline | claimantExpiry | reclaimDelayEnd | airHoldExpiry
    | feederControlPeriod | mixRampStep | deviationTime | noFlowTime | lightWaitExpiry | flameProven
    | ignitionDeadline | loadingDeadline | flameFailTime | flameWeakTime | heldDeadline | fieldScanStart
    | fieldScanComplete | fanStartDeadline | fanFeedbackLoss | heldFlowExpiry | coolingPeriod
    | grateFeedbackLoss | bedPressureHighTime => exact absurd rfl command
  all_goals
    simp [rowBlocks, blockOf, own_not_settleAll hx, own_not_settle hx, own_not_send hx, own_not_leave hx,
      own_not_mix hx, own_not_ofBurner hx, own_not_ofFan hx]

theorem quiet_of_event {c : Instr} (event : c.spelling = none) (h : turnsKey c = false) : .engineering ∉ rowBlocks c := by
  have hx : Block.engineering ∈ ownBlocks := by simp [ownBlocks]
  cases c
  case pinReset | engineeringDeadline | engNegated => cases h
  case configureStation | startStation | restartStation | readStation | openEngineering | closeEngineering
    | readLineStatus | readPeerChanges | readPeerEntry | readResources | offerDemand | withdrawDemand
    | readAllocation | setMode | configureBurner | startBurner | stopBurner | resumeBurner | resetTripPoint
    | resetTripBurner | readBurner | configureFuel | writeFuel | readFuelTable | configureFeeder | setMix
    | writePulseWeight | readFeeder | configureFan | startFan | stopFan | resetFan | configureGrate | startGrate
    | stopGrate | setBedPressure | readCooler | acknowledge | acknowledgeAll | resetAlarm | shelve | unshelve
    | configureExternalPoint | raiseExternal | clearExternal | discardPeerTrip | readFirstOut | resetFirstOut
    | readSummary | clearSummary | silenceHorn | readPoint | readPointStates | closeShift | readShiftRecord
    | writeShiftNote | readField => cases event
  all_goals
    simp [rowBlocks, own_not_settleAll hx, own_not_settle hx, own_not_send hx, own_not_leave hx,
      own_not_mix hx, own_not_burner hx, own_not_fan hx, own_not_user hx, own_not_received hx]

/-- Every row keeps the engineering window from standing OPEN without its key. -/
theorem Part.keyed_row {p : Part} (h : p.windowKeyed) (c : Instr) : (effect c p).windowKeyed := by
  cases hc : turnsKey c
  · refine Part.keyed_of_frame h (effect_frame c p) ?_
    by_cases event : c.spelling = none
    · exact quiet_of_event event hc
    · exact quiet_of_command event hc
  · cases c
    case pinReset straps rate eng => exact effect_keeps rfl (Part.powerUp_windowKeyed _ _ eng)
    case openEngineering eng => exact openEngineering_keyed eng
    case closeEngineering =>
      exact effect_keeps rfl (ite_keeps (fun _ => Part.reply_keyed _ _ _ (Part.keyed_of_closed rfl rfl)) fun _ => Part.reply_keyed _ _ _ h)
    case engineeringDeadline => exact effect_keeps rfl (whenDue_keeps _ (fun _ => Part.keyed_of_closed rfl rfl) h)
    case engNegated => exact effect_keeps rfl (Part.keyed_of_closed rfl rfl)
    case writeFuel index cv => exact writeFuel_keyed h index cv
    case writePulseWeight feeder weight => exact writePulseWeight_keyed h feeder weight
    case shelve point minutes => exact shelve_keyed h point minutes
    case unshelve point => exact unshelve_keyed h point
    case discardPeerTrip station => exact discardPeerTrip_keyed h station
    all_goals cases hc

/-! ## Every step -/

theorem Part.fits_iff {p : Part} : p.Fits ↔ p.Counted ∧ p.Bounded where
  mp h := ⟨⟨h.queue, h.events, h.lost, ⟨h.store, h.current, h.stored⟩⟩, ⟨h.window, h.buffer, h.badRun, h.goodRun⟩⟩
  mpr h := ⟨h.1.queue, h.1.events, h.1.lost, h.2.window, h.1.shift.store, h.1.shift.current, h.1.shift.stored,
    h.2.buffer, h.2.badRun, h.2.goodRun⟩

theorem Part.windowKeyed_tick {s : State} (h : s.part.windowKeyed) : s.tick.part.windowKeyed := by
  refine ⟨fun isOpen => ?_, h.2⟩
  show (s.part.host.eng || _) = true
  rw [h.1 isOpen, Bool.true_or]

/-- Settles O56: what the queues and records hold is followed through every operation, the bounded registers and the
engineering window change only in the rows whose blocks hold them. -/
theorem stepsKeepCapacities : Obligations.StepsKeepCapacities := by
  intro s t fits keyed h
  obtain ⟨counted, bounded⟩ := Part.fits_iff.1 fits
  refine ⟨Part.fits_iff.2 ⟨?_, ?_⟩, ?_⟩
  · exact counted_settings.step counted_changes.walk counted h
  · refine step_keeps (fun c q taken => ?_) ⟨bounded.window, bounded.buffer, bounded.badRun, bounded.goodRun⟩ h
    exact takes_iff.1 taken ▸ bounded.row c
  · refine step_keeps (fun c q taken => ?_) (Part.windowKeyed_tick keyed) h
    exact takes_iff.1 taken ▸ Part.keyed_row keyed c

end Sys2Proof.Machine
end

section
/-! OBLIGATION O59. The outputs agree with the states that set them. -/

namespace Sys2Proof.Machine

-- One proof at a time: the whole package as one text must not start a thread for each of them.
set_option Elab.async false

open Sys2Proof.Config

/-! ## Parts that agree -/

theorem Part.Dormant.of_alike {p q : Part} (h : p.Dormant) (k : Alike p q) : q.Dormant where
  claims n := by rw [(k.claims n).1, (k.claims n).2.2]; exact h.claims n
  burners b := by rw [(k.burners b).1]; exact h.burners b
  points i := by rw [(k.points i).1, (k.points i).2]; exact h.points i
  outputs := k.output.trans h.outputs

theorem Part.OutputsAgree.of_alike {p q : Part} (h : p.OutputsAgree) (k : Alike p q) : q.OutputsAgree where
  unstarted s := (h.unstarted (k.started ▸ s)).of_alike k
  igniter b := by rw [k.output, (k.burners b).1]; exact h.igniter b
  feeder f := by
    obtain ⟨run, remote, speed, stopped⟩ := h.feeder f
    constructor <;> simpa only [k.output, (k.feeders f).1, k.started]
  fan n := by
    obtain ⟨run, starting, running, stopped⟩ := h.fan n
    constructor <;> simpa only [k.output, k.fans n]
  grate := by
    obtain ⟨run, running, stopped⟩ := h.grate
    constructor <;> simpa only [k.output, k.grate.1, k.grate.2]
  horn := by rw [k.output, k.horn]; exact h.horn

section
variable {p : Part} (h : p.OutputsAgree)
include h

/-- What an UNSTARTED station is not, a station that agrees with its outputs is only when STARTED. -/
theorem Part.OutputsAgree.awake {P : Prop} (hP : p.Dormant → ¬ P) (x : P) : Awake False p := by
  cases s : p.started
  · exact absurd x (hP (h.unstarted s))
  · exact .inr s

theorem Part.OutputsAgree.fanRuns_started {n : Fin 4} (e : p.fans[n].state = .starting ∨ p.fans[n].state = .running) :
    p.started = true := by
  cases s : p.started
  · have run := (h.fan n).run
    rw [(h.unstarted s).outputs, show OutputImage.off.fanRun[n] = false from replicate_get 4 false n] at run
    rcases e with e | e <;> rw [e] at run <;> cases run
  · rfl

theorem Part.OutputsAgree.grateRuns_started (e : p.grate.state = .running) : p.started = true := by
  cases s : p.started
  · have run := h.grate.run
    rw [(h.unstarted s).outputs, e] at run
    cases run
  · rfl

end

theorem Part.vacuous {p : Part} {P : Prop} (s : p.started = true) (e : p.started = false) : P :=
  absurd (s.symm.trans e) (by decide)

section
variable {p : Part} (h : p.OutputsAgree) (s : p.started = true)
include h s

theorem Part.updPoint_agrees (i : Fin 62) (f : Point → Point) : (p.updPoint i f).OutputsAgree where
  unstarted := Part.vacuous s
  igniter := h.igniter
  feeder f := { h.feeder f with }
  fan n := { h.fan n with }
  grate := { h.grate with }
  horn := h.horn

theorem Part.setHorn_agrees (on : Bool) : (p.setHorn on).OutputsAgree where
  unstarted := Part.vacuous s
  igniter := h.igniter
  feeder f := { h.feeder f with }
  fan n := { h.fan n with }
  grate := { h.grate with }
  horn := rfl

theorem Part.updRes_agrees (k : Fin 3) (f : Resource → Resource) : (p.updRes k f).OutputsAgree where
  unstarted := Part.vacuous s
  igniter := h.igniter
  feeder f := { h.feeder f with }
  fan n := { h.fan n with }
  grate := { h.grate with }
  horn := h.horn

theorem Part.moveBurner_agrees (b : Fin 2) (t : BurnerState) (f : Burner → Burner) (hf : ∀ x, (f x).state = t) :
    ((p.updBurner b f).updOutput fun o => { o with igniter := o.igniter.set b (t == .igniting) }).OutputsAgree where
  unstarted := Part.vacuous s
  igniter c := by
    show (p.field.output.igniter.set b (t == .igniting))[c] = ((p.burners.set b (f p.burners[b]))[c].state == .igniting)
    by_cases e : c = b
    · subst e; simp only [set_self, hf]
    · simpa only [set_other _ _ _ _ e] using h.igniter c
  feeder f := { h.feeder f with }
  fan n := { h.fan n with }
  grate := { h.grate with }
  horn := h.horn

end

/-! ## Feeders -/

theorem Feeder.speedCommand_le (x : Feeder) : x.speedCommand ≤ 1000 := by
  unfold Feeder.speedCommand clampInt
  split <;> [simp; (split <;> omega)]

/-- The outputs of one feeder written, and the others as they were. -/
theorem Part.writeFeeder_output (f : Fin 6) (p : Part) (s : p.started = true) : (p.writeFeeder f).FeederOutput f where
  run := set_self _ _ _
  remote := by
    show _ = (p.started && _)
    rw [s]
    exact set_self _ _ _
  speed := by
    refine (set_self _ _ _).trans_le ?_
    split <;> [exact Feeder.speedCommand_le _; exact Nat.zero_le _]
  stopped e := (set_self _ _ _).trans (if_neg e)

theorem Part.writeFeeder_other (f g : Fin 6) (p : Part) (e : g ≠ f) (h : p.FeederOutput g) :
    (p.writeFeeder f).FeederOutput g where
  run := (set_other _ _ _ _ e).trans h.run
  remote := (set_other _ _ _ _ e).trans h.remote
  speed := (set_other _ _ _ _ e).trans_le h.speed
  stopped n := (set_other _ _ _ _ e).trans (h.stopped n)

/-- A part whose outputs agree but for those of feeder f. -/
structure Part.AgreeBut (f : Fin 6) (p : Part) : Prop where
  started : p.started = true
  igniter : ∀ b : Fin 2, p.field.output.igniter[b] = (p.burners[b].state == .igniting)
  feeder : ∀ g : Fin 6, g ≠ f → p.FeederOutput g
  fan : ∀ n : Fin 4, p.FanOutput n
  grate : p.GrateOutput
  horn : p.field.output.horn = p.alarms.horn

theorem Part.AgreeBut.written {p : Part} {f : Fin 6} (h : p.AgreeBut f) : (p.writeFeeder f).OutputsAgree where
  unstarted := Part.vacuous (p := p) h.started
  igniter := h.igniter
  feeder g := by
    by_cases e : g = f
    · subst e; exact p.writeFeeder_output g h.started
    · exact p.writeFeeder_other f g e (h.feeder g e)
  fan n := { h.fan n with }
  grate := { h.grate with }
  horn := h.horn

theorem Part.writeFeeder_agrees {p : Part} (h : p.OutputsAgree) (s : p.started = true) (f : Fin 6) :
    (p.writeFeeder f).OutputsAgree :=
  Part.AgreeBut.written ⟨s, h.igniter, fun g _ => h.feeder g, h.fan, h.grate, h.horn⟩

theorem Part.feederTo_agrees {p : Part} (h : p.OutputsAgree) (s : p.started = true) (f : Fin 6) (t : FeederState) (sp : Nat) :
    (p.feederTo f t sp).OutputsAgree := by
  refine Part.AgreeBut.written ⟨s, h.igniter, fun g e => ?_, fun n => { h.fan n with }, { h.grate with }, h.horn⟩
  obtain ⟨run, remote, speed, stopped⟩ := h.feeder g
  have state : ∀ x, (p.updFeeder f x).feeders[g] = p.feeders[g] := fun x => set_other _ _ _ _ e
  constructor
  · rw [state]; exact run
  · rw [state]; exact remote
  · exact speed
  · rw [state]; exact stopped

/-- An update of a feeder that leaves its state. -/
theorem Part.updFeeder_agrees {p : Part} (h : p.OutputsAgree) (f : Fin 6) {g : Feeder → Feeder}
    (hg : ∀ x, (g x).state = x.state) : (p.updFeeder f g).OutputsAgree where
  unstarted s := { h.unstarted s with }
  igniter := h.igniter
  feeder i := by
    have state : (p.updFeeder f g).feeders[i].state = p.feeders[i].state := by
      show (p.feeders.set f (g p.feeders[f]))[i].state = _
      by_cases e : i = f
      · subst e; rw [set_self, hg]
      · rw [set_other _ _ _ _ e]
    obtain ⟨run, remote, speed, stopped⟩ := h.feeder i
    constructor
    · rw [state]; exact run
    · rw [state]; exact remote
    · exact speed
    · rw [state]; exact stopped
  fan n := { h.fan n with }
  grate := { h.grate with }
  horn := h.horn

theorem Part.replaceMix_agrees {p : Part} (h : p.OutputsAgree) (b : Fin 2) (m : Vector Nat 6) :
    (p.replaceMix b m).OutputsAgree :=
  replaceMix_keeps (fun f t sp h s => Part.feederTo_agrees h s f t sp) b m
    (forAll_keeps (fun f _ hq => Part.updFeeder_agrees hq f fun _ => rfl) h)

theorem Part.setRamp_agrees {p : Part} (h : p.OutputsAgree) (b : Fin 2) (r : Option MixRamp) :
    (p.setRamp b r).OutputsAgree where
  unstarted s := { h.unstarted s with }
  igniter := h.igniter
  feeder f := { h.feeder f with }
  fan n := { h.fan n with }
  grate := { h.grate with }
  horn := h.horn

/-! ## Fans and grate -/

/-- The outputs of a fan as its new state sets them; a RUNNING fan has those of a STARTING one. -/
theorem OutputImage.fanTo_self (n : Fin 4) (s : FanState) (o : OutputImage) :
    (o.fanTo n s).fanRun[n] = (s == .starting || s == .running) ∧
      (o.fanTo n s).fanSpeed[n] = if s = .starting then 200 else if s = .running then o.fanSpeed[n] else 0 := by
  cases s <;> simp [OutputImage.fanTo, -Fin.getElem_fin, set_self]

theorem OutputImage.fanTo_other {n m : Fin 4} (e : m ≠ n) (s : FanState) (o : OutputImage) :
    (o.fanTo n s).fanRun[m] = o.fanRun[m] ∧ (o.fanTo n s).fanSpeed[m] = o.fanSpeed[m] := by
  cases s <;> simp [OutputImage.fanTo, -Fin.getElem_fin, set_other _ _ _ _ e]

theorem OutputImage.fanTo_rest (n : Fin 4) (s : FanState) (o : OutputImage) :
    o.fanTo n s = { o with fanRun := (o.fanTo n s).fanRun, fanSpeed := (o.fanTo n s).fanSpeed } := by
  cases s <;> rfl

theorem Part.moveFan_agrees {p : Part} (h : p.OutputsAgree) (st : p.started = true) (n : Fin 4) (s : FanState) (f : Fan → Fan)
    (r : s = .running → p.fans[n].state = .starting) (hf : ∀ x, (f x).state = s) :
    ((p.updFan n f).updOutput (OutputImage.fanTo n s)).OutputsAgree := by
  have image : ((p.updFan n f).updOutput (OutputImage.fanTo n s)).field.output = p.field.output.fanTo n s := rfl
  have rest := OutputImage.fanTo_rest n s p.field.output
  refine ⟨Part.vacuous (p := p) st, ?_, ?_, ?_, ?_, ?_⟩
  · rw [image, rest]; exact h.igniter
  · intro i
    obtain ⟨run, remote, speed, stopped⟩ := h.feeder i
    constructor <;> rw [image, rest] <;> assumption
  · intro m
    by_cases e : m = n
    · subst e
      have state : ((p.updFan m f).updOutput (OutputImage.fanTo m s)).fans[m].state = s :=
        (congrArg Fan.state (set_self ..)).trans (hf _)
      obtain ⟨run, speed⟩ := OutputImage.fanTo_self m s p.field.output
      constructor
      · rw [image, state]; exact run
      · rw [image, state]; intro e; rw [speed, if_pos e]
      · rw [image, state]; intro e
        rw [speed, if_neg (by rw [e]; decide), if_pos e, (h.fan m).starting (r e)]
        exact ⟨by decide, by decide⟩
      · rw [image, state]; intro e e'; rw [speed, if_neg e, if_neg e']
    · have state : ((p.updFan n f).updOutput (OutputImage.fanTo n s)).fans[m] = p.fans[m] := set_other _ _ _ _ e
      obtain ⟨run, speed⟩ := OutputImage.fanTo_other e s p.field.output
      obtain ⟨run', starting, running, stopped⟩ := h.fan m
      constructor <;> rw [image, state] <;> simpa only [run, speed]
  · obtain ⟨run, running, stopped⟩ := h.grate
    constructor <;> rw [image, rest] <;> assumption
  · rw [image, rest]; exact h.horn

theorem Part.grateTo_agrees {p : Part} (h : p.OutputsAgree) (st : p.started = true) (s : GrateState) :
    (p.grateTo s).OutputsAgree := by
  refine Part.OutputsAgree.of_alike ?_ (Part.offer_kin _ _ _ _ _ _ _).toAlike
  by_cases e : s = .running
  · simp only [Part.updOutput, if_pos e]
    exact ⟨Part.vacuous (p := p) st, h.igniter, fun f => { h.feeder f with }, fun n => { h.fan n with },
      ⟨by rw [e]; rfl, fun _ le => ⟨le_rfl, le⟩, fun n => absurd e n⟩, h.horn⟩
  · simp only [Part.updOutput, if_neg e]
    refine ⟨Part.vacuous (p := p) st, h.igniter, fun f => { h.feeder f with }, fun n => { h.fan n with },
      ⟨?_, fun r => absurd r e, fun _ => rfl⟩, h.horn⟩
    show false = (s == .running)
    simpa using e

theorem clampInt_mem (x : Int) {lo hi : Int} (h : lo ≤ hi) : lo ≤ clampInt x lo hi ∧ clampInt x lo hi ≤ hi := by
  unfold clampInt
  split <;> [omega; (split <;> omega)]

theorem FanCfg.speed_mem (sp q speed : Nat) (c : FanCfg) : 100 ≤ c.speed sp q speed ∧ c.speed sp q speed ≤ 1000 := by
  have := clampInt_mem (speed + clampInt (Int.tdiv (((sp : Int) - q) * c.gain) 1000) (-20) 20)
    (show (100 : Int) ≤ 1000 by decide)
  unfold FanCfg.speed
  omega

theorem GrateCfg.speed_mem (psp q speed : Nat) (c : GrateCfg) (h : c.minSpeed ≤ c.maxSpeed) :
    c.minSpeed ≤ c.speed psp q speed ∧ c.speed psp q speed ≤ c.maxSpeed := by
  have := clampInt_mem (speed + clampInt (Int.tdiv (((q : Int) - psp) * c.gain) 1000) (-10) 10)
    (show (c.minSpeed : Int) ≤ c.maxSpeed by omega)
  unfold GrateCfg.speed
  omega

theorem Part.controlFan_agrees {p : Part} (h : p.OutputsAgree) (st : p.started = true) (n : Fin 4) :
    (p.controlFan n).OutputsAgree := by
  refine ite_keeps (fun run => ?_) fun _ => h
  generalize p.fans[n].cfg.setpoint _ = sp
  have set : (p.updFan n fun x => { x with sp := sp }).OutputsAgree := h.of_alike (p.updFan_kin n _ rfl).toAlike
  refine ite_keeps (fun _ => ?_) fun _ => set
  refine ⟨Part.vacuous (p := p) st, set.igniter, fun f => { set.feeder f with }, fun m => ?_, { set.grate with }, set.horn⟩
  by_cases e : m = n
  · subst e
    have speed := FanCfg.speed_mem sp p.field.image.flow[m].value p.field.output.fanSpeed[m] p.fans[m].cfg
    have state : (p.updFan m fun x => { x with sp := sp }).fans[m].state = .running :=
      (congrArg Fan.state (set_self ..)).trans run
    refine ⟨(set.fan m).run, fun s => ?_, fun _ => ?_, fun _ s => absurd state s⟩
    · exact absurd (state.symm.trans s) (by decide)
    · exact ⟨speed.1.trans_eq (set_self ..).symm, (set_self ..).trans_le speed.2⟩
  · obtain ⟨run', starting, running, stopped⟩ := set.fan m
    refine ⟨run', fun s => (set_other _ _ _ _ e).trans (starting s), fun s => ?_, fun a b => (set_other _ _ _ _ e).trans (stopped a b)⟩
    exact ⟨(running s).1.trans_eq (set_other _ _ _ _ e).symm, (set_other _ _ _ _ e).trans_le (running s).2⟩

theorem Part.controlGrate_agrees {p : Part} (h : p.OutputsAgree) (st : p.started = true) : p.controlGrate.OutputsAgree := by
  refine ite_keeps (fun g => ?_) fun _ => h
  exact ⟨Part.vacuous (p := p) st, h.igniter, fun f => { h.feeder f with }, fun n => { h.fan n with },
    ⟨h.grate.run, fun _ le => GrateCfg.speed_mem _ _ _ _ le, fun n => absurd g.1 n⟩, h.horn⟩

/-- Every single change keeps the outputs in agreement. -/
theorem agree_changes : Changes Part.OutputsAgree False where
  kin k h := h.of_alike k.toAlike
  effAwake {_ i} h e := h.awake (fun d => by rw [(d.points i).2]; decide) e
  pointAwake {_ i} h e := h.awake (fun d n => n (d.points i).1) e
  burnerAwake {_ b} h e := h.awake (fun d n => n (d.burners b)) e
  claimAwake {_ k} h e := h.awake (fun d n => n.elim (· (d.claims k).1) (· (d.claims k).2)) e
  fanAwake h e := .inr (h.fanRuns_started e)
  point i f h a := Part.updPoint_agrees h (a.resolve_left id) i f
  horn on h a := Part.setHorn_agrees h (a.resolve_left id) on
  claim k f h a := Part.updRes_agrees h (a.resolve_left id) k f
  burner b s f h a hf := Part.moveBurner_agrees h (a.resolve_left id) b s f fun x => (hf x).1
  writeFeeder f h s := Part.writeFeeder_agrees h s f
  feederTo f s sp h st := Part.feederTo_agrees h st f s sp
  fan n s f h a r hf := Part.moveFan_agrees h (a.elim (·.resolve_left id) h.fanRuns_started) n s f r hf
  grateTo s h a := Part.grateTo_agrees h (a.elim id h.grateRuns_started) s
  controlFan n h s := Part.controlFan_agrees h s n
  controlGrate h s := Part.controlGrate_agrees h s
  startRamp b h := Part.setRamp_agrees h b _
  dropRamp b h := Part.setRamp_agrees h b _
  ramped b r h _ := Part.setRamp_agrees (Part.replaceMix_agrees h b r.target) b _
  stepped b r h _ _ := Part.setRamp_agrees (Part.replaceMix_agrees h b _) b _
  arrived b r h _ _ := Part.setRamp_agrees (Part.replaceMix_agrees h b _) b _
  turned b m r h _ _ _ _ := Part.setRamp_agrees h b _
  mixed b m h _ _ := Part.replaceMix_agrees h b m
  newRamp b m h _ _ _ := Part.setRamp_agrees h b _

/-! ## Settings, start and resets -/

/-- An UNSTARTED station whose outputs are off agrees with them when nothing runs. -/
theorem Part.agree_of_dormant {p : Part} (d : p.Dormant) (feeders : ∀ f : Fin 6, p.feeders[f].state ≠ .running)
    (fans : ∀ n : Fin 4, p.fans[n].state ≠ .starting ∧ p.fans[n].state ≠ .running) (grate : p.grate.state ≠ .running)
    (started : p.started = false) (horn : p.alarms.horn = false) : p.OutputsAgree where
  unstarted _ := d
  igniter b := by rw [d.outputs, d.burners b]; exact replicate_get ..
  feeder f := by
    constructor
    · rw [d.outputs, beq_eq_false_iff_ne.2 (feeders f)]; exact replicate_get ..
    · rw [d.outputs, started]; exact replicate_get ..
    · rw [d.outputs]; exact (replicate_get 6 0 f).trans_le (Nat.zero_le _)
    · rw [d.outputs]; exact fun _ => replicate_get ..
  fan n := by
    constructor
    · rw [d.outputs, beq_eq_false_iff_ne.2 (fans n).1, beq_eq_false_iff_ne.2 (fans n).2]; exact replicate_get ..
    · exact fun e => absurd e (fans n).1
    · exact fun e => absurd e (fans n).2
    · rw [d.outputs]; exact fun _ _ => replicate_get ..
  grate := by
    constructor
    · rw [d.outputs, beq_eq_false_iff_ne.2 grate]; rfl
    · exact fun e => absurd e grate
    · rw [d.outputs]; exact fun _ => rfl
  horn := by rw [d.outputs, horn]; rfl

section
variable {p : Part} (h : p.OutputsAgree) (s : p.started = false)
include h s

theorem Part.OutputsAgree.feeder_still (f : Fin 6) : p.feeders[f].state ≠ .running := by
  intro e
  have run := (h.feeder f).run
  rw [(h.unstarted s).outputs, e] at run
  exact absurd ((replicate_get 6 false f).symm.trans run) (by decide)

theorem Part.OutputsAgree.fan_still (n : Fin 4) : p.fans[n].state ≠ .starting ∧ p.fans[n].state ≠ .running :=
  ⟨fun e => absurd (s.symm.trans (h.fanRuns_started (.inl e))) (by decide),
    fun e => absurd (s.symm.trans (h.fanRuns_started (.inr e))) (by decide)⟩

theorem Part.OutputsAgree.grate_still : p.grate.state ≠ .running := fun e =>
  absurd (s.symm.trans (h.grateRuns_started e)) (by decide)

theorem Part.OutputsAgree.horn_off : p.alarms.horn = false := by rw [← h.horn, (h.unstarted s).outputs]; rfl

end

theorem Feeder.initial_still (x : Feeder) : x.initial.state ≠ .running := by
  unfold Feeder.initial
  dsimp only
  split <;> nofun

theorem Fan.initial_still (x : Fan) : x.initial.state ≠ .starting ∧ x.initial.state ≠ .running := by
  unfold Fan.initial Fan.cleared
  dsimp only
  split <;> exact ⟨nofun, nofun⟩

theorem Grate.initial_still (g : Grate) : g.initial.state ≠ .running := by
  unfold Grate.initial
  dsimp only
  split <;> nofun

/-- A station left UNSTARTED is dormant, whatever it was. -/
theorem Part.shutDown_dormant (p : Part) : p.shutDown.Dormant where
  claims k := by rw [Part.shutDown_claims]; exact ⟨rfl, rfl⟩
  burners b := by rw [Part.shutDown_burners]; rfl
  points i := by rw [Part.shutDown_points]; exact ⟨rfl, rfl⟩
  outputs := Part.shutDown_output p

theorem Part.shutDown_agrees (p : Part) : p.shutDown.OutputsAgree := by
  refine Part.agree_of_dormant p.shutDown_dormant (fun f => ?_) (fun n => ?_) ?_ p.shutDown_started p.shutDown_horn
  · rw [Part.shutDown_feeders]; exact Feeder.initial_still _
  · rw [Part.shutDown_fans]; exact Fan.initial_still _
  · rw [Part.shutDown_grate]; exact Grate.initial_still _

/-- The outputs of the feeders written one after another, until those of all agree. -/
theorem forAll_writeFeeder_agrees (l : List (Fin 6)) {p : Part} (feeders : ∀ f : Fin 6, f ∉ l → p.FeederOutput f)
    (s : p.started = true) (igniter : ∀ b : Fin 2, p.field.output.igniter[b] = (p.burners[b].state == .igniting))
    (fan : ∀ n : Fin 4, p.FanOutput n) (grate : p.GrateOutput) (horn : p.field.output.horn = p.alarms.horn) :
    (p.forAll l Part.writeFeeder).OutputsAgree := by
  induction l generalizing p with
  | nil => exact ⟨Part.vacuous s, igniter, fun f => feeders f (by simp), fan, grate, horn⟩
  | cons f l ih =>
    refine ih (p := p.writeFeeder f) (fun g hg => ?_) s igniter (fun k => { fan k with }) { grate with } horn
    by_cases e : g = f
    · subst e; exact p.writeFeeder_output g s
    · exact p.writeFeeder_other f g e (feeders g (by simp [e, hg]))

/-- Once STARTED with outputs off and nothing running, the outputs of the feeders are written. -/
theorem Part.cleaned_agrees {q : Part} (started : q.started = true) (output : q.field.output = .off)
    (horn : q.alarms.horn = false) : q.cleaned.OutputsAgree := by
  unfold Part.cleaned
  generalize e : (q.updLine fun l => { l with statusDue := some (later q.now q.cfg.period) }) = r
  have off : r.field.output = .off := by rw [← e]; exact output
  have silent : r.alarms.horn = false := by rw [← e]; exact horn
  refine forAll_writeFeeder_agrees feederIds (fun g hg => absurd (List.mem_finRange g) hg) (by rw [← e]; exact started)
    (fun b => ?_) (fun n => ?_) ?_ ?_
  · rw [Part.blocksInitial_field, off, Part.blocksInitial_burners]; exact replicate_get ..
  · have still := Fan.initial_still (r.fans[n])
    constructor
    · rw [Part.blocksInitial_field, off, Part.blocksInitial_fans, beq_eq_false_iff_ne.2 still.1,
        beq_eq_false_iff_ne.2 still.2]
      exact replicate_get ..
    · rw [Part.blocksInitial_fans]; exact fun x => absurd x still.1
    · rw [Part.blocksInitial_fans]; exact fun x => absurd x still.2
    · rw [Part.blocksInitial_field, off]; exact fun _ _ => replicate_get ..
  · have still := Grate.initial_still r.grate
    constructor
    · rw [Part.blocksInitial_field, off, Part.blocksInitial_grate, beq_eq_false_iff_ne.2 still]; rfl
    · exact fun x => absurd x still
    · rw [Part.blocksInitial_field, off]; exact fun _ => rfl
  · rw [Part.blocksInitial_field, off, Part.blocksInitial_alarms, silent]; rfl

/-- The settings of an UNSTARTED station set nothing going. -/
theorem agree_settings : Settings Part.OutputsAgree where
  powerUp := Part.powerUp_outputsAgree
  station c h s _ := Part.agree_of_dormant { h.unstarted s with } (h.feeder_still s) (h.fan_still s) (h.grate_still s) s (h.horn_off s)
  burner {p} b c h s := by
    have d := h.unstarted s
    refine Part.agree_of_dormant { d with burners := fun x => ?_ } (h.feeder_still s) (h.fan_still s) (h.grate_still s) s (h.horn_off s)
    by_cases e : x = b
    · subst e; exact (congrArg Burner.state (set_self ..)).trans (d.burners x)
    · exact (congrArg Burner.state (set_other _ _ _ _ e)).trans (d.burners x)
  feeder {p} f c h s := by
    refine Part.agree_of_dormant { h.unstarted s with } (fun g => ?_) (h.fan_still s) (h.grate_still s) s (h.horn_off s)
    show (p.feeders.set f (p.feeders[f].configure c))[g].state ≠ _
    by_cases e : g = f
    · subst e; rw [set_self]; unfold Feeder.configure; dsimp only; split <;> nofun
    · rw [set_other _ _ _ _ e]; exact h.feeder_still s g
  fan {p} n c h s := by
    refine Part.agree_of_dormant { h.unstarted s with } (h.feeder_still s) (fun m => ?_) (h.grate_still s) s (h.horn_off s)
    show (p.fans.set n (p.fans[n].configure c))[m].state ≠ _ ∧ (p.fans.set n (p.fans[n].configure c))[m].state ≠ _
    by_cases e : m = n
    · subst e; rw [set_self]; unfold Fan.configure; dsimp only; split <;> exact ⟨nofun, nofun⟩
    · rw [set_other _ _ _ _ e]; exact h.fan_still s m
  grate {p} c h s := by
    refine Part.agree_of_dormant { h.unstarted s with } (h.feeder_still s) (h.fan_still s) ?_ s (h.horn_off s)
    show (p.grate.configure c).state ≠ _
    unfold Grate.configure; dsimp only; split <;> nofun
  ext n x h s := Part.agree_of_dormant { h.unstarted s with } (h.feeder_still s) (h.fan_still s) (h.grate_still s) s (h.horn_off s)
  start h s _ k := Part.cleaned_agrees k.started (k.output.trans (h.unstarted s).outputs) (k.horn.trans (h.horn_off s))
  restart {p} _ := by rw [Part.restart_eq]; exact Part.shutDown_agrees _

/-- Settles O59: the outputs and the states that set them change together, in every operation and every row. -/
theorem stepsKeepOutputsInAgreement : Obligations.StepsKeepOutputsInAgreement := fun _ _ h e =>
  agree_settings.step agree_changes.walk h e

end Sys2Proof.Machine
end

section
/-! OBLIGATION O60. The mix of a burner whole, through mix ramps too. -/

namespace Sys2Proof.Machine

-- One proof at a time: the whole package as one text must not start a thread for each of them.
set_option Elab.async false

open Sys2Proof.Config

/-! ## Fractions by their cumulative mixes -/

/-- Differences of a quantity that grows along a list add up to its value at the end. -/
theorem sumOver_telescope {α : Type*} [LinearOrder α] (A : List α → Nat) (nil : A [] = 0)
    (mono : ∀ l y, A l ≤ A (l ++ [y])) {l : List α} (hl : l.Pairwise (· < ·)) :
    sumOver l (fun x => A (l.filter (· ≤ x)) - A (l.filter (· < x))) = A l := by
  induction l using List.reverseRecOn with
  | nil => simp [sumOver, nil]
  | append_singleton l y ih =>
    obtain ⟨hl, -, before⟩ := List.pairwise_append.mp hl
    have below : ∀ x ∈ l, x < y := fun x hx => before x hx y (List.mem_singleton_self y)
    have atOld : ∀ x ∈ l, A ((l ++ [y]).filter (· ≤ x)) - A ((l ++ [y]).filter (· < x)) =
        A (l.filter (· ≤ x)) - A (l.filter (· < x)) := fun x hx => by
      simp [List.filter_append, below x hx, (below x hx).le]
    have last : (l ++ [y]).filter (· < y) = l ∧ (l ++ [y]).filter (· ≤ y) = l ++ [y] :=
      ⟨by simpa [List.filter_append] using below, by simpa [List.filter_append] using fun x hx => (below x hx).le⟩
    rw [sumOver_append_singleton, sumOver_congr atOld, ih hl, last.1, last.2]
    exact Nat.add_sub_of_le (mono l y)

/-- The cumulative mix over a list of feeders. -/
def MixRamp.cumulativeOver (r : MixRamp) (l : List (Fin 6)) : Nat :=
  cumulative (sumOver l fun g => r.old[g]) (sumOver l fun g => r.target[g]) r.time r.elapsed

theorem MixRamp.cumulativeOver_nil (r : MixRamp) : r.cumulativeOver [] = 0 := by
  simp [cumulativeOver, cumulative, sumOver]

theorem MixRamp.cumulativeOver_mono (r : MixRamp) (l : List (Fin 6)) (y : Fin 6) :
    r.cumulativeOver l ≤ r.cumulativeOver (l ++ [y]) := by
  unfold cumulativeOver cumulative
  rw [sumOver_append_singleton, sumOver_append_singleton]
  exact Nat.div_le_div_right (Nat.add_le_add (Nat.mul_le_mul_right _ (Nat.le_add_right _ _))
    (Nat.mul_le_mul_right _ (Nat.le_add_right _ _)))

theorem Part.feedersOf_sorted (p : Part) (b : Fin 2) : (p.feedersOf b).Pairwise (· < ·) :=
  (List.pairwise_lt_finRange 6).filter _

theorem Part.steppedMix_get (b : Fin 2) (r : MixRamp) (p : Part) (f : Fin 6) (hf : f ∈ p.feedersOf b) :
    (p.steppedMix b r)[f] = r.cumulativeOver ((p.feedersOf b).filter (· ≤ f)) - r.cumulativeOver ((p.feedersOf b).filter (· < f)) := by
  simp [Part.steppedMix, hf, MixRamp.cumulativeOver]

/-- The fractions of a step up to feeder x add up to its cumulative mix (R116). -/
theorem Part.steppedMix_upTo (b : Fin 2) (r : MixRamp) (p : Part) (x : Fin 6) :
    sumOver ((p.feedersOf b).filter (· ≤ x)) (fun f => (p.steppedMix b r)[f]) =
      r.cumulativeOver ((p.feedersOf b).filter (· ≤ x)) := by
  rw [← sumOver_telescope r.cumulativeOver r.cumulativeOver_nil r.cumulativeOver_mono ((p.feedersOf_sorted b).filter _)]
  refine sumOver_congr fun f hf => ?_
  obtain ⟨mem, le⟩ := List.mem_filter.1 hf
  have le : f ≤ x := of_decide_eq_true le
  have upTo : ((p.feedersOf b).filter (· ≤ x)).filter (· ≤ f) = (p.feedersOf b).filter (· ≤ f) := by
    rw [List.filter_filter]
    exact List.filter_congr fun g _ => by
      by_cases h : g ≤ f
      · simp [h, h.trans le]
      · simp [h]
  have below : ((p.feedersOf b).filter (· ≤ x)).filter (· < f) = (p.feedersOf b).filter (· < f) := by
    rw [List.filter_filter]
    exact List.filter_congr fun g _ => by
      by_cases h : g < f
      · simp [h, h.le.trans le]
      · simp [h]
  rw [p.steppedMix_get b r f mem, upTo, below]

/-- The fractions of a step add up to the cumulative mix of the last feeder. -/
theorem Part.steppedMix_sum (b : Fin 2) (r : MixRamp) (p : Part) :
    sumOver (p.feedersOf b) (fun f => (p.steppedMix b r)[f]) = r.cumulativeOver (p.feedersOf b) := by
  rw [← sumOver_telescope r.cumulativeOver r.cumulativeOver_nil r.cumulativeOver_mono (p.feedersOf_sorted b)]
  exact sumOver_congr fun f hf => p.steppedMix_get b r f hf

/-- Between two whole mixes every step is whole. -/
theorem MixRamp.cumulativeOver_whole {r : MixRamp} {l : List (Fin 6)} (old : sumOver l (fun f => r.old[f]) = 1000)
    (target : sumOver l (fun f => r.target[f]) = 1000) (time : 0 < r.time) (elapsed : r.elapsed ≤ r.time) :
    r.cumulativeOver l = 1000 := by
  unfold cumulativeOver cumulative
  rw [old, target, ← Nat.mul_add, Nat.sub_add_cancel elapsed, Nat.mul_div_cancel _ time]

/-! ## Mixes replaced -/

/-- Feeders with the same use, burner and fraction. -/
structure SameMix (p q : Part) : Prop where
  used : ∀ f : Fin 6, q.feeders[f].cfg.used = p.feeders[f].cfg.used ∧ q.feeders[f].cfg.burner = p.feeders[f].cfg.burner
  mix : ∀ f : Fin 6, q.feeders[f].mix = p.feeders[f].mix

theorem Part.feedersOf_congr {p q : Part} (h : ∀ f : Fin 6, q.feeders[f].cfg.used = p.feeders[f].cfg.used ∧
    q.feeders[f].cfg.burner = p.feeders[f].cfg.burner) (b : Fin 2) : q.feedersOf b = p.feedersOf b :=
  List.filter_congr fun f _ => by rw [(h f).1, (h f).2]

theorem SameMix.sum {p q : Part} (h : SameMix p q) (b : Fin 2) :
    sumOver (q.feedersOf b) (fun f => q.feeders[f].mix) = sumOver (p.feedersOf b) (fun f => p.feeders[f].mix) := by
  rw [Part.feedersOf_congr h.used]
  exact sumOver_congr fun f _ => h.mix f

theorem SameMix.refl (p : Part) : SameMix p p := ⟨fun _ => ⟨rfl, rfl⟩, fun _ => rfl⟩

theorem SameMix.trans {p q r : Part} (h : SameMix p q) (g : SameMix q r) : SameMix p r :=
  ⟨fun f => ⟨(g.used f).1.trans (h.used f).1, (g.used f).2.trans (h.used f).2⟩, fun f => (g.mix f).trans (h.mix f)⟩

/-- An update of a feeder that leaves its use, burner and fraction. -/
theorem Part.updFeeder_sameMix (f : Fin 6) (g : Feeder → Feeder) (p : Part)
    (hg : ∀ x, (g x).cfg.used = x.cfg.used ∧ (g x).cfg.burner = x.cfg.burner ∧ (g x).mix = x.mix) :
    SameMix p (p.updFeeder f g) := by
  have each (i : Fin 6) : ((p.updFeeder f g).feeders[i].cfg.used = p.feeders[i].cfg.used ∧
      (p.updFeeder f g).feeders[i].cfg.burner = p.feeders[i].cfg.burner) ∧
      (p.updFeeder f g).feeders[i].mix = p.feeders[i].mix := by
    obtain ⟨used, burner, mix⟩ := hg p.feeders[f]
    show ((p.feeders.set f (g p.feeders[f]))[i].cfg.used = _ ∧ (p.feeders.set f (g p.feeders[f]))[i].cfg.burner = _) ∧
      (p.feeders.set f (g p.feeders[f]))[i].mix = _
    by_cases e : i = f
    · subst e; rw [set_self]; exact ⟨⟨used, burner⟩, mix⟩
    · rw [set_other _ _ _ _ e]; exact ⟨⟨rfl, rfl⟩, rfl⟩
  exact ⟨fun i => (each i).1, fun i => (each i).2⟩

theorem Part.feederTo_sameMix (f : Fin 6) (s : FeederState) (sp : Nat) (p : Part) : SameMix p (p.feederTo f s sp) :=
  p.updFeeder_sameMix f (fun x => { x with state := s, setpoint := sp, rampRem := 0, trim := 0, devTimer := none, noFlow := none })
    (fun _ => ⟨rfl, rfl, rfl⟩) |>.trans ⟨fun _ => ⟨rfl, rfl⟩, fun _ => rfl⟩

theorem Part.settleFeedersOf_sameMix (b : Fin 2) (p : Part) : SameMix p (p.settleFeedersOf b) :=
  forAll_keeps (I := SameMix p) (fun f _ hq => settleFeeder_keeps
    (fun f s sp h _ => h.trans (Part.feederTo_sameMix f s sp _)) f hq) (.refl p)

/-- The fractions given, of the feeders named. -/
theorem Part.forAll_mix (m : Vector Nat 6) (l : List (Fin 6)) (p : Part) (f : Fin 6) :
    ((p.forAll l fun f => Part.updFeeder f fun x => { x with mix := m[f] }).feeders[f].cfg = p.feeders[f].cfg) ∧
    (p.forAll l fun f => Part.updFeeder f fun x => { x with mix := m[f] }).feeders[f].mix =
      if f ∈ l then m[f] else p.feeders[f].mix := by
  induction l generalizing p with
  | nil => exact ⟨rfl, by simp [Part.forAll]⟩
  | cons g l ih =>
    obtain ⟨cfg, mix⟩ := ih (p.updFeeder g fun x => { x with mix := m[g] })
    have here : (p.updFeeder g fun x => { x with mix := m[g] }).feeders[f] =
        if f = g then { p.feeders[f] with mix := m[f] } else p.feeders[f] := by
      split
      · next e => subst e; exact set_self ..
      · next e => exact set_other _ _ _ _ e
    constructor
    · refine cfg.trans ?_
      rw [here]; split <;> rfl
    · refine mix.trans ?_
      rw [here]
      by_cases e : f = g <;> by_cases hl : f ∈ l <;> simp [e, hl]

/-- A mix replaced: the fractions of the burner's feeders, and nothing else that a mix rests on. -/
theorem Part.replaceMix_mix (b : Fin 2) (m : Vector Nat 6) (p : Part) (f : Fin 6) :
    (p.replaceMix b m).feeders[f].mix = if f ∈ p.feedersOf b then m[f] else p.feeders[f].mix :=
  ((Part.settleFeedersOf_sameMix b _).mix f).trans (Part.forAll_mix m _ p f).2

theorem Part.replaceMix_feedersOf (b c : Fin 2) (m : Vector Nat 6) (p : Part) : (p.replaceMix b m).feedersOf c = p.feedersOf c :=
  Part.feedersOf_congr (fun f => by
    have cfg := (Part.forAll_mix m (p.feedersOf b) p f).1
    obtain ⟨used, burner⟩ := (Part.settleFeedersOf_sameMix b
      (p.forAll (p.feedersOf b) fun f => Part.updFeeder f fun x => { x with mix := m[f] })).used f
    exact ⟨used.trans (congrArg FeederCfg.used cfg), burner.trans (congrArg FeederCfg.burner cfg)⟩) c

/-- The mix of a burner replaced by a whole one. -/
theorem Part.replaceMix_sum_self (b : Fin 2) (m : Vector Nat 6) (p : Part) :
    sumOver ((p.replaceMix b m).feedersOf b) (fun f => (p.replaceMix b m).feeders[f].mix) = sumOver (p.feedersOf b) fun f => m[f] := by
  rw [Part.replaceMix_feedersOf]
  exact sumOver_congr fun f hf => by rw [Part.replaceMix_mix, if_pos hf]

theorem Part.replaceMix_sum_other {b c : Fin 2} (ne : c ≠ b) (m : Vector Nat 6) (p : Part) :
    sumOver ((p.replaceMix b m).feedersOf c) (fun f => (p.replaceMix b m).feeders[f].mix) =
      sumOver (p.feedersOf c) fun f => p.feeders[f].mix := by
  rw [Part.replaceMix_feedersOf]
  refine sumOver_congr fun f hf => ?_
  rw [Part.replaceMix_mix, if_neg fun own => ne ?_]
  rw [← (Part.mem_feedersOf.1 hf).2, (Part.mem_feedersOf.1 own).2]

theorem Part.presentMix_sum (b : Fin 2) (p : Part) :
    sumOver (p.feedersOf b) (fun f => (p.presentMix b)[f]) = sumOver (p.feedersOf b) fun f => p.feeders[f].mix := by
  refine sumOver_congr fun f hf => ?_
  simp [Part.presentMix, hf]

theorem Part.mixGood_sum {b : Fin 2} {m : Vector Nat 6} {p : Part} (h : p.mixGood b m = true) :
    sumOver (p.feedersOf b) (fun f => m[f]) = 1000 := by
  simp only [Part.mixGood, Bool.and_eq_true, beq_iff_eq] at h
  exact h.2

/-! ## Every step -/

theorem Part.MixWhole.of_same {p q : Part} (h : p.MixWhole) (time : q.cfg.mixTime = p.cfg.mixTime) (started : q.started = p.started)
    (used : ∀ b : Fin 2, q.burners[b].cfg.used = p.burners[b].cfg.used) (mix : SameMix p q) (ramps : q.ramps = p.ramps) :
    q.MixWhole where
  time := time ▸ h.time
  mix s b u := by rw [mix.sum]; exact h.mix (started ▸ s) b (used b ▸ u)
  ramp b r e := by rw [Part.feedersOf_congr mix.used, started, used]; exact h.ramp b r (ramps ▸ e)

/-- A mix-ramp record set, or removed. -/
theorem Part.setRamp_whole {p : Part} (h : p.MixWhole) (b : Fin 2) (r : Option MixRamp)
    (hr : ∀ x, r = some x → p.started = true ∧ p.burners[b].cfg.used = true ∧
      sumOver (p.feedersOf b) (fun f => x.old[f]) = 1000 ∧ sumOver (p.feedersOf b) (fun f => x.target[f]) = 1000 ∧
      x.elapsed < x.time) : (p.setRamp b r).MixWhole where
  time := h.time
  mix := h.mix
  ramp c x e := by
    have e : (p.ramps.set b r)[c] = some x := e
    by_cases same : c = b
    · subst same; rw [set_self] at e; exact hr x e
    · rw [set_other _ _ _ _ same] at e; exact h.ramp c x e

theorem Part.replaceMix_cfg (b : Fin 2) (m : Vector Nat 6) (p : Part) : (p.replaceMix b m).cfg.mixTime = p.cfg.mixTime ∧
    (p.replaceMix b m).started = p.started ∧ (p.replaceMix b m).ramps = p.ramps ∧
    ∀ c : Fin 2, (p.replaceMix b m).burners[c] = p.burners[c] := by
  have f := p.replaceMix_frame b m
  have ramp : ∀ c : Fin 2, (p.replaceMix b m).ramps[c] = p.ramps[c] := fun c => f.same (.ramp c) (by simp [mixBlocks])
  exact ⟨congrArg StationCfg.mixTime (f.same .cfg (by simp [mixBlocks])), f.same .started (by simp [mixBlocks]),
    Vector.ext fun i hi => ramp ⟨i, hi⟩, fun c => f.same (.burner c) (by simp [mixBlocks])⟩

/-- A whole mix in place of another. -/
theorem Part.replaceMix_whole {p : Part} (h : p.MixWhole) (b : Fin 2) (m : Vector Nat 6)
    (sum : sumOver (p.feedersOf b) (fun f => m[f]) = 1000) : (p.replaceMix b m).MixWhole := by
  obtain ⟨time, started, ramps, burners⟩ := p.replaceMix_cfg b m
  refine ⟨time ▸ h.time, fun s c u => ?_, fun c r e => ?_⟩
  · rw [burners] at u
    by_cases same : c = b
    · subst same; rw [p.replaceMix_sum_self]; exact sum
    · rw [Part.replaceMix_sum_other same]; exact h.mix (started ▸ s) c u
  · rw [p.replaceMix_feedersOf, started, burners]; exact h.ramp c r (ramps ▸ e)

/-- A mix ramp one step on is whole. -/
theorem Part.steppedMix_whole {p : Part} (h : p.MixWhole) {b : Fin 2} {r : MixRamp} (e : p.ramps[b] = some r) :
    sumOver (p.feedersOf b) (fun f => (p.steppedMix b r.stepped)[f]) = 1000 := by
  obtain ⟨-, -, old, target, elapsed⟩ := h.ramp b r e
  rw [p.steppedMix_sum]
  exact MixRamp.cumulativeOver_whole old target (Nat.zero_lt_of_lt elapsed) elapsed

theorem Part.MixWhole.of_kin {p q : Part} (h : p.MixWhole) (k : Kin p q) : q.MixWhole :=
  h.of_same k.mixTime k.started (fun b => congrArg BurnerCfg.used (k.burners b).2)
    ⟨fun f => (k.feeders f).2.2, fun f => (k.feeders f).2.1⟩ k.ramps

theorem whole_changes : Changes Part.MixWhole True where
  kin k h := h.of_kin k
  effAwake _ _ := .inl trivial
  pointAwake _ _ := .inl trivial
  burnerAwake _ _ := .inl trivial
  claimAwake _ _ := .inl trivial
  fanAwake _ _ := .inl trivial
  point _ _ h _ := { h with }
  horn _ h _ := { h with }
  claim _ _ h _ := { h with }
  burner {p} b s f h _ hf := h.of_same rfl rfl (fun c => by
    show (p.burners.set b (f p.burners[b]))[c].cfg.used = _
    by_cases e : c = b
    · subst e; rw [set_self, (hf _).2]
    · rw [set_other _ _ _ _ e]) ⟨fun _ => ⟨rfl, rfl⟩, fun _ => rfl⟩ rfl
  writeFeeder _ h _ := { h with }
  feederTo f s sp h _ := h.of_same rfl rfl (fun _ => rfl) (Part.feederTo_sameMix f s sp _) rfl
  fan _ _ _ h _ _ _ := { h with }
  grateTo s h _ := by
    unfold Part.grateTo
    dsimp only
    refine Part.MixWhole.of_kin ?_ (Part.offer_kin _ _ _ _ _ _ _)
    exact { h with }
  controlFan n h _ := ite_keeps (fun _ => ite_keeps (fun _ => { h with }) fun _ => { h with }) fun _ => h
  controlGrate h _ := ite_keeps (fun _ => { h with }) fun _ => h
  startRamp {p} b h := Part.setRamp_whole h b _ fun x e => by
    obtain ⟨r, own, rfl⟩ := Option.map_eq_some_iff.1 e
    obtain ⟨started, used, old, target, elapsed⟩ := h.ramp b r own
    exact ⟨started, used, old, target, Nat.zero_lt_of_lt elapsed⟩
  dropRamp b h := Part.setRamp_whole h b none nofun
  ramped b r h e := Part.setRamp_whole (Part.replaceMix_whole h b _ (h.ramp b r e).2.2.2.1) b none nofun
  stepped {p} b r h e lt := by
    refine Part.setRamp_whole (Part.replaceMix_whole h b _ (Part.steppedMix_whole h e)) b _ fun x hx => ?_
    cases hx
    obtain ⟨-, started, -, burners⟩ := p.replaceMix_cfg b (p.steppedMix b r.stepped)
    obtain ⟨s, used, old, target, -⟩ := h.ramp b r e
    rw [started, burners, Part.replaceMix_feedersOf]
    exact ⟨s, used, old, target, lt⟩
  arrived b r h e _ := Part.setRamp_whole (Part.replaceMix_whole h b _ (Part.steppedMix_whole h e)) b none nofun
  turned {p} b m r h s u good e := Part.setRamp_whole h b _ fun x hx => by
    cases hx
    exact ⟨s, u, (p.presentMix_sum b).trans (h.mix s b u), Part.mixGood_sum good, Nat.zero_lt_of_lt (h.ramp b r e).2.2.2.2⟩
  mixed b m h good _ := Part.replaceMix_whole h b m (Part.mixGood_sum good)
  newRamp {p} b m h s u good := Part.setRamp_whole h b _ fun x hx => by
    cases hx
    exact ⟨s, u, (p.presentMix_sum b).trans (h.mix s b u), Part.mixGood_sum good, h.time⟩

/-- START STATION is refused unless the mix of every used burner sums to 1000 (R194). -/
theorem Part.startRefusal_mix {p : Part} (h : p.startRefusal = none) (b : Fin 2) (u : p.burners[b].cfg.used = true) :
    sumOver (p.feedersOf b) (fun f => p.feeders[f].mix) = 1000 := by
  simp only [Part.startRefusal, Option.or_eq_none_iff, Option.map_eq_none_iff] at h
  have := List.find?_eq_none.1 h.2.2.1 b (List.mem_finRange b)
  simp only [u, Bool.true_and, bne_iff_ne, ne_eq, not_not] at this
  exact this

theorem Part.MixWhole.no_ramp {p : Part} (h : p.MixWhole) (s : p.started = false) (b : Fin 2) : p.ramps[b] = none := by
  cases e : p.ramps[b] with
  | none => rfl
  | some r => exact absurd ((h.ramp b r e).1.symm.trans s) (by decide)

/-- An UNSTARTED station is bound by no mix. -/
theorem Part.whole_of_unstarted {p : Part} (time : 0 < p.cfg.mixTime) (s : p.started = false)
    (ramps : ∀ b : Fin 2, p.ramps[b] = none) : p.MixWhole :=
  ⟨time, fun e => Part.vacuous e s, fun b _ e => absurd ((ramps b).symm.trans e) nofun⟩

/-- RESTART STATION leaves no mix ramp (R118). -/
theorem Part.rampsEnded_ramps (p : Part) (b : Fin 2) : p.rampsEnded.ramps[b] = none := by
  unfold Part.rampsEnded
  generalize hl : burnerIds = l
  have mem : b ∈ l ∨ p.ramps[b] = none := .inl (hl ▸ List.mem_finRange b)
  clear hl
  induction l generalizing p with
  | nil => exact mem.resolve_left (by simp)
  | cons c l ih =>
    refine ih _ ?_
    dsimp only
    by_cases e : b = c
    · subst e
      refine .inr ?_
      split
      · exact set_self ..
      · assumption
    · refine mem.imp (fun h => (List.mem_cons.1 h).resolve_left e) fun h => ?_
      split
      · refine (set_other _ _ _ _ e).trans ?_
        rw [(p.replaceMix_cfg c _).2.2.1]; exact h
      · exact h

theorem Part.wound_mixTime (p : Part) : p.wound.cfg.mixTime = p.cfg.mixTime := by
  obtain ⟨line, e⟩ := p.restartLine_eq
  have ended (q : Part) : q.rampsEnded.cfg.mixTime = q.cfg.mixTime :=
    congrArg StationCfg.mixTime (q.rampsEnded_frame.same .cfg (by simp [mixBlocks]))
  have closed (q : Part) : (q.closeRecord true).cfg.mixTime = q.cfg.mixTime := (Part.closeRecord_kin q true).mixTime
  rw [Part.wound, ended, closed, e]

theorem whole_settings : Settings Part.MixWhole where
  powerUp := Part.powerUp_mixWhole
  station _ h s time := Part.whole_of_unstarted time s (h.no_ramp s)
  burner _ _ h s := Part.whole_of_unstarted h.time s (h.no_ramp s)
  feeder _ _ h s := Part.whole_of_unstarted h.time s (h.no_ramp s)
  fan _ _ h s := Part.whole_of_unstarted h.time s (h.no_ramp s)
  grate _ h s := Part.whole_of_unstarted h.time s (h.no_ramp s)
  ext _ _ h s := Part.whole_of_unstarted h.time s (h.no_ramp s)
  start {p q} h s ok k := by
    have same : SameMix p q.cleaned :=
      ⟨fun f => by rw [Part.cleaned_feeders]; exact (k.feeders f).2.2, fun f => by rw [Part.cleaned_feeders]; exact (k.feeders f).2.1⟩
    refine ⟨?_, fun _ b u => ?_, fun b _ e => ?_⟩
    · rw [Part.cleaned_cfg, k.mixTime]; exact h.time
    · rw [same.sum]
      refine Part.startRefusal_mix ok b ?_
      rw [Part.cleaned_burners] at u
      exact (congrArg BurnerCfg.used (k.burners b).2).symm.trans u
    · rw [Part.cleaned_ramps, k.ramps] at e
      exact absurd ((h.no_ramp s b).symm.trans e) nofun
  restart {p} h := by
    rw [Part.restart_eq]
    refine Part.whole_of_unstarted ?_ (Part.shutDown_started _) fun b => ?_
    · rw [Part.shutDown_cfg, Part.wound_mixTime]; exact h.time
    · rw [Part.shutDown_ramps, Part.wound, Part.rampsEnded_ramps]

/-- Settles O60: whole mixes lead from one to another in every operation. -/
theorem stepsKeepMixWhole : Obligations.StepsKeepMixWhole := fun _ _ h e => whole_settings.step whole_changes.walk h e

end Sys2Proof.Machine
end

section
/-! SUPPORT. What the operations of the Claim Unit do to a record and its wait list, and what it means for the burners that
wait for LIGHT-OFF or hold it. -/

namespace Sys2Proof.Machine

-- One proof at a time: the whole package as one text must not start a thread for each of them.
set_option Elab.async false

open Sys2Proof.Config

/-! ## The wait list -/

theorem mem_insertUser {u v : Nat} {l : List Nat} : v ∈ insertUser u l ↔ v = u ∨ v ∈ l := by
  induction l with
  | nil => simp [insertUser]
  | cons w l ih =>
    unfold insertUser
    split
    · simp
    · split
      · next e => subst e; simp
      · rw [List.mem_cons, ih, List.mem_cons]; tauto

theorem insertUser_sorted {u : Nat} {l : List Nat} (h : l.Pairwise (· < ·)) : (insertUser u l).Pairwise (· < ·) := by
  induction l with
  | nil => simp [insertUser]
  | cons w l ih =>
    obtain ⟨head, tail⟩ := List.pairwise_cons.1 h
    unfold insertUser
    split
    · next lt =>
      refine List.pairwise_cons.2 ⟨fun v hv => ?_, h⟩
      rcases List.mem_cons.1 hv with rfl | hv
      · exact lt
      · exact lt.trans (head v hv)
    · split
      · exact h
      · next ge ne =>
        refine List.pairwise_cons.2 ⟨fun v hv => ?_, ih tail⟩
        rcases mem_insertUser.1 hv with rfl | hv
        · omega
        · exact head v hv

theorem sorted_nodup {l : List Nat} (h : l.Pairwise (· < ·)) : l.Nodup := h.imp fun lt => Nat.ne_of_lt lt

/-! ## Parts that differ in nothing that the laws of resources and trips speak of -/

/-- The same claims, burner and fan states, points. -/
structure Near (p q : Part) : Prop where
  started : q.started = p.started
  claims : ∀ k : Fin 3, q.claims[k].state = p.claims[k].state ∧ q.claims[k].user = p.claims[k].user ∧
    q.claims[k].waitList = p.claims[k].waitList
  burners : ∀ b : Fin 2, q.burners[b].state = p.burners[b].state ∧ q.burners[b].cfg.used = p.burners[b].cfg.used
  fans : ∀ n : Fin 4, q.fans[n].state = p.fans[n].state
  points : ∀ i : Fin 62, q.alarms.points[i].state = p.alarms.points[i].state ∧
    q.alarms.points[i].eff = p.alarms.points[i].eff
  attrs : ∀ n : Fin 16, q.alarms.ext[n].attr = p.alarms.ext[n].attr

theorem Near.refl (p : Part) : Near p p :=
  ⟨rfl, fun _ => ⟨rfl, rfl, rfl⟩, fun _ => ⟨rfl, rfl⟩, fun _ => rfl, fun _ => ⟨rfl, rfl⟩, fun _ => rfl⟩

theorem Near.trans {p q r : Part} (h : Near p q) (g : Near q r) : Near p r where
  started := g.started.trans h.started
  claims k := ⟨(g.claims k).1.trans (h.claims k).1, (g.claims k).2.1.trans (h.claims k).2.1,
    (g.claims k).2.2.trans (h.claims k).2.2⟩
  burners b := ⟨(g.burners b).1.trans (h.burners b).1, (g.burners b).2.trans (h.burners b).2⟩
  fans n := (g.fans n).trans (h.fans n)
  points i := ⟨(g.points i).1.trans (h.points i).1, (g.points i).2.trans (h.points i).2⟩
  attrs n := (g.attrs n).trans (h.attrs n)

theorem Kin.near {p q : Part} (h : Kin p q) : Near p q :=
  ⟨h.started, h.claims, fun b => ⟨(h.burners b).1, congrArg BurnerCfg.used (h.burners b).2⟩, h.fans, h.points, h.attrs⟩

/-- The blocks of what the laws speak of. -/
def lawBlocks : Set Block :=
  {.started, .points, .ext} ∪ Set.range .claim ∪ Set.range .waitList ∪ Set.range .burner ∪ Set.range .fan

theorem ChangesOnly.near {T : Set Block} {p q : Part} (h : ChangesOnly T p q) (hT : ∀ x ∈ T, x ∉ lawBlocks) : Near p q := by
  have out {x : Block} (hx : x ∈ lawBlocks) : x ∉ T := fun ht => hT x ht hx
  refine ⟨h.same .started (out (by simp [lawBlocks])), fun k => ?_, fun b => ?_, fun n => ?_, fun i => ?_, fun n => ?_⟩
  · obtain ⟨state, user, -⟩ := h.same (.claim k) (out (by simp [lawBlocks]))
    exact ⟨state, user, h.same (.waitList k) (out (by simp [lawBlocks]))⟩
  · have e : q.burners[b] = p.burners[b] := h.same (.burner b) (out (by simp [lawBlocks]))
    rw [e]; exact ⟨rfl, rfl⟩
  · exact congrArg Fan.state (h.same (.fan n) (out (by simp [lawBlocks])))
  · rw [(h.same .points (out (by simp [lawBlocks]))).1]; exact ⟨rfl, rfl⟩
  · exact congrArg (fun x : Vector Ext 16 => x[n].attr) (h.same .ext (out (by simp [lawBlocks])))

/-- An update of a record, on parts that are near. -/
theorem Near.updRes {p q : Part} (h : Near p q) (k : Fin 3) (f g : Resource → Resource)
    (e : (g q.claims[k]).state = (f p.claims[k]).state ∧ (g q.claims[k]).user = (f p.claims[k]).user ∧
      (g q.claims[k]).waitList = (f p.claims[k]).waitList) : Near (p.updRes k f) (q.updRes k g) where
  started := h.started
  claims j := by
    show (q.claims.set k (g q.claims[k]))[j].state = (p.claims.set k (f p.claims[k]))[j].state ∧
      (q.claims.set k (g q.claims[k]))[j].user = (p.claims.set k (f p.claims[k]))[j].user ∧
      (q.claims.set k (g q.claims[k]))[j].waitList = (p.claims.set k (f p.claims[k]))[j].waitList
    by_cases same : j = k
    · subst same; simpa only [set_self] using e
    · simpa only [set_other _ _ _ _ same] using h.claims j
  burners := h.burners
  fans := h.fans
  points := h.points
  attrs := h.attrs

theorem Part.updRes_updRes (k : Fin 3) (f g : Resource → Resource) (p : Part) :
    (p.updRes k f).updRes k g = p.updRes k fun r => g (f r) := by
  simp [Part.updRes]

theorem Part.updRes_claims_self (k : Fin 3) (f : Resource → Resource) (p : Part) :
    (p.updRes k f).claims[k] = f p.claims[k] := set_self ..

theorem Part.updRes_claims_other {k j : Fin 3} (f : Resource → Resource) (p : Part) (h : j ≠ k) :
    (p.updRes k f).claims[j] = p.claims[j] := set_other _ _ _ _ h

/-! ## A user's leave -/

/-- What becomes of a record and its list when user u withdraws (R48, R49): it is released or dropped, the next user is
served, or u only leaves the list. -/
inductive Withdrawn (u : Nat) (r s : Resource) : Prop
  | released (user : r.user = some u) (was : r.state = .held) (state : s.state = .idle) (gone : s.user = none)
    (list : s.waitList = r.waitList)
  | dropped (user : r.user = some u) (was : r.state = .claiming ∨ r.state = .waiting) (state : s.state = .idle)
    (gone : s.user = none) (list : s.waitList = r.waitList.erase u)
  | next (user : r.user = some u) (was : r.state = .waiting) (state : s.state = .waiting)
    (served : s.user = (r.waitList.erase u).head?) (list : s.waitList = r.waitList.erase u)
  | left (user : r.user = some u → r.state = .idle) (state : s.state = r.state) (same : s.user = r.user)
    (list : s.waitList = r.waitList.erase u)

theorem Part.service_eq (k : Fin 3) (p : Part) : p.service k = p ∨ ((p.claims[k].state = .idle ∨ p.claims[k].state = .waiting) ∧
    p.started = true ∧ p.line.silent = false ∧ p.service k = p.updRes k fun r =>
      { r with state := .waiting, user := r.waitList.head?, stagger := some (later p.now (20 * p.own)) }) := by
  unfold Part.service
  split
  · next ready =>
    simp only [Part.serviceReady, Bool.and_eq_true, Bool.or_eq_true, beq_iff_eq, Bool.not_eq_true'] at ready
    obtain ⟨⟨⟨⟨⟨state, -⟩, -⟩, -⟩, started⟩, silent⟩ := ready
    exact .inr ⟨state.imp id (·.1), started, silent, rfl⟩
  · exact .inl rfl

/-- A withdrawal changes the record as `Withdrawn` says, and nothing else that the laws speak of. -/
theorem Part.withdraw_near (k : Fin 3) (u : Nat) (p : Part) :
    ∃ f, Near (p.updRes k f) (p.withdraw k u) ∧ Withdrawn u p.claims[k] (f p.claims[k]) := by
  have rest (q r : Part) (h : Near q r) : Near q (r.beginReclaim k) := h.trans (Part.beginReclaim_kin r k).near
  unfold Part.withdraw
  dsimp only
  split
  · next e =>
    simp only [Bool.and_eq_true, beq_iff_eq] at e
    refine ⟨Resource.toIdle, rest _ _ (.trans ?_ (Part.offer_kin _ _ _ _ _ _ _).near), .released e.1 e.2 rfl rfl rfl⟩
    exact (p.queueFrame_kin _).near.updRes k _ _ ⟨rfl, rfl, ((p.queueFrame_kin _).claims k).2.2⟩
  split
  · next e =>
    simp only [Bool.and_eq_true, beq_iff_eq] at e
    refine ⟨fun r => { r with waitList := r.waitList.erase u }.toIdle, rest _ _ ?_,
      .dropped e.1 (.inl e.2) rfl rfl rfl⟩
    rw [← Part.updRes_updRes k (fun r => { r with waitList := r.waitList.erase u }) Resource.toIdle]
    exact (Part.queueFrame_kin _ _).near.updRes k _ _ ⟨rfl, rfl, ((Part.queueFrame_kin _ _).claims k).2.2⟩
  split
  · next e =>
    simp only [Bool.and_eq_true, beq_iff_eq] at e
    rcases Part.service_eq k (p.updRes k fun r => { r.toIdle with waitList := r.waitList.erase u }) with same | ⟨-, -, -, served⟩
    · rw [same]
      exact ⟨_, .refl _, .dropped e.1 (.inr e.2) rfl rfl rfl⟩
    · rw [served, Part.updRes_updRes]
      exact ⟨_, .refl _, .next e.1 e.2 rfl rfl rfl⟩
  · next held claiming waiting =>
    refine ⟨_, .refl _, .left (fun user => ?_) rfl rfl rfl⟩
    simp only [user, beq_self_eq_true, Bool.true_and, beq_iff_eq] at held claiming waiting
    cases e : p.claims[k].state <;> simp_all

/-! ## Burners that wait for LIGHT-OFF or hold it -/

/-- The record and list of LIGHT-OFF against the burners: `Part.Waiting`, said of the record; of a burner in `ex`, just
granted, only that it has left the list. -/
structure Resource.Serves (ex : Fin 2 → Prop) (x : Vector Burner 2) (r : Resource) : Prop where
  sorted : r.waitList.Pairwise (· < ·)
  inWait : ∀ b : Fin 2, b.val ∈ r.waitList → x[b].state = .lightWait
  known : ∀ u ∈ r.waitList, u < 2
  idle : r.state = .idle → r.user = none
  user : ∀ u, r.user = some u → r.state ≠ .held → u ∈ r.waitList
  held : ∀ u, r.user = some u → r.state = .held →
    ∃ b : Fin 2, b.val = u ∧ b.val ∉ r.waitList ∧ (ex b ∨ x[b].state = .igniting ∨ x[b].state = .loading)

theorem Part.waiting_iff {p : Part} : p.Waiting ↔ p.claims[(0 : Fin 3)].Serves (fun _ => False) p.burners where
  mp h := ⟨h.sorted, h.inWait, h.known, h.idle, h.user, fun u user held => by
    obtain ⟨b, own, burns⟩ := h.held u user held
    refine ⟨b, own, fun m => ?_, .inr burns⟩
    have waits := h.inWait b m
    rcases burns with e | e <;> exact absurd (waits.symm.trans e) nofun⟩
  mpr h := ⟨h.sorted, h.inWait, h.known, h.idle, h.user, fun u user held =>
    (h.held u user held).imp fun _ ⟨own, _, burns⟩ => ⟨own, burns.resolve_left id⟩⟩

theorem Resource.Serves.mono {ex ex' : Fin 2 → Prop} {x : Vector Burner 2} {r : Resource} (h : r.Serves ex x)
    (le : ∀ b, ex b → ex' b) : r.Serves ex' x :=
  { h with held := fun u user held => (h.held u user held).imp fun b ⟨own, out, burns⟩ => ⟨own, out, burns.imp (le b) id⟩ }

/-- Users of a resource with n users. -/
def Resource.Known (n : Nat) (r : Resource) : Prop := (∀ u, r.user = some u → u < n) ∧ ∀ u ∈ r.waitList, u < n

/-- A change of the record of k that grants it to nobody: users stay users, LIGHT-OFF goes on serving its burners, and a
hold of a user in `keep` stays. -/
structure Claimed (ex : Fin 2 → Prop) (x : Vector Burner 2) (keep : Nat → Prop) (k : Fin 3) (r s : Resource) : Prop where
  known : r.Known (userCount k) → s.Known (userCount k)
  serves : k = 0 → r.Serves ex x → s.Serves ex x
  held : ∀ v, keep v → r.state = .held → r.user = some v → s.state = .held ∧ s.user = some v

section
variable {ex : Fin 2 → Prop} {x : Vector Burner 2} {keep : Nat → Prop} {k : Fin 3} {r s : Resource}

/-- A record that becomes WAITING for the head of its list. -/
theorem Claimed.of_head (was : r.state ≠ .held) (state : s.state = .waiting) (user : s.user = r.waitList.head?)
    (list : s.waitList = r.waitList) : Claimed ex x keep k r s where
  known h := ⟨fun u e => h.2 u (List.mem_of_head? (user ▸ e)), fun u m => h.2 u (list ▸ m)⟩
  serves _ h := by
    refine ⟨list ▸ h.sorted, list ▸ h.inWait, list ▸ h.known, fun e => ?_, fun u e _ => ?_, fun u _ e => ?_⟩
    · exact absurd (state.symm.trans e) nofun
    · rw [list]; exact List.mem_of_head? (user ▸ e)
    · exact absurd (state.symm.trans e) nofun
  held _ _ e := absurd e was

/-- A record that goes on as it was, WAITING or CLAIMING. -/
theorem Claimed.of_moved (was : r.state = .waiting ∨ r.state = .claiming) (state : s.state = .waiting ∨ s.state = .claiming)
    (user : s.user = r.user) (list : s.waitList = r.waitList) : Claimed ex x keep k r s where
  known h := ⟨fun u e => h.1 u (user ▸ e), fun u m => h.2 u (list ▸ m)⟩
  serves _ h := by
    refine ⟨list ▸ h.sorted, list ▸ h.inWait, list ▸ h.known, fun e => ?_, fun u e _ => ?_, fun u _ e => ?_⟩
    · rcases state with c | c <;> exact absurd (c.symm.trans e) nofun
    · rw [list]
      exact h.user u (user ▸ e) (by rcases was with c | c <;> rw [c] <;> nofun)
    · rcases state with c | c <;> exact absurd (c.symm.trans e) nofun
  held _ _ e := by rcases was with c | c <;> exact absurd (c.symm.trans e) nofun

theorem Claimed.of_same (state : s.state = r.state) (user : s.user = r.user) (list : s.waitList = r.waitList) :
    Claimed ex x keep k r s where
  known h := ⟨fun u e => h.1 u (user ▸ e), fun u m => h.2 u (list ▸ m)⟩
  serves _ h := ⟨list ▸ h.sorted, list ▸ h.inWait, list ▸ h.known, fun e => user ▸ h.idle (state ▸ e),
    fun u e n => list ▸ h.user u (user ▸ e) (state ▸ n), fun u e n => list ▸ h.held u (user ▸ e) (state ▸ n)⟩
  held _ _ e u := ⟨state.trans e, user.trans u⟩

/-- A record given up, with what remains of its list. -/
theorem Claimed.of_idle (user : s.user = none) (list : s.waitList.Sublist r.waitList)
    (free : ∀ v, keep v → r.state = .held → r.user ≠ some v) : Claimed ex x keep k r s where
  known h := ⟨fun _ e => absurd (user.symm.trans e) nofun, fun u m => h.2 u (list.subset m)⟩
  serves _ h := ⟨h.sorted.sublist list, fun b m => h.inWait b (list.subset m), fun u m => h.known u (list.subset m),
    fun _ => user, fun _ e => absurd (user.symm.trans e) nofun, fun _ e => absurd (user.symm.trans e) nofun⟩
  held v kv e own := absurd own (free v kv e)

/-- Its list emptied, a HELD record stays. -/
theorem Claimed.of_refused (h : s = if r.state = .held then { r with waitList := [] } else { r.toIdle with waitList := [] }) :
    Claimed ex x keep k r s := by
  subst h
  split
  · next e =>
    exact ⟨fun h => ⟨h.1, nofun⟩, fun _ h => ⟨.nil, nofun, nofun, h.idle, fun u _ n => absurd e n, fun u o n =>
        (h.held u o n).imp fun _ ⟨own, _, burns⟩ => ⟨own, nofun, burns⟩⟩,
      fun _ _ a b => ⟨a, b⟩⟩
  · next e => exact .of_idle rfl (List.nil_sublist _) fun v _ c => absurd c e

/-- A withdrawal leaves every other user's hold. -/
theorem Withdrawn.claimed {u : Nat} (h : Withdrawn u r s) : Claimed ex x (· ≠ u) k r s := by
  have other (v : Nat) (ne : v ≠ u) (user : r.user = some u) : r.user ≠ some v := fun e =>
    ne (Option.some.inj (e.symm.trans user))
  cases h with
  | released user was state gone list =>
    exact .of_idle gone (list ▸ List.Sublist.refl _) fun v ne _ => other v ne user
  | dropped user was state gone list =>
    exact .of_idle gone (list ▸ List.erase_sublist) fun v ne _ => other v ne user
  | next user was state served list =>
    have mid : Claimed ex x (· ≠ u) k r { r.toIdle with waitList := r.waitList.erase u } :=
      .of_idle rfl List.erase_sublist fun v ne _ => other v ne user
    have last : Claimed ex x (· ≠ u) k { r.toIdle with waitList := r.waitList.erase u } s :=
      .of_head nofun state served list
    exact ⟨fun h => last.known (mid.known h), fun e h => last.serves e (mid.serves e h),
      fun v ne e => absurd (e.symm.trans was) nofun⟩
  | left user state same list =>
    refine ⟨fun h => ⟨fun v e => h.1 v (same ▸ e), fun v m => h.2 v (List.erase_subset (list ▸ m))⟩, fun _ h => ?_,
      fun v _ e f => ⟨state.trans e, same.trans f⟩⟩
    refine ⟨?_, fun b m => h.inWait b (List.erase_subset (list ▸ m)), fun v m => h.known v (List.erase_subset (list ▸ m)),
      fun e => same ▸ h.idle (state ▸ e), fun v e n => ?_, fun v e n => (h.held v (same ▸ e) (state ▸ n)).imp
        fun _ ⟨own, out, burns⟩ => ⟨own, fun m => out (List.erase_subset (list ▸ m)), burns⟩⟩
    · rw [list]; exact h.sorted.sublist List.erase_sublist
    · rw [list]
      refine (List.mem_erase_of_ne fun eq => ?_).2 (h.user v (same ▸ e) (state ▸ n))
      have own : r.user = some u := eq ▸ (same ▸ e)
      exact absurd (own.symm.trans (h.idle (user own))) nofun

/-- A burner that has withdrawn neither waits for LIGHT-OFF nor holds it. -/
theorem Withdrawn.gone {b : Fin 2} (h : Withdrawn b.val r s) (w : r.Serves ex x) :
    b.val ∉ s.waitList ∧ (s.state = .held → s.user ≠ some b.val) := by
  have erased : b.val ∉ r.waitList.erase b.val := (sorted_nodup w.sorted).not_mem_erase
  cases h with
  | released user was state gone list =>
    refine ⟨fun m => ?_, fun e => absurd (state.symm.trans e) nofun⟩
    obtain ⟨c, eq, out, -⟩ := w.held _ user was
    exact out (eq ▸ list ▸ m)
  | dropped user was state gone list => exact ⟨list ▸ erased, fun e => absurd (state.symm.trans e) nofun⟩
  | next user was state served list => exact ⟨list ▸ erased, fun e => absurd (state.symm.trans e) nofun⟩
  | left user state same list =>
    refine ⟨list ▸ erased, fun e own => ?_⟩
    exact absurd ((state.symm.trans e).symm.trans (user (same ▸ own))) nofun

/-- The record of k HELD for its user u, who leaves the list (R45). -/
def Resource.granted (u : Nat) (r : Resource) : Resource :=
  { r with state := .held, settle := none, note := none, waitList := r.waitList.erase u }

/-- A CLAIMING record granted to its user, who leaves the list (R45). -/
theorem Claimed.of_grant {u : Nat} (was : r.state = .claiming) (own : r.user = some u) (hex : k = 0 → ∀ b : Fin 2, b.val = u → ex b)
    (state : s.state = .held) (user : s.user = r.user) (list : s.waitList = r.waitList.erase u) :
    Claimed ex x keep k r s where
  known h := ⟨fun v e => h.1 v (user ▸ e), fun v m => h.2 v (List.erase_subset (list ▸ m))⟩
  serves z h := by
    have mem := h.user u own (by rw [was]; nofun)
    refine ⟨list ▸ h.sorted.sublist List.erase_sublist, fun b m => h.inWait b (List.erase_subset (list ▸ m)),
      fun v m => h.known v (List.erase_subset (list ▸ m)), fun e => ?_, fun v e n => ?_, fun v e n => ?_⟩
    · exact absurd (state.symm.trans e) nofun
    · exact absurd state n
    · have eq : u = v := Option.some.inj (own.symm.trans (user ▸ e))
      subst eq
      refine ⟨⟨u, h.known u mem⟩, rfl, fun m => ?_, .inl (hex z _ rfl)⟩
      exact (sorted_nodup h.sorted).not_mem_erase (list ▸ m)
  held _ _ e := absurd (was.symm.trans e) nofun

/-- User u joins the list, ahead of a WAITING user of higher index (R41). -/
theorem Claimed.of_request {u : Nat} (hu : u < userCount k) (wait : k = 0 → ∀ b : Fin 2, b.val = u → x[b].state = .lightWait)
    (free : r.state = .held → r.user ≠ some u) (state : s.state = r.state) (user : s.user = if r.state == .waiting && r.user.any (u < ·) then some u else r.user)
    (list : s.waitList = insertUser u r.waitList) : Claimed ex x keep k r s where
  known h := by
    refine ⟨fun v e => ?_, fun v m => ?_⟩
    · rw [user] at e
      split at e
      · cases e; exact hu
      · exact h.1 v e
    · rw [list] at m
      rcases mem_insertUser.1 m with rfl | m
      · exact hu
      · exact h.2 v m
  serves z h := by
    subst z
    refine ⟨list ▸ insertUser_sorted h.sorted, fun b m => ?_, fun v m => ?_, fun e => ?_, fun v e n => ?_, fun v e n => ?_⟩
    · rw [list] at m
      rcases mem_insertUser.1 m with e | m
      · exact wait rfl b e
      · exact h.inWait b m
    · rw [list] at m
      rcases mem_insertUser.1 m with rfl | m
      · exact hu
      · exact h.known v m
    · rw [state] at e
      rw [user, e]; exact h.idle e
    · rw [user] at e
      rw [list]
      split at e
      · cases e; exact mem_insertUser.2 (.inl rfl)
      · exact mem_insertUser.2 (.inr (h.user v e (state ▸ n)))
    · rw [state] at n
      rw [user, n] at e
      refine (h.held v e n).imp fun b ⟨own, out, burns⟩ => ⟨own, fun m => ?_, burns⟩
      rw [list] at m
      rcases mem_insertUser.1 m with eq | m
      · exact free n (by rw [← eq, own]; exact e)
      · exact out m
  held v _ e f := ⟨state.trans e, by rw [user, e]; exact f⟩

end

end Sys2Proof.Machine
end

section
/-! SUPPORT. The laws of R50 and R88 as one predicate with excuses: a point, burners and fans that an operation has in
hand. Every operation of the rows keeps it. -/

namespace Sys2Proof.Machine

-- One proof at a time: the whole package as one text must not start a thread for each of them.
set_option Elab.async false

open Sys2Proof.Config

/-- What an operation has in hand: points whose activation has not taken its burners along yet, burners and fans whose hold
and state do not go together yet. -/
structure Excuse where
  point : Fin 62 → Prop
  burner : Fin 2 → Prop
  fan : Fin 4 → Prop

/-- Nothing in hand. -/
def Excuse.none : Excuse := ⟨fun _ => False, fun _ => False, fun _ => False⟩

def Excuse.addPoint (e : Excuse) (i : Fin 62) : Excuse := { e with point := fun j => e.point j ∨ j = i }
def Excuse.addBurner (e : Excuse) (b : Fin 2) : Excuse := { e with burner := fun c => e.burner c ∨ c = b }
def Excuse.addFan (e : Excuse) (n : Fin 4) : Excuse := { e with fan := fun m => e.fan m ∨ m = n }

/-- The law of trips but for the outputs of an UNSTARTED station, and, where V, the law of resources, both but for what is
in hand. -/
structure Part.Guarded (V : Prop) (e : Excuse) (p : Part) : Prop where
  waiting : p.claims[(0 : Fin 3)].Serves e.burner p.burners
  unused : ∀ b : Fin 2, p.burners[b].cfg.used = false → p.burners[b].state = .off
  claims : p.started = false → ∀ k : Fin 3, p.claims[k].state = .idle ∧ p.claims[k].waitList = []
  burners : p.started = false → ∀ b : Fin 2, p.burners[b].state = .off
  points : p.started = false → ∀ i : Fin 62, p.alarms.points[i].state = .normal ∧ p.alarms.points[i].eff = false
  bound : ∀ (b : Fin 2) (i : Fin 62), ¬ e.point i → p.bindsBurner b i = true → p.alarms.points[i].state ≠ .normal →
    p.burners[b].out
  users : V → p.UsersKnown
  lightOff : V → ∀ b : Fin 2, ¬ e.burner b → p.burners[b].state = .igniting ∨ p.burners[b].state = .loading →
    p.holdsFor 0 b.val
  heavyStart : V → ∀ n : Fin 4, ¬ e.fan n → p.fans[n].state = .starting → p.holdsFor 1 n.val

theorem Part.guarded_iff {V : Prop} {p : Part} :
    p.TripLaw ∧ (V → p.Lawful) ↔ p.Guarded V .none ∧ (p.started = false → p.field.output = .off) where
  mp h := ⟨⟨Part.waiting_iff.1 h.1.waiting, h.1.unused, fun s => (h.1.unstarted s).claims, fun s => (h.1.unstarted s).burners,
      fun s => (h.1.unstarted s).points, fun b i _ => h.1.bound b i, fun v => (h.2 v).users,
      fun v b _ => (h.2 v).lightOff b, fun v n _ => (h.2 v).heavyStart n⟩, fun s => (h.1.unstarted s).outputs⟩
  mpr h := ⟨⟨Part.waiting_iff.2 h.1.waiting, h.1.unused, fun s => ⟨h.1.claims s, h.1.burners s, h.1.points s, h.2 s⟩,
      fun b i => h.1.bound b i id⟩, fun v => ⟨h.1.users v, fun b => h.1.lightOff v b id, fun n => h.1.heavyStart v n id⟩⟩

theorem Part.pointAttr_congr {p q : Part} (h : ∀ n : Fin 16, q.alarms.ext[n].attr = p.alarms.ext[n].attr) (i : Fin 62) :
    q.pointAttr i = p.pointAttr i := by
  simp only [Part.pointAttr, h]

theorem Near.binds {p q : Part} (h : Near p q) (b : Fin 2) (i : Fin 62) : q.bindsBurner b i = p.bindsBurner b i := by
  simp only [Part.bindsBurner, Part.pointAttr_congr h.attrs]

section
variable {V : Prop} {e : Excuse} {p q : Part}

theorem Resource.Serves.congr {ex : Fin 2 → Prop} {x y : Vector Burner 2} {r s : Resource} (h : r.Serves ex x)
    (same : s.state = r.state ∧ s.user = r.user ∧ s.waitList = r.waitList) (burners : ∀ b : Fin 2, y[b].state = x[b].state) :
    s.Serves ex y := by
  obtain ⟨state, user, list⟩ := same
  refine ⟨list ▸ h.sorted, fun b m => (burners b).trans (h.inWait b (list ▸ m)), list ▸ h.known, fun n => user ▸ h.idle (state ▸ n),
    fun u o n => list ▸ h.user u (user ▸ o) (state ▸ n), fun u o n => ?_⟩
  obtain ⟨b, own, out, burns⟩ := h.held u (user ▸ o) (state ▸ n)
  exact ⟨b, own, list ▸ out, by rw [burners]; exact burns⟩

theorem Near.holdsFor (h : Near p q) (k : Fin 3) (u : Nat) : q.holdsFor k u ↔ p.holdsFor k u := by
  simp only [Part.holdsFor, (h.claims k).1, (h.claims k).2.1]

theorem Part.Guarded.of_near (h : p.Guarded V e) (n : Near p q) : q.Guarded V e where
  waiting := h.waiting.congr (n.claims 0) fun b => (n.burners b).1
  unused b u := by rw [(n.burners b).1]; exact h.unused b ((n.burners b).2 ▸ u)
  claims s k := by rw [(n.claims k).1, (n.claims k).2.2]; exact h.claims (n.started ▸ s) k
  burners s b := (n.burners b).1.trans (h.burners (n.started ▸ s) b)
  points s i := by rw [(n.points i).1, (n.points i).2]; exact h.points (n.started ▸ s) i
  bound b i x binds act := by
    rw [n.binds] at binds
    rw [(n.points i).1] at act
    have := h.bound b i x binds act
    simpa only [Burner.out, (n.burners b).1] using this
  users v k := by
    obtain ⟨-, user, list⟩ := n.claims k
    rw [user, list]; exact h.users v k
  lightOff v b x s := (n.holdsFor 0 b.val).2 (h.lightOff v b x ((n.burners b).1 ▸ s))
  heavyStart v m x s := (n.holdsFor 1 m.val).2 (h.heavyStart v m x ((n.fans m).symm.trans s))

/-- More in hand. -/
theorem Part.Guarded.mono {e' : Excuse} (h : p.Guarded V e) (points : ∀ i, e.point i → e'.point i)
    (burners : ∀ b, e.burner b → e'.burner b) (fans : ∀ n, e.fan n → e'.fan n) : p.Guarded V e' :=
  { h with
    waiting := h.waiting.mono burners, bound := fun b i x => h.bound b i (x ∘ points i), lightOff := fun v b x => h.lightOff v b (x ∘ burners b),
    heavyStart := fun v n x => h.heavyStart v n (x ∘ fans n) }

theorem Part.Guarded.addPoint (h : p.Guarded V e) (i : Fin 62) : p.Guarded V (e.addPoint i) :=
  h.mono (fun _ => .inl) (fun _ => id) fun _ => id
theorem Part.Guarded.addBurner (h : p.Guarded V e) (b : Fin 2) : p.Guarded V (e.addBurner b) :=
  h.mono (fun _ => id) (fun _ => .inl) fun _ => id
theorem Part.Guarded.addFan (h : p.Guarded V e) (n : Fin 4) : p.Guarded V (e.addFan n) :=
  h.mono (fun _ => id) (fun _ => id) fun _ => .inl

/-! ## Claims -/

/-- A record changed for the users in `keep`. -/
theorem Part.Guarded.updRes (h : p.Guarded V e) (s : p.started = true) (k : Fin 3) (f : Resource → Resource) {keep : Nat → Prop}
    (c : Claimed e.burner p.burners keep k p.claims[k] (f p.claims[k])) (burners : k = 0 → ∀ b : Fin 2, ¬ e.burner b → keep b.val)
    (fans : k = 1 → ∀ n : Fin 4, ¬ e.fan n → keep n.val) : (p.updRes k f).Guarded V e := by
  have self := Part.updRes_claims_self k f p
  have other (j : Fin 3) (ne : j ≠ k) := Part.updRes_claims_other f p ne
  refine { h with
    waiting := ?_, claims := Part.vacuous (p := p) s, burners := Part.vacuous (p := p) s,
    points := Part.vacuous (p := p) s, users := fun v j => ?_, lightOff := fun v b x burns => ?_,
    heavyStart := fun v n x starts => ?_ }
  · by_cases z : k = 0
    · subst z; rw [self]; exact c.serves rfl h.waiting
    · rw [other 0 (Ne.symm z)]; exact h.waiting
  · by_cases z : j = k
    · subst z; rw [self]; exact c.known (h.users v j)
    · rw [other j z]; exact h.users v j
  · obtain ⟨held, user⟩ := h.lightOff v b x burns
    by_cases z : k = 0
    · subst z
      have kept := c.held b.val (burners rfl b x) held user
      exact ⟨by rw [self]; exact kept.1, by rw [self]; exact kept.2⟩
    · exact ⟨by rw [other 0 (Ne.symm z)]; exact held, by rw [other 0 (Ne.symm z)]; exact user⟩
  · obtain ⟨held, user⟩ := h.heavyStart v n x starts
    by_cases z : k = 1
    · subst z
      have kept := c.held n.val (fans rfl n x) held user
      exact ⟨by rw [self]; exact kept.1, by rw [self]; exact kept.2⟩
    · exact ⟨by rw [other 1 (Ne.symm z)]; exact held, by rw [other 1 (Ne.symm z)]; exact user⟩

/-- A record changed for every user. -/
theorem Part.Guarded.updRes_all (h : p.Guarded V e) (s : p.started = true) (k : Fin 3) (f : Resource → Resource)
    (c : Claimed e.burner p.burners (fun _ => True) k p.claims[k] (f p.claims[k])) : (p.updRes k f).Guarded V e :=
  h.updRes s k f c (fun _ _ _ => trivial) fun _ _ _ => trivial

theorem Part.Guarded.service (h : p.Guarded V e) (k : Fin 3) : (p.service k).Guarded V e := by
  rcases p.service_eq k with same | ⟨was, s, -, served⟩
  · rw [same]; exact h
  · rw [served]
    refine h.updRes_all s k _ (.of_head (fun c => ?_) rfl rfl rfl)
    rcases was with w | w <;> exact absurd (w.symm.trans c) nofun

/-- A withdrawal: the user's own hold goes, so it must be in hand. -/
theorem Part.Guarded.withdraw (h : p.Guarded V e) (k : Fin 3) (u : Nat) (burners : k = 0 → ∀ b : Fin 2, ¬ e.burner b → b.val ≠ u)
    (fans : k = 1 → ∀ n : Fin 4, ¬ e.fan n → n.val ≠ u) : (p.withdraw k u).Guarded V e := by
  obtain ⟨f, near, withdrawn⟩ := p.withdraw_near k u
  refine Part.Guarded.of_near ?_ near
  cases s : p.started
  · obtain ⟨idle, empty⟩ := h.claims s k
    refine h.of_near (p.updRes_kin k f ?_).near
    cases withdrawn with
    | released _ was => exact absurd (was.symm.trans idle) nofun
    | dropped _ was => exact was.elim (fun w => absurd (w.symm.trans idle) nofun) fun w => absurd (w.symm.trans idle) nofun
    | next _ was => exact absurd (was.symm.trans idle) nofun
    | left _ state same list => exact ⟨state, same, by rw [list, empty]; rfl⟩
  · exact h.updRes s k f withdrawn.claimed burners fans

theorem Part.Guarded.request (h : p.Guarded V e) (k : Fin 3) (u : Nat) (hu : u < userCount k)
    (wait : k = 0 → ∀ b : Fin 2, b.val = u → p.burners[b].state = .lightWait) : (p.request k u).Guarded V e := by
  refine ite_keeps (fun _ => h) fun open_ => ite_keeps (fun _ => h) fun new => ?_
  have s : p.started = true := by
    simp only [Bool.or_eq_true, not_or, Bool.not_eq_true', Bool.not_eq_false] at open_
    exact open_.1
  have free : p.claims[k].state = .held → p.claims[k].user ≠ some u := fun held own => new (by
    simp only [held, own, beq_self_eq_true, Bool.and_self, Bool.or_true])
  exact Part.Guarded.service (h.updRes_all s k _ (.of_request hu wait free rfl rfl rfl)) k

/-! ## Parts of a change of state -/

theorem Part.feederTo_near (f : Fin 6) (t : FeederState) (sp : Nat) (p : Part) : Near p (p.feederTo f t sp) :=
  ⟨rfl, fun _ => ⟨rfl, rfl, rfl⟩, fun _ => ⟨rfl, rfl⟩, fun _ => rfl, fun _ => ⟨rfl, rfl⟩, fun _ => rfl⟩

theorem Part.settleFeeder_near (f : Fin 6) (p : Part) : Near p (p.settleFeeder f) :=
  settleFeeder_keeps (I := Near p) (fun f t sp h _ => h.trans (Part.feederTo_near f t sp _)) f (.refl p)

theorem Part.settleFeedersOf_near (b : Fin 2) (p : Part) : Near p (p.settleFeedersOf b) :=
  forAll_keeps (I := Near p) (fun f q hq => hq.trans (q.settleFeeder_near f)) (.refl p)

theorem Part.replaceMix_near (b : Fin 2) (m : Vector Nat 6) (p : Part) : Near p (p.replaceMix b m) :=
  (p.replaceMix_frame b m).near fun x hx => by
    rcases hx with (⟨f, rfl⟩ | ⟨f, rfl⟩) | rfl <;> simp [lawBlocks]

theorem Part.setRamp_near (b : Fin 2) (r : Option MixRamp) (p : Part) : Near p (p.setRamp b r) :=
  ⟨rfl, fun _ => ⟨rfl, rfl, rfl⟩, fun _ => ⟨rfl, rfl⟩, fun _ => rfl, fun _ => ⟨rfl, rfl⟩, fun _ => rfl⟩

theorem Part.updOutput_near (f : OutputImage → OutputImage) (p : Part) : Near p (p.updOutput f) :=
  ⟨rfl, fun _ => ⟨rfl, rfl, rfl⟩, fun _ => ⟨rfl, rfl⟩, fun _ => rfl, fun _ => ⟨rfl, rfl⟩, fun _ => rfl⟩

theorem Part.Guarded.endRamp (h : p.Guarded V e) (b : Fin 2) : (p.endRamp b).Guarded V e := by
  unfold Part.endRamp
  split
  · exact Part.Guarded.withdraw (h.of_near ((Part.replaceMix_near b _ p).trans (Part.setRamp_near b _ _))) 2 _ nofun nofun
  · exact h

/-- What follows a burner's new state changes nothing more that the laws speak of (R93, R100, R108). -/
theorem Part.afterBurner_near (b : Fin 2) (s : BurnerState) (mark : Bool) (p : Part) : Near p
    ((((if s = .off ∨ s = .held ∨ s = .tripped then p.zeroSetpoints b else p).settleFeedersOf b).record
      (ShiftRec.updBurner b (BurnerTotals.entered s))).offer .burner b.val s.code mark) := by
  refine .trans ?_ (Part.offer_kin _ _ _ _ _ _ _).near
  refine .trans ?_ (Part.record_same_kin _ (ShiftRec.updBurner b (BurnerTotals.entered s)) fun _ => rfl).near
  refine .trans ?_ (Part.settleFeedersOf_near b _)
  split
  · exact (p.zeroSetpoints_kin b).near
  · exact .refl p

/-- No TRIP point bound to the burner stands, but for those in hand. -/
def Part.calm (e : Excuse) (b : Fin 2) (p : Part) : Prop :=
  ∀ i : Fin 62, ¬ e.point i → p.bindsBurner b i = true → p.alarms.points[i].state = .normal

theorem Part.Guarded.calm (h : p.Guarded V e) {b : Fin 2} (on : ¬ p.burners[b].out) : p.calm e b := fun i x binds =>
  by_contra fun act => on (h.bound b i x binds act)

theorem Near.calm (n : Near p q) {b : Fin 2} (h : p.calm e b) : q.calm e b := fun i x binds =>
  (n.points i).1.trans (h i x ((n.binds b i).symm.trans binds))

theorem Part.leaveFor_calm {b c : Fin 2} (s : BurnerState) (h : p.calm e c) : (p.leaveFor b s).calm e c := fun i x binds => by
  have frame := p.leaveFor_frame b s
  have ext : (p.leaveFor b s).alarms.ext = p.alarms.ext := frame.same .ext (by simp [mixBlocks, leaveBlocks, sendBlocks])
  have attr : (p.leaveFor b s).pointAttr i = p.pointAttr i := Part.pointAttr_congr (fun n => by rw [ext]) i
  rw [(frame.same .points (by simp [mixBlocks, leaveBlocks, sendBlocks])).1]
  refine h i x ?_
  simpa only [Part.bindsBurner, attr] using binds

/-- A burner in its new state, taken out of hand. -/
theorem Part.Guarded.setBurner {b : Fin 2} {s : BurnerState} (h : p.Guarded V (e.addBurner b)) (st : p.started = true)
    (f : Burner → Burner) (hf : (f p.burners[b]).state = s ∧ (f p.burners[b]).cfg.used = p.burners[b].cfg.used)
    (used : s = .off ∨ p.burners[b].cfg.used = true) (bound : s = .off ∨ s = .tripped ∨ p.calm e b)
    (list : b.val ∈ p.claims[(0 : Fin 3)].waitList → s = .lightWait)
    (hold : p.claims[(0 : Fin 3)].state = .held → p.claims[(0 : Fin 3)].user = some b.val → s = .igniting ∨ s = .loading)
    (light : V → ¬ e.burner b → s = .igniting ∨ s = .loading → p.holdsFor 0 b.val) : (p.updBurner b f).Guarded V e := by
  have self : (p.updBurner b f).burners[b] = f p.burners[b] := set_self ..
  have other (c : Fin 2) (ne : c ≠ b) : (p.updBurner b f).burners[c] = p.burners[c] := set_other _ _ _ _ ne
  refine { h with
    waiting := ⟨h.waiting.sorted, fun c m => ?_, h.waiting.known, h.waiting.idle, h.waiting.user, fun u own held => ?_⟩,
    unused := fun c u => ?_, claims := Part.vacuous (p := p) st, burners := Part.vacuous (p := p) st,
    points := Part.vacuous (p := p) st, bound := fun c i x binds act => ?_, lightOff := fun v c x burns => ?_ }
  · by_cases z : c = b
    · subst z; rw [self, hf.1]; exact list m
    · rw [other c z]; exact h.waiting.inWait c m
  · obtain ⟨c, eq, out, burns⟩ := h.waiting.held u own held
    refine ⟨c, eq, out, ?_⟩
    by_cases z : c = b
    · subst z; rw [self, hf.1]; exact .inr (hold held (eq ▸ own))
    · rw [other c z]; exact burns.imp (fun x => x.resolve_right z) id
  · by_cases z : c = b
    · subst z
      rw [self] at u ⊢
      rw [hf.2] at u
      exact hf.1.trans (used.resolve_right fun w => absurd (w.symm.trans u) nofun)
    · rw [other c z] at u ⊢; exact h.unused c u
  · by_cases z : c = b
    · subst z
      rw [self, Burner.out, hf.1]
      exact (or_assoc.2 bound).resolve_right fun w => act (w i x binds)
    · rw [other c z]; exact h.bound c i x binds act
  · by_cases z : c = b
    · subst z
      rw [self, hf.1] at burns
      exact light v x burns
    · rw [other c z] at burns
      exact h.lightOff v c (fun y => y.elim x z) burns

/-- A burner's change of state, once it has left what it held. -/
theorem Part.Guarded.burnerTo {b : Fin 2} {s : BurnerState} (h : (p.leaveFor b s).Guarded V (e.addBurner b))
    (st : p.started = true) (fix : Burner → Burner) (mark : Bool) (hf : ∀ x, (fix x).state = x.state ∧ (fix x).cfg = x.cfg)
    (used : s = .off ∨ p.burners[b].cfg.used = true) (bound : s = .off ∨ s = .tripped ∨ p.calm e b)
    (list : b.val ∈ (p.leaveFor b s).claims[(0 : Fin 3)].waitList → s = .lightWait)
    (hold : (p.leaveFor b s).claims[(0 : Fin 3)].state = .held → (p.leaveFor b s).claims[(0 : Fin 3)].user = some b.val →
      s = .igniting ∨ s = .loading)
    (light : V → ¬ e.burner b → s = .igniting ∨ s = .loading → (p.leaveFor b s).holdsFor 0 b.val) :
    (p.burnerTo b s fix mark).Guarded V e := by
  have frame := p.leaveFor_frame b s
  have same : (p.leaveFor b s).burners[b] = p.burners[b] :=
    frame.same (.burner b) (by simp [mixBlocks, leaveBlocks, sendBlocks])
  have started : (p.leaveFor b s).started = true :=
    (Part.started_of_frame frame (by simp [mixBlocks, leaveBlocks, sendBlocks])).trans st
  have moved := h.setBurner started (fun x => fix (x.cleared s)) (s := s)
    ⟨(hf _).1, congrArg BurnerCfg.used (hf _).2⟩ (same.symm ▸ used)
    (bound.imp id fun x => x.imp id (Part.leaveFor_calm s)) list hold light
  exact (moved.of_near (Part.updOutput_near _ _)).of_near (Part.afterBurner_near b s mark _)

/-- A burner's new state is the one named, and the other burner keeps its own. -/
theorem Part.burnerTo_near (b : Fin 2) (s : BurnerState) (fix : Burner → Burner) (mark : Bool) (p : Part) :
    Near ((p.leaveFor b s).updBurner b fun x => fix (x.cleared s)) (p.burnerTo b s fix mark) :=
  (Part.updOutput_near _ _).trans (Part.afterBurner_near b s mark _)

theorem Part.burnerTo_state (b : Fin 2) (s : BurnerState) (fix : Burner → Burner) (mark : Bool) (p : Part)
    (hf : ∀ x, (fix x).state = x.state) : (p.burnerTo b s fix mark).burners[b].state = s :=
  ((p.burnerTo_near b s fix mark).burners b).1.trans ((congrArg Burner.state (set_self ..)).trans (hf _))

theorem Part.burnerTo_other {b c : Fin 2} (ne : c ≠ b) (s : BurnerState) (fix : Burner → Burner) (mark : Bool) (p : Part) :
    (p.burnerTo b s fix mark).burners[c] = p.burners[c] :=
  (p.burnerTo_frame b s fix mark).same (.burner c) (by simp [burnerBlocks, mixBlocks, leaveBlocks, sendBlocks, ne])

/-- A burner that neither waits for LIGHT-OFF nor holds it has withdrawn from it. -/
theorem Part.leaveFor_gone {b : Fin 2} {s : BurnerState} {ex : Fin 2 → Prop} (hs : s.free = true)
    (h : p.claims[(0 : Fin 3)].Serves ex p.burners) :
    b.val ∉ (p.leaveFor b s).claims[(0 : Fin 3)].waitList ∧
      ((p.leaveFor b s).claims[(0 : Fin 3)].state = .held → (p.leaveFor b s).claims[(0 : Fin 3)].user ≠ some b.val) := by
  have left : ¬ (s = .lightWait ∨ s = .igniting ∨ s = .loading) := by
    simpa [BurnerState.free, and_assoc] using hs
  have gone : b.val ∉ (p.withdraw 0 b.val).claims[(0 : Fin 3)].waitList ∧
      ((p.withdraw 0 b.val).claims[(0 : Fin 3)].state = .held → (p.withdraw 0 b.val).claims[(0 : Fin 3)].user ≠ some b.val) := by
    obtain ⟨f, near, withdrawn⟩ := p.withdraw_near 0 b.val
    obtain ⟨state, user, list⟩ := near.claims 0
    rw [Part.updRes_claims_self] at state user list
    rw [state, user, list]
    exact withdrawn.gone h
  unfold Part.leaveFor
  dsimp only
  rw [if_neg left]
  split
  · exact gone
  · have frame := (p.withdraw 0 b.val).endRamp_frame b
    obtain ⟨state, user, -⟩ := frame.same (.claim 0) (by simp [mixBlocks, leaveBlocks, sendBlocks])
    have list : ((p.withdraw 0 b.val).endRamp b).claims[(0 : Fin 3)].waitList = (p.withdraw 0 b.val).claims[(0 : Fin 3)].waitList :=
      frame.same (.waitList 0) (by simp [mixBlocks, leaveBlocks, sendBlocks])
    rw [state, user, list]
    exact gone

theorem Part.Guarded.leaveFor {b : Fin 2} (h : p.Guarded V (e.addBurner b)) (s : BurnerState) :
    (p.leaveFor b s).Guarded V (e.addBurner b) := by
  have gone : Part.Guarded V (e.addBurner b) (if s = .lightWait ∨ s = .igniting ∨ s = .loading then p else p.withdraw 0 b.val) :=
    ite_keeps (fun _ => h) fun _ => h.withdraw 0 _ (fun _ c x eq => x (.inr (Fin.ext eq))) nofun
  exact ite_keeps (fun _ => gone) fun _ => gone.endRamp b

/-- A burner leaves what it held for a state that holds nothing. -/
theorem Part.Guarded.leave {b : Fin 2} {s : BurnerState} (h : p.Guarded V (e.addBurner b)) (st : p.started = true)
    (fix : Burner → Burner) (mark : Bool) (hs : s.free = true) (hf : ∀ x, (fix x).state = x.state ∧ (fix x).cfg = x.cfg)
    (used : s = .off ∨ p.burners[b].cfg.used = true) (bound : s = .off ∨ s = .tripped ∨ p.calm e b) :
    (p.burnerTo b s fix mark).Guarded V e := by
  obtain ⟨list, hold⟩ := Part.leaveFor_gone (b := b) hs h.waiting
  refine Part.Guarded.burnerTo (h.leaveFor s) st fix mark hf used bound (fun m => absurd m list)
    (fun held own => absurd own (hold held)) fun _ _ burns => ?_
  rcases burns with rfl | rfl <;> cases hs

/-! ## Points -/

theorem Part.Guarded.tripBurner (h : p.Guarded V e) (st : p.started = true) (b : Fin 2) : (p.tripBurner b).Guarded V e := by
  refine ite_keeps (fun _ => h) fun n => ?_
  simp only [Bool.or_eq_true, not_or, Bool.not_eq_true', Bool.not_eq_false] at n
  exact (h.addBurner b).leave st id false rfl (fun _ => ⟨rfl, rfl⟩) (.inr n.1.1) (.inr (.inl rfl))

theorem Part.Guarded.tripBurner_out (h : p.Guarded V e) (b : Fin 2) : (p.tripBurner b).burners[b].out := by
  unfold Part.tripBurner
  split
  · next n =>
    simp only [Bool.or_eq_true, Bool.not_eq_true', beq_iff_eq] at n
    rcases n with (unused | off) | tripped
    · exact .inl (h.unused b unused)
    · exact .inl off
    · exact .inr tripped
  · exact .inr (Part.burnerTo_state b .tripped id false p fun _ => rfl)

theorem Part.tripBurner_other {b c : Fin 2} (ne : c ≠ b) (p : Part) : (p.tripBurner b).burners[c] = p.burners[c] :=
  (p.tripBurner_frame b).same (.burner c) (by simp [burnerBlocks, mixBlocks, leaveBlocks, sendBlocks, ne])

theorem Part.tripBurner_ext (b : Fin 2) (p : Part) : (p.tripBurner b).alarms.ext = p.alarms.ext :=
  (p.tripBurner_frame b).same .ext (by simp [burnerBlocks, mixBlocks, leaveBlocks, sendBlocks])

theorem Part.Guarded.tripBound (h : p.Guarded V e) (st : p.started = true) (x : Binding) : (p.tripBound x).Guarded V e := by
  cases x with
  | none => exact h
  | station => exact (h.tripBurner st 0).tripBurner ((p.tripBurner_started 0).trans st) 1
  | burner b => exact h.tripBurner st b

/-- Every burner that a binding names is OFF or TRIPPED after it. -/
theorem Part.Guarded.tripBound_out (h : p.Guarded V e) (st : p.started = true) {x : Binding} {b : Fin 2}
    (names : x = .station ∨ x = .burner b) : (p.tripBound x).burners[b].out := by
  rcases names with rfl | rfl
  · show ((p.tripBurner 0).tripBurner 1).burners[b].out
    by_cases z : b = 1
    · subst z; exact (h.tripBurner st 0).tripBurner_out 1
    · rw [Part.tripBurner_other z]
      have : b = 0 := by omega
      subst this
      exact h.tripBurner_out 0
  · exact h.tripBurner_out b

theorem Part.tripBound_ext (x : Binding) (p : Part) : (p.tripBound x).alarms.ext = p.alarms.ext := by
  cases x with
  | none => rfl
  | station => exact ((p.tripBurner 0).tripBurner_ext 1).trans (p.tripBurner_ext 0)
  | burner b => exact p.tripBurner_ext b

/-- A point no longer in hand: the burners bound to it are OFF or TRIPPED. -/
theorem Part.Guarded.dropPoint {i : Fin 62} (h : p.Guarded V (e.addPoint i))
    (out : ∀ b : Fin 2, p.bindsBurner b i = true → p.burners[b].out) : p.Guarded V e :=
  { h with
    bound := fun b j x binds act => by
      by_cases z : j = i
      · subst z; exact out b binds
      · exact h.bound b j (fun y => y.elim x z) binds act }

/-- A point in any state, in hand. -/
theorem Part.Guarded.updPoint (h : p.Guarded V e) (st : p.started = true) (i : Fin 62) (f : Point → Point) :
    (p.updPoint i f).Guarded V (e.addPoint i) :=
  { h.addPoint i with
    claims := Part.vacuous (p := p) st, burners := Part.vacuous (p := p) st, points := Part.vacuous (p := p) st,
    bound := fun b j x binds act => by
      have other : (p.updPoint i f).alarms.points[j] = p.alarms.points[j] := set_other _ _ _ _ fun z => x (.inr z)
      rw [other] at act
      exact h.bound b j (fun y => x (.inl y)) binds act }

theorem Part.setHorn_near (on : Bool) (p : Part) : Near p (p.setHorn on) :=
  ⟨rfl, fun _ => ⟨rfl, rfl, rfl⟩, fun _ => ⟨rfl, rfl⟩, fun _ => rfl, fun _ => ⟨rfl, rfl⟩, fun _ => rfl⟩

/-- A point that goes from NORMAL only to NORMAL binds nothing new. -/
theorem Part.Guarded.movePoint (h : p.Guarded V e) (st : p.started = true) (i : Fin 62) (f : Point → Point)
    (hf : p.alarms.points[i].state = .normal → (f p.alarms.points[i]).state = .normal) : (p.updPoint i f).Guarded V e :=
  { h with
    claims := Part.vacuous (p := p) st, burners := Part.vacuous (p := p) st, points := Part.vacuous (p := p) st,
    bound := fun b j x binds act => by
      by_cases z : j = i
      · subst z
        have self : (p.updPoint j f).alarms.points[j] = f p.alarms.points[j] := set_self ..
        rw [self] at act
        exact h.bound b j x binds fun n => act (hf n)
      · have other : (p.updPoint i f).alarms.points[j] = p.alarms.points[j] := set_other _ _ _ _ z
        rw [other] at act
        exact h.bound b j x binds act }

theorem Part.announce_attr (i j : Fin 62) (p : Part) : (p.announce i).pointAttr j = p.pointAttr j :=
  Part.pointAttr_congr (fun n => ((Part.offer_kin _ _ _ _ _ _ _).attrs n)) j

theorem Part.Guarded.activate (h : p.Guarded V e) (st : p.started = true) (i : Fin 62) : (p.activate i).Guarded V e := by
  have announced : (p.announce i).Guarded V (e.addPoint i) :=
    ((h.updPoint st i _).of_near (Part.offer_kin _ _ _ _ _ _ _).near).of_near (Part.updAlarms_kin _ _ rfl rfl rfl rfl rfl).near
  have sounded : (p.sounded i).Guarded V (e.addPoint i) ∧ (p.sounded i).pointAttr i = p.pointAttr i := by
    unfold Part.sounded
    split
    · exact ⟨announced.of_near (Part.setHorn_near true _), p.announce_attr i i⟩
    · exact ⟨announced, p.announce_attr i i⟩
  have started := (p.sounded_started i).trans st
  rw [Part.activate_eq]
  generalize p.sounded i = q at sounded started
  obtain ⟨guarded, attr⟩ := sounded
  have k := Part.record_same_kin q _ (ShiftRec.activation_trips (p.pointAttr i).cls)
  generalize q.record (ShiftRec.activation (p.pointAttr i).cls) = r at k
  have counted := guarded.of_near k.near
  have attr : r.pointAttr i = p.pointAttr i := (Part.pointAttr_congr k.attrs i).trans attr
  split
  · have st : r.started = true := k.started.trans started
    have tripped : (r.tripBound (r.pointAttr i).binding).Guarded V e := by
      refine (counted.tripBound st _).dropPoint fun b binds => counted.tripBound_out st ?_
      have same : (r.tripBound (r.pointAttr i).binding).pointAttr i = r.pointAttr i :=
        Part.pointAttr_congr (fun n => by rw [Part.tripBound_ext]) i
      simp only [Part.bindsBurner, same, Bool.and_eq_true, Bool.or_eq_true, beq_iff_eq] at binds
      exact binds.2
    have filled (o : Option Origin) : Part.Guarded V e (((r.tripBound (r.pointAttr i).binding).fillFirstOut i o).record
        (ShiftRec.tripped ⟨i, r.now, o⟩)) :=
      (tripped.of_near (Part.updAlarms_kin _ _ rfl rfl rfl rfl rfl).near).of_near
        (Part.record_kin _ _ fun _ => ShiftRec.tripped_fits _).near
    unfold Part.actTrip
    exact ite_keeps (fun _ => (filled _).of_near
      ((Part.updAlarms_kin _ _ rfl rfl rfl rfl rfl).trans (Part.queueFrame_kin _ _)).near) fun _ => filled _
  · next calm =>
    refine counted.dropPoint fun b binds => ?_
    simp only [Part.bindsBurner, attr, Bool.and_eq_true, beq_iff_eq] at binds
    exact absurd binds.1 calm

theorem guarded_points (V : Prop) (e : Excuse) : PointWalk (Part.Guarded V e) False where
  kin k h := h.of_near k.near
  effAwake {p i} h x := by
    cases s : p.started
    · exact absurd (((h.points s i).2).symm.trans x) nofun
    · exact .inr s
  pointAwake {p i} h x := by
    cases s : p.started
    · exact absurd (h.points s i).1 x
    · exact .inr s
  point i f h a hf := h.movePoint (a.resolve_left id) i f hf
  activate i h a := h.activate (a.resolve_left id) i
  horn on h _ := h.of_near (Part.setHorn_near on _)

/-! ## Claims granted, lost, refused -/

theorem Part.Guarded.claim_started (h : p.Guarded V e) {k : Fin 3} (n : p.claims[k].state ≠ .idle) : p.started = true := by
  cases s : p.started
  · exact absurd (h.claims s k).1 n
  · rfl

theorem Part.Guarded.burner_started (h : p.Guarded V e) {b : Fin 2} (n : p.burners[b].state ≠ .off) : p.started = true := by
  cases s : p.started
  · exact absurd (h.burners s b) n
  · rfl

theorem Part.Guarded.used (h : p.Guarded V e) {b : Fin 2} (n : p.burners[b].state ≠ .off) :
    p.burners[b].cfg.used = true := by
  cases u : p.burners[b].cfg.used
  · exact absurd (h.unused b u) n
  · rfl

theorem Part.Guarded.yieldClaim (h : p.Guarded V e) (k : Fin 3) : (p.yieldClaim k).Guarded V e := by
  by_cases c : p.claims[k].state = .claiming
  · refine h.updRes_all (h.claim_started (k := k) (by rw [c]; nofun)) k _ ?_
    rw [if_pos c]
    exact .of_head (by rw [c]; nofun) rfl rfl rfl
  · exact h.of_near (p.updRes_kin k _ (by simp only [if_neg c, and_self])).near

theorem Part.Guarded.enterClaiming (h : p.Guarded V e) {k : Fin 3} (w : p.claims[k].state = .waiting) :
    (p.enterClaiming k).Guarded V e := by
  have s := h.claim_started (k := k) (by rw [w]; nofun)
  refine ite_keeps (fun _ => Part.Guarded.of_near ?_ (Part.queueFrame_kin _ _).near) fun _ =>
    Part.Guarded.of_near ?_ (Part.queueFrame_kin _ _).near
  · exact h.updRes_all s k _ (.of_moved (.inl w) (.inr rfl) rfl rfl)
  · exact h.updRes_all s k _ (.of_moved (.inl w) (.inl rfl) rfl rfl)

theorem Part.Guarded.claimNotice (h : p.Guarded V e) (tag : Nat) (sent : Bool) : (p.claimNotice tag sent).Guarded V e := by
  refine forAll_keeps (fun k q hq => ?_) h
  by_cases c : q.claims[k].state = .claiming ∧ q.claims[k].note = some tag
  · refine hq.updRes_all (hq.claim_started (k := k) (by rw [c.1]; nofun)) k _ ?_
    rw [if_pos c]
    cases sent
    · exact .of_moved (.inr c.1) (.inl rfl) rfl rfl
    · exact .of_moved (.inr c.1) (.inr c.1) rfl rfl
  · exact hq.of_near (q.updRes_kin k _ (by simp only [if_neg c, and_self])).near

/-- A fan in its new state, taken out of hand. -/
theorem Part.Guarded.setFan {n : Fin 4} {s : FanState} (h : p.Guarded V (e.addFan n)) (f : Fan → Fan)
    (hf : (f p.fans[n]).state = s) (light : V → s = .starting → p.holdsFor 1 n.val) : (p.updFan n f).Guarded V e :=
  { h with
    heavyStart := fun v m x starts => by
      by_cases z : m = n
      · subst z
        have self : (p.updFan m f).fans[m] = f p.fans[m] := set_self ..
        rw [self, hf] at starts
        exact light v starts
      · have other : (p.updFan n f).fans[m] = p.fans[m] := set_other _ _ _ _ z
        rw [other] at starts
        exact h.heavyStart v m (fun y => y.elim x z) starts }

theorem Part.afterFan_near (n : Fin 4) (s : FanState) (p : Part) : Near p
    (((p.updOutput (OutputImage.fanTo n s)).record (ShiftRec.updFan n (FanTotals.entered s))).offer .fan n.val s.code) := by
  refine .trans ?_ (Part.offer_kin _ _ _ _ _ _ _).near
  exact (p.updOutput_near _).trans (Part.record_same_kin _ (ShiftRec.updFan n (FanTotals.entered s)) fun _ => rfl).near

/-- A fan's change of state to one that does not start. -/
theorem Part.Guarded.fanTo {n : Fin 4} {s : FanState} (h : p.Guarded V (e.addFan n)) (hs : s ≠ .starting) :
    (p.fanTo n s).Guarded V e := by
  have left : Part.Guarded V (e.addFan n) (if s = .startWait ∨ s = .starting then p else p.withdraw 1 n.val) :=
    ite_keeps (fun _ => h) fun _ => h.withdraw 1 _ nofun fun _ m x eq => x (.inr (Fin.ext eq))
  exact (left.setFan (fun x => x.cleared s) rfl fun _ c => absurd c hs).of_near (Part.afterFan_near n s _)

theorem Part.Guarded.fanStarting {n : Fin 4} (h : p.Guarded V (e.addFan n)) (light : V → p.holdsFor 1 n.val) :
    (p.fanTo n .starting).Guarded V e :=
  (h.setFan (fun x => x.cleared .starting) rfl fun v _ => light v).of_near
    (Part.afterFan_near n .starting _)

/-- A burner that is granted LIGHT-OFF lights off or loads, taken out of hand. -/
theorem Part.Guarded.burnerGranted {b : Fin 2} {s : BurnerState} (h : p.Guarded V (e.addBurner b)) (st : p.started = true)
    (fix : Burner → Burner) (hs : s = .igniting ∨ s = .loading) (hf : ∀ x, (fix x).state = x.state ∧ (fix x).cfg = x.cfg)
    (used : p.burners[b].cfg.used = true) (calm : p.calm e b) (list : b.val ∉ p.claims[(0 : Fin 3)].waitList)
    (light : V → ¬ e.burner b → p.holdsFor 0 b.val) : (p.burnerTo b s fix).Guarded V e := by
  have same : (p.leaveFor b s).claims[(0 : Fin 3)].state = p.claims[(0 : Fin 3)].state ∧
      (p.leaveFor b s).claims[(0 : Fin 3)].user = p.claims[(0 : Fin 3)].user ∧
      (p.leaveFor b s).claims[(0 : Fin 3)].waitList = p.claims[(0 : Fin 3)].waitList := by
    have frame := p.endRamp_frame b
    obtain ⟨state, user, -⟩ := frame.same (.claim 0) (by simp [mixBlocks, leaveBlocks, sendBlocks])
    have list : (p.endRamp b).claims[(0 : Fin 3)].waitList = p.claims[(0 : Fin 3)].waitList :=
      frame.same (.waitList 0) (by simp [mixBlocks, leaveBlocks, sendBlocks])
    rcases hs with rfl | rfl
    · exact ⟨state, user, list⟩
    · exact ⟨rfl, rfl, rfl⟩
  obtain ⟨state, user, kept⟩ := same
  refine Part.Guarded.burnerTo (h.leaveFor s) st fix false hf (.inr used) (.inr (.inr calm))
    (fun m => absurd (kept ▸ m) list) (fun _ _ => hs) fun v x _ => ?_
  rw [Part.holdsFor, state, user]
  exact light v x

theorem ofNat_of_lt {n u : Nat} [NeZero n] (h : u < n) : (Fin.ofNat n u).val = u := Nat.mod_eq_of_lt h

theorem Part.Guarded.tellGranted (h : p.Guarded V .none) {k : Fin 3} {u : Nat} (c : p.claims[k].state = .claiming)
    (own : p.claims[k].user = some u) : ((p.updRes k (Resource.granted u)).tellGranted k u).Guarded V .none := by
  have s := h.claim_started (k := k) (by rw [c]; nofun)
  have self := p.updRes_claims_self k (Resource.granted u)
  have granted {e : Excuse} (h : p.Guarded V e) (ex : k = 0 → ∀ b : Fin 2, b.val = u → e.burner b) :
      (p.updRes k (Resource.granted u)).Guarded V e := h.updRes_all s k _ (.of_grant c own ex rfl rfl rfl)
  unfold Part.tellGranted
  split
  · next z =>
    subst z
    refine Part.Guarded.of_near ?_ (Part.updFan_kin _ _ _ rfl).near
    refine (granted (h.addFan (Fin.ofNat 4 u)) nofun).fanStarting fun v => ?_
    rw [Part.holdsFor, self, ofNat_of_lt (n := 4) ((h.users v 1).1 u own)]
    exact ⟨rfl, own⟩
  split
  · next z => subst z; exact (granted h nofun).of_near (Part.setRamp_near _ _ _)
  · have z : k = 0 := by omega
    subst z
    have mem := h.waiting.user u own (by rw [c]; nofun)
    have number : (Fin.ofNat 2 u).val = u := ofNat_of_lt (h.waiting.known u mem)
    have waits := h.waiting.inWait (Fin.ofNat 2 u) (number.symm ▸ mem)
    have held := granted (h.addBurner (Fin.ofNat 2 u)) fun _ b eq => .inr (Fin.ext (eq.trans number.symm))
    have calm : p.calm .none (Fin.ofNat 2 u) := h.calm fun out => by
      rcases out with x | x <;> exact absurd (waits.symm.trans x) nofun
    have moved (t : BurnerState) (ht : t = .igniting ∨ t = .loading) (fix : Burner → Burner)
        (hf : ∀ x, (fix x).state = x.state ∧ (fix x).cfg = x.cfg) :
        ((p.updRes 0 (Resource.granted u)).burnerTo (Fin.ofNat 2 u) t fix).Guarded V .none := by
      refine held.burnerGranted s fix ht hf (h.used (by rw [waits]; nofun)) calm ?_ fun _ _ => ?_
      · rw [self, number]; exact (sorted_nodup h.waiting.sorted).not_mem_erase
      · rw [Part.holdsFor, self, number]; exact ⟨rfl, own⟩
    dsimp only
    split
    · exact moved .loading (.inr rfl) _ fun _ => ⟨rfl, rfl⟩
    · exact moved .igniting (.inl rfl) _ fun _ => ⟨rfl, rfl⟩

theorem Part.Guarded.grant (h : p.Guarded V .none) {k : Fin 3} (c : p.claims[k].state = .claiming) :
    (p.grant k).Guarded V .none := by
  have s := h.claim_started (k := k) (by rw [c]; nofun)
  unfold Part.grant
  split
  · next u own =>
    refine Part.Guarded.of_near ?_ ((Part.queueFrame_kin _ _).trans (Part.offer_kin _ _ _ _ _ _ _)).near
    exact h.tellGranted c own
  · exact h

/-! ## A burner's request -/

theorem Part.Guarded.enterLoading (h : p.Guarded V .none) {b : Fin 2} (burns : p.burners[b].state = .igniting) :
    (p.enterLoading b).Guarded V .none := by
  have on : p.burners[b].state ≠ .off := by rw [burns]; nofun
  refine (h.addBurner b).burnerGranted (h.burner_started on) _ (.inr rfl) (fun _ => ⟨rfl, rfl⟩) (h.used on)
    (h.calm fun out => ?_) (fun m => ?_) fun v _ => h.lightOff v b id (.inl burns)
  · rcases out with x | x <;> exact absurd (burns.symm.trans x) nofun
  · exact absurd (burns.symm.trans (h.waiting.inWait b m)) nofun

theorem Part.Guarded.enterLightWait (h : p.Guarded V .none) {b : Fin 2} (c : BurnerState)
    (can : p.burners[b].state = .held ∨ (p.started = true ∧ p.burners[b].state = .off ∧ p.burners[b].cfg.used = true ∧
      p.tripStands b = false)) : (p.enterLightWait b c).Guarded V .none := by
  have calm : p.calm .none b := by
    rcases can with held | ⟨-, -, -, none⟩
    · exact h.calm fun out => by rcases out with x | x <;> exact absurd (held.symm.trans x) nofun
    · intro i _ binds
      have := List.any_eq_false.1 none i (List.mem_finRange i)
      simpa [binds] using this
  have st : p.started = true := can.elim (fun held => h.burner_started (b := b) (by rw [held]; nofun)) (·.1)
  have used : p.burners[b].cfg.used = true := can.elim (fun held => h.used (by rw [held]; nofun)) (·.2.2.1)
  have still : ¬ (p.burners[b].state = .igniting ∨ p.burners[b].state = .loading) := by
    rcases can with s | ⟨-, s, -⟩ <;> rw [s] <;> nofun
  have waits : (p.burnerTo b .lightWait fun x => { x with cont := some c, lightWait := some (later p.now lightWaitTime) }).Guarded V
      .none := by
    refine Part.Guarded.burnerTo ((h.addBurner b).leaveFor _) st _ false (fun _ => ⟨rfl, rfl⟩) (.inr used) (.inr (.inr calm))
      (fun _ => rfl) (fun held own => ?_) fun _ _ burns => absurd burns nofun
    have frame := p.endRamp_frame b
    obtain ⟨state, user, -⟩ := frame.same (.claim 0) (by simp [mixBlocks, leaveBlocks, sendBlocks])
    obtain ⟨c, eq, -, burns⟩ := h.waiting.held b.val (user ▸ own) (state ▸ held)
    rw [Fin.ext eq] at burns
    exact absurd (burns.resolve_left id) still
  refine waits.request 0 b.val b.isLt fun _ c eq => ?_
  rw [Fin.ext eq]
  exact Part.burnerTo_state b _ _ false p fun _ => rfl

theorem Part.Guarded.failStart {n : Fin 4} (h : p.Guarded V (e.addFan n)) : (p.failStart n).Guarded V e := by
  have marked := (guarded_points V (e.addFan n)).settlePoint (fanFailPoint n) false
    (h.of_near (p.updFan_kin n (fun x => { x with startFail := true }) rfl).near)
  exact (guarded_points V e).settlePoint _ true (marked.fanTo nofun)

theorem Part.Guarded.hold {b : Fin 2} (h : p.Guarded V (.addBurner .none b)) (conflict : Bool)
    (burns : p.burners[b].state = .igniting ∨ p.burners[b].state = .loading) : (p.hold b conflict).Guarded V .none := by
  have on : p.burners[b].state ≠ .off := by rcases burns with s | s <;> rw [s] <;> nofun
  refine h.leave (h.burner_started on) _ false rfl (fun _ => ⟨rfl, rfl⟩) (.inr (h.used on)) (.inr (.inr ?_))
  refine fun i x => h.calm (fun out => ?_) i x
  rcases burns with s | s <;> rcases out with x | x <;> exact absurd (s.symm.trans x) nofun

theorem Part.Guarded.tellAborted (h : p.Guarded V .none) {k : Fin 3} {u : Nat} (held : p.claims[k].state = .held)
    (own : p.claims[k].user = some u) : ((p.updRes k Resource.toIdle).tellAborted k u).Guarded V .none := by
  have s := h.claim_started (k := k) (by rw [held]; nofun)
  have free {e : Excuse} (h : p.Guarded V e) (burners : k = 0 → ∀ b : Fin 2, ¬ e.burner b → b.val ≠ u)
      (fans : k = 1 → ∀ n : Fin 4, ¬ e.fan n → n.val ≠ u) : (p.updRes k Resource.toIdle).Guarded V e :=
    h.updRes s k _ (keep := (· ≠ u)) (.of_idle rfl (List.Sublist.refl _) fun v ne _ eq =>
      ne (Option.some.inj (eq.symm.trans own))) burners fans
  have mod {n : Nat} [NeZero n] (m : Fin n) (ne : ¬ (False ∨ m = Fin.ofNat n u)) : m.val ≠ u := fun eq =>
    ne (.inr (Fin.ext (by rw [Fin.val_ofNat, ← eq, Nat.mod_eq_of_lt m.isLt])))
  unfold Part.tellAborted
  split
  · next z => subst z; exact (free (h.addFan _) nofun fun _ m => mod m).failStart
  split
  · next z => subst z; exact (free h nofun nofun).endRamp _
  · have z : k = 0 := by omega
    subst z
    obtain ⟨b, eq, -, burns⟩ := h.waiting.held u own held
    have number : Fin.ofNat 2 u = b := Fin.ext (by rw [Fin.val_ofNat, ← eq, Nat.mod_eq_of_lt b.isLt])
    refine (guarded_points V .none).settlePoint _ false (Part.Guarded.hold (free (h.addBurner _) (fun _ m => mod m) nofun) true ?_)
    rw [number]
    exact burns.resolve_left id

theorem Part.Guarded.conflict (h : p.Guarded V .none) {k : Fin 3} (q : Fin 16) (held : p.claims[k].state = .held) :
    (p.conflict k q).Guarded V .none := by
  unfold Part.conflict
  split
  · next u own =>
    refine Part.Guarded.of_near ?_ (Part.updRes_kin _ k _ ⟨rfl, rfl, rfl⟩).near
    refine Part.Guarded.of_near ?_ (Part.offer_kin _ _ _ _ _ _ _).near
    refine Part.Guarded.of_near ?_ (Part.beginReclaim_kin _ k).near
    exact h.tellAborted held own
  · exact h

theorem Part.Guarded.refuseSilent (h : p.Guarded V .none) (k : Fin 3) (s : p.started = true) :
    (p.refuseSilent k).Guarded V .none := by
  refine forAll_awake (L := False) (fun u q hq aq => ?_) (fun u q => ?_)
    (h.updRes_all s k _ (.of_refused rfl)) (.inr s)
  · refine ite_keeps (fun _ => (hq.addFan _).fanTo nofun) fun _ => ite_keeps (fun _ => hq.endRamp _) fun _ => ?_
    exact (hq.addBurner _).leave (aq.resolve_left id) id false rfl (fun _ => ⟨rfl, rfl⟩) (.inl rfl) (.inl rfl)
  · unfold Part.tellRefused Part.enterOff
    split <;> [exact Part.fanTo_started ..; (split <;> [exact Part.endRamp_started ..; exact Part.burnerTo_started ..])]

/-! ## Every operation -/

theorem Part.Guarded.rampStep (h : p.Guarded V e) (b : Fin 2) (r : MixRamp) : (p.rampStep b r).Guarded V e := by
  have stepped : (p.replaceMix b (p.steppedMix b r.stepped)).Guarded V e := h.of_near (Part.replaceMix_near b _ p)
  exact ite_keeps (fun _ => (stepped.of_near (Part.setRamp_near b none _)).withdraw 2 _ nofun nofun) fun _ =>
    stepped.of_near (Part.setRamp_near b _ _)

theorem Part.Guarded.setMix (h : p.Guarded V e) (b : Fin 2) (m : Vector Nat 6) : (p.setMix b m).Guarded V e := by
  unfold Part.setMix
  split
  · exact ite_keeps (fun _ => (h.of_near (p.setRamp_near b none)).withdraw 2 _ nofun nofun) fun _ => h.of_near (p.setRamp_near b _)
  · exact ite_keeps (fun _ => h.of_near (p.replaceMix_near b m)) fun _ => ite_keeps (fun _ => h) fun _ =>
      (h.of_near (p.setRamp_near b _)).request 2 _ b.isLt nofun

theorem Part.controlFan_near (n : Fin 4) (p : Part) : Near p (p.controlFan n) := by
  unfold Part.controlFan
  dsimp only
  split
  · split
    · exact (p.updFan_kin n _ rfl).near.trans (Part.updOutput_near _ _)
    · exact (p.updFan_kin n _ rfl).near
  · exact .refl p

theorem Part.writeFeeder_near (f : Fin 6) (p : Part) : Near p (p.writeFeeder f) := by
  unfold Part.writeFeeder; exact p.updOutput_near _

theorem guarded_walk (V : Prop) : Walk (Part.Guarded V .none) False where
  toPointWalk := guarded_points V .none
  service k h := h.service k
  yieldClaim k h := h.yieldClaim k
  enterClaiming _ h w := h.enterClaiming w
  claimNotice tag sent h := h.claimNotice tag sent
  grant _ h c := h.grant c
  conflict _ q h held := h.conflict q held
  refuseSilent k h s := h.refuseSilent k s
  leave b s fix mark h on free out hf := by
    refine (h.addBurner b).leave (h.burner_started on) fix mark free hf (.inr (h.used on)) ?_
    rcases out with off | tripped | up
    · exact .inl off
    · exact .inr (.inl tripped)
    · exact .inr (.inr fun i x => h.calm (fun o => o.elim on up) i x)
  enterLoading _ h burns := h.enterLoading burns
  enterLightWait _ c h can := h.enterLightWait c can
  settleFeeder f h := h.of_near (Part.settleFeeder_near f _)
  feederTo f s sp h _ := h.of_near (Part.feederTo_near f s sp _)
  writeFeeder f h _ := h.of_near (Part.writeFeeder_near f _)
  fanTo n _ h _ ns _ _ := (h.addFan n).fanTo ns
  startFan {p} n h _ _ := ((h.addFan n).fanTo (s := .startWait) nofun).request 1 n.val n.isLt nofun
  grateTo s h _ := h.of_near ((Part.grateTo_frame s _).near (by simp [lawBlocks]))
  controlFan n h _ := h.of_near (Part.controlFan_near n _)
  controlGrate h _ := h.of_near ((Part.controlGrate_frame _).near (by simp [lawBlocks]))
  setMix b m h _ _ _ := h.setMix b m
  rampStep b r h _ := h.rampStep b r

end

end Sys2Proof.Machine
end

section
/-! OBLIGATIONS O57 and O58. The law of line resources and the law of trips. -/

namespace Sys2Proof.Machine

-- One proof at a time: the whole package as one text must not start a thread for each of them.
set_option Elab.async false

open Sys2Proof.Config

section
variable {V : Prop} {p : Part}

/-- An UNSTARTED station where no resource is wanted, every burner is OFF and every point NORMAL. -/
theorem Part.guarded_of_still (users : V → p.UsersKnown) (claims : ∀ k : Fin 3, p.claims[k].state = .idle ∧ p.claims[k].waitList = [])
    (user : p.claims[(0 : Fin 3)].user = none) (burners : ∀ b : Fin 2, p.burners[b].state = .off)
    (points : ∀ i : Fin 62, p.alarms.points[i].state = .normal ∧ (p.started = false → p.alarms.points[i].eff = false))
    (fans : V → ∀ n : Fin 4, p.fans[n].state ≠ .starting) : p.Guarded V .none where
  waiting := by
    obtain ⟨state, list⟩ := claims 0
    exact ⟨list ▸ .nil, list ▸ nofun, list ▸ nofun, fun _ => user, fun _ own => absurd (user.symm.trans own) nofun,
      fun _ own => absurd (user.symm.trans own) nofun⟩
  unused b _ := burners b
  claims _ := claims
  burners _ := burners
  points s i := ⟨(points i).1, (points i).2 s⟩
  bound _ i _ _ act := absurd (points i).1 act
  users := users
  lightOff _ b _ burns := by rw [burners] at burns; rcases burns with e | e <;> cases e
  heavyStart v n _ starts := absurd starts (fans v n)

theorem Part.shutDown_guarded (p : Part) : p.shutDown.Guarded V .none := by
  refine Part.guarded_of_still (fun _ k => ?_) (fun k => ?_) ?_ (fun b => ?_) (fun i => ?_) fun _ n => ?_
  · rw [Part.shutDown_claims]; exact ⟨nofun, nofun⟩
  · rw [Part.shutDown_claims]; exact ⟨rfl, rfl⟩
  · rw [Part.shutDown_claims]; rfl
  · rw [Part.shutDown_burners]; rfl
  · rw [Part.shutDown_points]; exact ⟨rfl, fun _ => rfl⟩
  · rw [Part.shutDown_fans]; exact (Fan.initial_still _).1

/-- While UNSTARTED no fan starts that HEAVY-START would have to be HELD for. -/
theorem Part.Guarded.fan_waits (h : p.Guarded V .none) (s : p.started = false) (v : V) (n : Fin 4) :
    p.fans[n].state ≠ .starting := fun starts =>
  absurd ((h.claims s 1).1.symm.trans (h.heavyStart v n id starts).1) nofun

/-- What an UNSTARTED station sets of its configuration. -/
theorem Part.Guarded.still (h : p.Guarded V .none) (s : p.started = false) {q : Part} (claims : q.claims = p.claims)
    (burners : ∀ b : Fin 2, q.burners[b].state = .off) (points : ∀ i : Fin 62, q.alarms.points[i] = p.alarms.points[i])
    (fans : ∀ n : Fin 4, q.fans[n].state = p.fans[n].state ∨ q.fans[n].state ≠ .starting) : q.Guarded V .none := by
  refine Part.guarded_of_still (fun v => ?_) (claims ▸ h.claims s) ?_ burners (fun i => ?_) fun v n => ?_
  · unfold Part.UsersKnown; rw [claims]; exact h.users v
  · rw [claims]; exact h.waiting.idle (h.claims s 0).1
  · rw [points]; exact ⟨(h.points s i).1, fun _ => (h.points s i).2⟩
  · exact (fans n).elim (fun e => e ▸ h.fan_waits s v n) id

end

theorem guarded_settings (V : Prop) : Settings (Part.Guarded V .none) where
  powerUp straps rate eng := (Part.guarded_iff.1 ⟨Part.powerUp_tripLaw straps rate eng, fun _ => Part.powerUp_lawful straps rate eng⟩).1
  station _ h s _ := h.still s rfl (h.burners s) (fun _ => rfl) fun _ => .inl rfl
  burner {p} b c h s := by
    refine h.still s rfl (fun x => ?_) (fun _ => rfl) fun _ => .inl rfl
    by_cases e : x = b
    · subst e; exact (congrArg Burner.state (set_self ..)).trans (h.burners s x)
    · exact (congrArg Burner.state (set_other _ _ _ _ e)).trans (h.burners s x)
  feeder _ _ h s := h.still s rfl (h.burners s) (fun _ => rfl) fun _ => .inl rfl
  fan {p} n c h s := by
    refine h.still s rfl (h.burners s) (fun _ => rfl) fun m => ?_
    by_cases e : m = n
    · subst e
      have self : (p.updFan m fun _ => p.fans[m].configure c).fans[m] = p.fans[m].configure c := set_self ..
      rw [self]
      refine .inr ?_
      unfold Fan.configure
      dsimp only
      split <;> nofun
    · exact .inl (congrArg Fan.state (set_other _ _ _ _ e))
  grate _ h s := h.still s rfl (h.burners s) (fun _ => rfl) fun _ => .inl rfl
  ext _ _ h s := h.still s rfl (h.burners s) (fun _ => rfl) fun _ => .inl rfl
  start {p q} h s _ k := by
    refine Part.guarded_of_still (fun v j => ?_) (fun j => ?_) ?_ (fun b => ?_) (fun i => ?_) fun _ n => ?_
    · rw [Part.cleaned_claims, (k.claims j).2.1, (k.claims j).2.2]; exact h.users v j
    · rw [Part.cleaned_claims, (k.claims j).1, (k.claims j).2.2]; exact h.claims s j
    · rw [Part.cleaned_claims, (k.claims 0).2.1]; exact h.waiting.idle (h.claims s 0).1
    · rw [Part.cleaned_burners]; rfl
    · rw [Part.cleaned_alarms, (k.points i).1, (k.points i).2]
      exact ⟨(h.points s i).1, fun _ => (h.points s i).2⟩
    · rw [Part.cleaned_fans]; exact (Fan.initial_still _).1
  restart {p} _ := by rw [Part.restart_eq]; exact Part.shutDown_guarded _

/-- Settles O58: no operation leaves a bound burner on while a TRIP point stands; the outputs of an UNSTARTED station are
those of O59. -/
theorem stepsKeepTripLaw : Obligations.StepsKeepTripLaw := fun s t h outputs e =>
  have guarded := (Part.guarded_iff (V := False).1 ⟨h, nofun⟩).1
  (Part.guarded_iff.2 ⟨(guarded_settings False).step (guarded_walk False) guarded e,
    fun u => ((stepsKeepOutputsInAgreement s t outputs e).unstarted u).outputs⟩).1

/-- Settles O57: a burner lights off or loads, and a fan starts, in the operation that grants, and none goes on doing so
when what it holds is given up. -/
theorem stepsKeepResourceLaw : Obligations.StepsKeepResourceLaw := fun _ _ law trips e =>
  have guarded := (Part.guarded_iff (V := True).1 ⟨trips, fun _ => law⟩).1
  have kept := (guarded_settings True).step (guarded_walk True) guarded e
  ⟨kept.users trivial, fun b => kept.lightOff trivial b id, fun n => kept.heavyStart trivial n id⟩

end Sys2Proof.Machine
end

section
/-! SUPPORT. What the end of an event keeps and what it leaves: reports, queued frames, the Host Port, the open record, points
already found, and everything outside the blocks it may change. -/

namespace Sys2Proof.Machine

-- One proof at a time: the whole package as one text must not start a thread for each of them.
set_option Elab.async false

open Sys2Proof.Config

/-! ## The named sets of blocks, written out -/

section
variable {x : Block}

@[simp] theorem mem_sendBlocks : x ∈ sendBlocks ↔ x ∈ ({.queue, .txFail, .record} : Set Block) := Iff.rfl
@[simp] theorem mem_leaveBlocks {k : Fin 3} : x ∈ leaveBlocks k ↔
    x ∈ ({.claim k, .waitList k, .reclaim k, .events} : Set Block) ∨ x ∈ sendBlocks := Iff.rfl
@[simp] theorem mem_mixBlocks : x ∈ mixBlocks ↔ (x ∈ Set.range Block.feeder ∨ x ∈ Set.range Block.drive) ∨ x = .driveOut :=
  Iff.rfl
@[simp] theorem mem_burnerBlocks {b : Fin 2} : x ∈ burnerBlocks b ↔
    ((x ∈ ({.burner b, .igniters, .ramp b} : Set Block) ∨ x ∈ mixBlocks) ∨ x ∈ leaveBlocks 0) ∨ x ∈ leaveBlocks 2 := Iff.rfl
@[simp] theorem mem_fanBlocks {n : Fin 4} : x ∈ fanBlocks n ↔ x ∈ ({.fan n, .fanOut} : Set Block) ∨ x ∈ leaveBlocks 1 :=
  Iff.rfl
@[simp] theorem mem_pointBlocks : x ∈ pointBlocks ↔ x ∈ ({.points, .horn, .hornOut, .events, .record} : Set Block) := Iff.rfl
@[simp] theorem mem_tripBlocks : x ∈ tripBlocks ↔
    (((x ∈ pointBlocks ∨ x ∈ ({.firstOut, .tripSeq} : Set Block)) ∨ x ∈ sendBlocks) ∨ x ∈ burnerBlocks 0) ∨
      x ∈ burnerBlocks 1 := Iff.rfl
@[simp] theorem mem_settleBlocks : x ∈ settleBlocks ↔ (x ∈ Set.range Block.claim ∨ x = .alloc) ∨ x ∈ pointBlocks := Iff.rfl
@[simp] theorem mem_settleAllBlocks : x ∈ settleAllBlocks ↔ x ∈ tripBlocks ∨ x ∈ settleBlocks := Iff.rfl

end

section
variable {T : Set Block} {p q : Part}

/-! ## Registers outside the blocks of a change -/

/-- One change, then another. -/
theorem ChangesOnly.andThen {U : Set Block} {r : Part} (h : ChangesOnly T p q) (g : ChangesOnly U q r) :
    ChangesOnly (T ∪ U) p r := (h.mono Set.subset_union_left).next g Set.subset_union_right

theorem ChangesOnly.now_eq (h : ChangesOnly T p q) (hT : Block.clock ∉ T := by simp) : q.now = p.now := h.same .clock hT
theorem ChangesOnly.started_eq (h : ChangesOnly T p q) (hT : Block.started ∉ T := by simp) : q.started = p.started :=
  h.same .started hT
theorem ChangesOnly.burner_eq (h : ChangesOnly T p q) (b : Fin 2) (hT : Block.burner b ∉ T := by simp) :
    q.burners[b] = p.burners[b] := h.same (.burner b) hT
theorem ChangesOnly.fan_eq (h : ChangesOnly T p q) (n : Fin 4) (hT : Block.fan n ∉ T := by simp) :
    q.fans[n] = p.fans[n] := h.same (.fan n) hT
theorem ChangesOnly.grate_eq (h : ChangesOnly T p q) (hT : Block.grate ∉ T := by simp) : q.grate = p.grate :=
  h.same .grate hT
theorem ChangesOnly.ramp_eq (h : ChangesOnly T p q) (b : Fin 2) (hT : Block.ramp b ∉ T := by simp) :
    q.ramps[b] = p.ramps[b] := h.same (.ramp b) hT
theorem ChangesOnly.points_eq (h : ChangesOnly T p q) (hT : Block.points ∉ T := by simp) :
    q.alarms.points = p.alarms.points := (h.same .points hT).1
theorem ChangesOnly.ext_eq (h : ChangesOnly T p q) (hT : Block.ext ∉ T := by simp) : q.alarms.ext = p.alarms.ext :=
  h.same .ext hT
theorem ChangesOnly.queue_eq (h : ChangesOnly T p q) (hT : Block.queue ∉ T := by simp) : q.line.queue = p.line.queue :=
  (h.same .queue hT).1
theorem ChangesOnly.silent_eq (h : ChangesOnly T p q) (hT : Block.silent ∉ T := by simp) : q.line.silent = p.line.silent :=
  h.same .silent hT
theorem ChangesOnly.window_eq (h : ChangesOnly T p q) (hT : Block.engineering ∉ T := by simp) :
    q.host.window = p.host.window := (h.same .engineering hT).1
theorem ChangesOnly.shift_eq (h : ChangesOnly T p q) (hT : Block.shift ∉ T := by simp) :
    q.shift.number = p.shift.number ∧ q.shift.store = p.shift.store ∧ q.shift.pendingLoss = p.shift.pendingLoss ∧
      q.shift.closedCause = p.shift.closedCause := by
  have same : q.shift.closed = p.shift.closed := h.same .shift hT
  simp only [Shift.closed, Shift.mk.injEq, true_and] at same
  exact same
theorem ChangesOnly.current_eq (h : ChangesOnly T p q) (hT : Block.record ∉ T := by simp) :
    q.shift.current = p.shift.current := h.same .record hT

/-! ## Reports (R158) -/

/-- A report stays reported while no event leaves the queue. -/
theorem ChangesOnly.reported (h : ChangesOnly T p q) {e : Event} (r : Reported e p)
    (hT : Block.eventsOut ∉ T := by simp) : Reported e q := by
  obtain ⟨ahead, -⟩ := h.same .eventsOut hT
  exact r.imp (fun m => ahead.subset m) fun l => l.trans ahead.length_le

theorem Part.offer_reported (k : EventKind) (s v : Nat) (m : Bool) (st : Nat) (o : Option Nat) (p : Part) :
    Reported ⟨k, s, v, m, p.now, st, o⟩ (p.offer k s v m st o) := by
  rw [Part.offer_eq_withEvent]
  by_cases room : p.alarms.events.length < 32
  · exact .inl (by simp [Part.withEvent, room])
  · exact .inr (by simp [Part.withEvent, room, eventSize]; omega)

/-! ## Queued frames (R8) -/

/-- A queue with room takes the frame in, or holds its STATUS already. -/
theorem Part.queueFrame_queues {body : FrameBody} (s : p.started = true) (l : p.line.silent = false)
    (room : p.line.queue.length < 8) : ∃ f ∈ (p.queueFrame body).line.queue, f.body = body := by
  unfold Part.queueFrame
  rw [if_neg (by simp [s, l])]
  split
  · next waits =>
    obtain ⟨isStatus, waits⟩ : body = .status ∧ p.line.statusWaiting = true := by simpa using waits
    obtain ⟨f, mem, isf⟩ := List.any_eq_true.1 waits
    refine ⟨f, ?_, isStatus ▸ eq_of_beq isf⟩
    unfold Line.behindAttempt at mem
    split at mem
    · exact mem
    · exact List.mem_of_mem_tail mem
  · exact ⟨_, (p.place_queue body).mem_iff.2 (List.mem_append_right _ (List.mem_singleton_self _)), rfl⟩

/-- A frame that stands in the queue stays there while nothing leaves it. -/
theorem ChangesOnly.queued (h : ChangesOnly T p q) {body : FrameBody} (r : ∃ f ∈ p.line.queue, f.body = body)
    (hT : Block.queueOut ∉ T := by simp) : ∃ f ∈ q.line.queue, f.body = body := by
  obtain ⟨f, mem, e⟩ := r
  exact ⟨f, (h.same .queueOut hT).1 mem, e⟩

/-! ## The Host Port (R185, R190) -/

theorem Part.reply_host (cmd : Nat) (code : Code) (data : List Byte) (p : Part) :
    (p.reply cmd code data).host = p.host.answered cmd code data := by rw [Part.reply_eq_answer]; rfl

theorem Part.engineeringDone_host (cmd : Nat) (p : Part) : (p.engineeringDone cmd).host = p.host.renewed cmd p.now := rfl

/-- What leaves the blocks of the Host Port alone, then a response. -/
theorem ChangesOnly.answered (h : ChangesOnly T p q) (cmd : Nat) (code : Code) (data : List Byte)
    (hT : Block.buffer ∉ T ∧ Block.response ∉ T ∧ Block.enables ∉ T ∧ Block.engineering ∉ T ∧ Block.dataOut ∉ T := by simp) :
    (q.reply cmd code data).host = p.host.answered cmd code data := by
  obtain ⟨buffer, response, enables, engineering, dataOut⟩ := hT
  rw [Part.reply_host, h.host_eq buffer response enables engineering dataOut]

theorem ChangesOnly.renewed (h : ChangesOnly T p q) (cmd : Nat)
    (hT : Block.buffer ∉ T ∧ Block.response ∉ T ∧ Block.enables ∉ T ∧ Block.engineering ∉ T ∧ Block.dataOut ∉ T := by simp)
    (clock : Block.clock ∉ T := by simp) : (q.engineeringDone cmd).host = p.host.renewed cmd p.now := by
  obtain ⟨buffer, response, enables, engineering, dataOut⟩ := hT
  rw [Part.engineeringDone_host, h.host_eq buffer response enables engineering dataOut, show q.now = p.now from h.same .clock clock]

end

end Sys2Proof.Machine
end

section
/-! SUPPORT. What a burner's, a fan's and the grate's change of state leave: the state, its outputs, its report, and the line
resource given back. -/

namespace Sys2Proof.Machine

-- One proof at a time: the whole package as one text must not start a thread for each of them.
set_option Elab.async false

open Sys2Proof.Config

section
variable {p : Part}

/-! ## A line resource given back (R48, R49) -/

/-- A user that has withdrawn holds nothing. -/
theorem Part.withdraw_holdsNot (k : Fin 3) (u : Nat) (p : Part) : ¬ (p.withdraw k u).holdsFor k u := by
  obtain ⟨f, near, w⟩ := p.withdraw_near k u
  rintro ⟨held, own⟩
  have state := (near.claims k).1.symm.trans held
  have user := (near.claims k).2.1.symm.trans own
  rw [Part.updRes_claims_self] at state user
  cases w with
  | released _ _ idle => exact nomatch idle.symm.trans state
  | dropped _ _ idle => exact nomatch idle.symm.trans state
  | next _ _ waits => exact nomatch waits.symm.trans state
  | left idle same own => exact nomatch (idle (own.symm.trans user)).symm.trans (same.symm.trans state)

/-- Whoever holds k after a withdrawal held it before. -/
theorem Part.withdraw_held {k j : Fin 3} {u v : Nat} (h : (p.withdraw k u).holdsFor j v) : p.holdsFor j v := by
  by_cases e : j = k
  · subst e
    obtain ⟨f, near, w⟩ := p.withdraw_near j u
    have state := (near.claims j).1.symm.trans h.1
    have user := (near.claims j).2.1.symm.trans h.2
    rw [Part.updRes_claims_self] at state user
    cases w with
    | released _ _ idle => exact nomatch idle.symm.trans state
    | dropped _ _ idle => exact nomatch idle.symm.trans state
    | next _ _ waits => exact nomatch waits.symm.trans state
    | left _ same own => exact ⟨same.symm.trans state, own.symm.trans user⟩
  · obtain ⟨state, user, -⟩ := (p.withdraw_frame k u).same (.claim j) (by simp [e])
    exact ⟨state ▸ h.1, user ▸ h.2⟩

/-- A user keeps what it holds while another withdraws. -/
theorem Part.withdraw_keepsHeld {k j : Fin 3} {u v : Nat} (h : p.holdsFor j v) (other : j = k → v ≠ u) :
    (p.withdraw k u).holdsFor j v := by
  by_cases e : j = k
  · subst e
    obtain ⟨held, own⟩ := h
    have ne : p.claims[j].user ≠ some u := fun x => other rfl (Option.some.inj (own.symm.trans x))
    have frame : p.withdraw j u = p.updRes j fun r => { r with waitList := r.waitList.erase u } := by
      simp only [Part.withdraw, beq_iff_eq, Bool.and_eq_true, ne, false_and, if_false]
    rw [frame]
    exact ⟨by rw [Part.updRes_claims_self]; exact held, by rw [Part.updRes_claims_self]; exact own⟩
  · obtain ⟨state, user, -⟩ := (p.withdraw_frame k u).same (.claim j) (by simp [e])
    exact ⟨state.trans h.1, user.trans h.2⟩

theorem ChangesOnly.holdsFor {T : Set Block} {p q : Part} (h : ChangesOnly T p q) (k : Fin 3) (u : Nat)
    (hT : Block.claim k ∉ T := by simp) : q.holdsFor k u ↔ p.holdsFor k u := by
  obtain ⟨state, user, -⟩ := h.same (.claim k) hT
  unfold Part.holdsFor
  rw [state, user]

/-! ## Burners (R77, R78, R93) -/

/-- What follows a burner's new state: its feeders, its counts and its report. -/
theorem Part.afterBurner_frame (b : Fin 2) (s : BurnerState) (mark : Bool) (p : Part) :
    ChangesOnly (Set.range .drive ∪ {.driveOut, .record, .events}) p
      ((((if s = .off ∨ s = .held ∨ s = .tripped then p.zeroSetpoints b else p).settleFeedersOf b).record
        (ShiftRec.updBurner b (BurnerTotals.entered s))).offer .burner b.val s.code mark) := by
  have zeroed : ChangesOnly (Set.range .drive ∪ {.driveOut, .record, .events}) p
      (if s = .off ∨ s = .held ∨ s = .tripped then p.zeroSetpoints b else p) := .ite (p.zeroSetpoints_frame b).mono .refl
  exact ((zeroed.next (Part.settleFeedersOf_frame b _)).next (Part.record_frame _ _)).next (Part.offer_frame ..)

theorem Part.burnerTo_burner (b : Fin 2) (s : BurnerState) (fix : Burner → Burner) (p : Part) (mark : Bool) :
    (p.burnerTo b s fix mark).burners[b] = fix (p.burners[b].cleared s) := by
  have left : (p.leaveFor b s).burners[b] = p.burners[b] := (p.leaveFor_frame b s).same (.burner b) (by simp)
  have after := (Part.afterBurner_frame b s mark (((p.leaveFor b s).updBurner b fun x => fix (x.cleared s)).updOutput fun o =>
    { o with igniter := o.igniter.set b (s == .igniting) })).same (.burner b) (by simp)
  refine Eq.trans after ?_
  rw [← left]
  exact set_self ..

theorem Part.burnerTo_igniter (b : Fin 2) (s : BurnerState) (fix : Burner → Burner) (p : Part) (mark : Bool) :
    (p.burnerTo b s fix mark).field.output.igniter[b] = (s == .igniting) := by
  have after := (Part.afterBurner_frame b s mark (((p.leaveFor b s).updBurner b fun x => fix (x.cleared s)).updOutput fun o =>
    { o with igniter := o.igniter.set b (s == .igniting) })).same .igniters (by simp)
  exact (congrArg (·[b]) after).trans (set_self ..)

theorem Part.burnerTo_igniter_other {b c : Fin 2} (ne : c ≠ b) (s : BurnerState) (fix : Burner → Burner) (p : Part)
    (mark : Bool) : (p.burnerTo b s fix mark).field.output.igniter[c] = p.field.output.igniter[c] := by
  have left := (p.leaveFor_frame b s).same .igniters (by simp)
  have after := (Part.afterBurner_frame b s mark (((p.leaveFor b s).updBurner b fun x => fix (x.cleared s)).updOutput fun o =>
    { o with igniter := o.igniter.set b (s == .igniting) })).same .igniters (by simp)
  exact ((congrArg (·[c]) after).trans (set_other _ _ _ _ ne)).trans (congrArg (·[c]) left)

theorem Part.burnerTo_reported (b : Fin 2) (s : BurnerState) (fix : Burner → Burner) (p : Part) (mark : Bool) :
    Reported ⟨.burner, b.val, s.code, mark, p.now, 0, none⟩ (p.burnerTo b s fix mark) := by
  have now : (p.burnerTo b s fix mark).now = p.now := (p.burnerTo_frame b s fix mark).same .clock (by simp)
  rw [← now]
  exact Part.offer_reported ..

/-- A burner that neither waits for LIGHT-OFF nor holds it has given it up. -/
theorem Part.burnerTo_holdsNot {b : Fin 2} {s : BurnerState} (free : s.free = true) (fix : Burner → Burner) (p : Part)
    (mark : Bool) : ¬ (p.burnerTo b s fix mark).holdsFor 0 b.val := by
  have after := (Part.afterBurner_frame b s mark (((p.leaveFor b s).updBurner b fun x => fix (x.cleared s)).updOutput fun o =>
    { o with igniter := o.igniter.set b (s == .igniting) })).holdsFor 0 b.val
  have left : ¬ (p.leaveFor b s).holdsFor 0 b.val := by
    have ends : ¬ (s = .lightWait ∨ s = .igniting ∨ s = .loading) := by
      simpa [BurnerState.free, not_or, and_assoc] using free
    unfold Part.leaveFor
    rw [if_neg ends]
    split
    · exact p.withdraw_holdsNot 0 _
    · exact fun h => p.withdraw_holdsNot 0 _ (((Part.endRamp_frame b _).holdsFor 0 _).1 h)
  exact fun h => left (after.1 h)

/-! ## Fans (R123, R136) -/

/-- What follows a fan's new state: its counts and its report. -/
theorem Part.afterFan_frame (n : Fin 4) (s : FanState) (p : Part) : ChangesOnly {.record, .events} p
    ((p.record (ShiftRec.updFan n (FanTotals.entered s))).offer .fan n.val s.code) :=
  (p.record_frame _).mono.next (Part.offer_frame ..)

/-- What comes before a fan's new state: HEAVY-START given back where the new state has none. -/
def Part.leaveForFan (n : Fin 4) (s : FanState) (p : Part) : Part :=
  if s = .startWait ∨ s = .starting then p else p.withdraw 1 n.val

theorem Part.leaveForFan_frame (n : Fin 4) (s : FanState) (p : Part) : ChangesOnly (leaveBlocks 1) p (p.leaveForFan n s) :=
  .ite .refl (p.withdraw_frame 1 _)

theorem Part.fanTo_eq (n : Fin 4) (s : FanState) (p : Part) : p.fanTo n s =
    ((((p.leaveForFan n s).updFan n fun x => x.cleared s).updOutput (OutputImage.fanTo n s)).record
      (ShiftRec.updFan n (FanTotals.entered s))).offer .fan n.val s.code := rfl

theorem Part.fanTo_fan (n : Fin 4) (s : FanState) (p : Part) : (p.fanTo n s).fans[n] = p.fans[n].cleared s := by
  have left : (p.leaveForFan n s).fans[n] = p.fans[n] := (p.leaveForFan_frame n s).same (.fan n) (by simp)
  rw [Part.fanTo_eq]
  refine Eq.trans ((Part.afterFan_frame n s _).fan_eq n) ?_
  rw [← left]
  exact set_self ..

theorem Part.fanTo_outputs (n : Fin 4) (s : FanState) (p : Part) :
    (p.fanTo n s).field.output.fanSpeed = (OutputImage.fanTo n s p.field.output).fanSpeed ∧
    (p.fanTo n s).field.output.fanRun = (OutputImage.fanTo n s p.field.output).fanRun := by
  obtain ⟨speed, run⟩ := (p.leaveForFan_frame n s).same .fanOut (by simp)
  obtain ⟨speed', run'⟩ := (Part.afterFan_frame n s (((p.leaveForFan n s).updFan n fun x => x.cleared s).updOutput
    (OutputImage.fanTo n s))).same .fanOut (by simp)
  rw [Part.fanTo_eq, speed', run']
  show (OutputImage.fanTo n s (p.leaveForFan n s).field.output).fanSpeed = _ ∧
    (OutputImage.fanTo n s (p.leaveForFan n s).field.output).fanRun = _
  cases s <;> simp only [OutputImage.fanTo, speed, run, and_self]

/-- A fan that neither starts nor runs has its outputs off. -/
theorem Part.fanTo_off {n : Fin 4} {s : FanState} (h : s ≠ .starting) (r : s ≠ .running) (p : Part) :
    (p.fanTo n s).field.output.fanRun[n] = false ∧ (p.fanTo n s).field.output.fanSpeed[n] = 0 := by
  obtain ⟨speed, run⟩ := p.fanTo_outputs n s
  rw [speed, run]
  cases s with
  | starting => exact absurd rfl h
  | running => exact absurd rfl r
  | _ => exact ⟨set_self .., set_self ..⟩

theorem Part.fanTo_reported (n : Fin 4) (s : FanState) (p : Part) :
    Reported ⟨.fan, n.val, s.code, false, p.now, 0, none⟩ (p.fanTo n s) := by
  have now : (p.fanTo n s).now = p.now := (p.fanTo_frame n s).same .clock (by simp)
  rw [← now]
  exact Part.offer_reported ..

/-- A fan that neither waits for HEAVY-START nor starts has given it up. -/
theorem Part.fanTo_holdsNot {n : Fin 4} {s : FanState} (free : ¬ (s = .startWait ∨ s = .starting)) (p : Part) :
    ¬ (p.fanTo n s).holdsFor 1 n.val := by
  have left : ¬ (p.leaveForFan n s).holdsFor 1 n.val := by
    unfold Part.leaveForFan
    rw [if_neg free]
    exact p.withdraw_holdsNot 1 _
  rw [Part.fanTo_eq]
  exact fun h => left (((Part.afterFan_frame n s _).holdsFor 1 n.val).1 h)

/-! ## The grate (R133) -/

theorem Part.grateTo_grate (s : GrateState) (p : Part) :
    (p.grateTo s).grate = { p.grate with state := s, fbLoss := none, fault := false } :=
  (Part.offer_frame ..).same .grate (by simp)

theorem Part.grateTo_running (p : Part) : (p.grateTo .running).field.output.grateRun = true ∧
    (p.grateTo .running).field.output.grateSpeed = p.grate.cfg.minSpeed := by
  obtain ⟨speed, run⟩ := (Part.offer_frame .grate 0 GrateState.running.code false 0 none
    ((p.updGrate fun g => { g with state := .running, fbLoss := none, fault := false }).updOutput fun o =>
      { o with grateRun := true, grateSpeed := p.grate.cfg.minSpeed })).same .grateOut (by simp)
  exact ⟨run, speed⟩

theorem Part.grateTo_stopped (p : Part) : (p.grateTo .stopped).field.output.grateRun = false ∧
    (p.grateTo .stopped).field.output.grateSpeed = 0 := by
  obtain ⟨speed, run⟩ := (Part.offer_frame .grate 0 GrateState.stopped.code false 0 none
    ((p.updGrate fun g => { g with state := .stopped, fbLoss := none, fault := false }).updOutput fun o =>
      { o with grateRun := false, grateSpeed := 0 })).same .grateOut (by simp)
  exact ⟨run, speed⟩

theorem Part.grateTo_reported (s : GrateState) (p : Part) :
    Reported ⟨.grate, 0, s.code, false, p.now, 0, none⟩ (p.grateTo s) := Part.offer_reported ..

end

end Sys2Proof.Machine
end

section
/-! SUPPORT. The heading of the open shift record: what no count, activation or trip of an event changes. -/

namespace Sys2Proof.Machine

-- One proof at a time: the whole package as one text must not start a thread for each of them.
set_option Elab.async false

open Sys2Proof.Config

/-- The record s has the heading, marks and note of r, and a first trip where r has one. -/
structure ShiftRec.SameHead (r s : ShiftRec) : Prop where
  number : s.number = r.number
  origin : s.origin = r.origin
  openTime : s.openTime = r.openTime
  closeTime : s.closeTime = r.closeTime
  incomplete : s.incomplete = r.incomplete
  gap : s.gap = r.gap
  calibration : s.calibration = r.calibration
  engineering : s.engineering = r.engineering
  unreadLost : s.unreadLost = r.unreadLost
  note : s.note = r.note
  firstTrip : r.firstTrip ≠ none → s.firstTrip ≠ none

theorem ShiftRec.SameHead.refl (r : ShiftRec) : r.SameHead r := ⟨rfl, rfl, rfl, rfl, rfl, rfl, rfl, rfl, rfl, rfl, id⟩

theorem ShiftRec.SameHead.trans {r s t : ShiftRec} (h : r.SameHead s) (g : s.SameHead t) : r.SameHead t where
  number := g.number.trans h.number
  origin := g.origin.trans h.origin
  openTime := g.openTime.trans h.openTime
  closeTime := g.closeTime.trans h.closeTime
  incomplete := g.incomplete.trans h.incomplete
  gap := g.gap.trans h.gap
  calibration := g.calibration.trans h.calibration
  engineering := g.engineering.trans h.engineering
  unreadLost := g.unreadLost.trans h.unreadLost
  note := g.note.trans h.note
  firstTrip := g.firstTrip ∘ h.firstTrip

theorem ShiftRec.activation_head (c : AlarmClass) (r : ShiftRec) : r.SameHead (r.activation c) := by
  cases c <;> exact ⟨rfl, rfl, rfl, rfl, rfl, rfl, rfl, rfl, rfl, rfl, id⟩

theorem ShiftRec.tripped_head (e : TripEntry) (r : ShiftRec) : r.SameHead (r.tripped e) ∧ (r.tripped e).firstTrip ≠ none := by
  have some : r.firstTrip.or (some e) ≠ none := by cases r.firstTrip <;> simp
  unfold ShiftRec.tripped
  dsimp only
  split <;> exact ⟨⟨rfl, rfl, rfl, rfl, rfl, rfl, rfl, rfl, rfl, rfl, fun _ => some⟩, some⟩

/-- From p to q the open record stays open under its heading, and none opens. -/
def RecordKept (p q : Part) : Prop := Option.Rel ShiftRec.SameHead p.shift.current q.shift.current

theorem RecordKept.of_eq {p q : Part} (h : q.shift.current = p.shift.current) : RecordKept p q := by
  unfold RecordKept
  rw [h]
  cases p.shift.current with
  | none => exact .none
  | some r => exact .some (.refl r)

theorem RecordKept.refl (p : Part) : RecordKept p p := .of_eq rfl

theorem RecordKept.trans {p q r : Part} (h : RecordKept p q) (g : RecordKept q r) : RecordKept p r := by
  unfold RecordKept at *
  generalize p.shift.current = x, q.shift.current = y, r.shift.current = z at h g
  cases h with
  | none => cases g; exact .none
  | some xy =>
    cases g with
    | some yz => exact .some (xy.trans yz)

/-- The open record is found open again. -/
theorem RecordKept.current {p q : Part} (h : RecordKept p q) {r : ShiftRec} (e : p.shift.current = some r) :
    ∃ s, q.shift.current = some s ∧ r.SameHead s := by
  unfold RecordKept at h
  rw [e] at h
  generalize q.shift.current = y at h ⊢
  cases h with
  | some head => exact ⟨_, rfl, head⟩

/-- The open record was open before. -/
theorem RecordKept.before {p q : Part} (h : RecordKept p q) {s : ShiftRec} (e : q.shift.current = some s) :
    ∃ r, p.shift.current = some r ∧ r.SameHead s := by
  unfold RecordKept at h
  rw [e] at h
  generalize p.shift.current = x at h ⊢
  cases h with
  | some head => exact ⟨_, rfl, head⟩

theorem RecordKept.ite {c : Prop} [Decidable c] {p q r : Part} (h : RecordKept p q) (g : RecordKept p r) :
    RecordKept p (if c then q else r) := by
  split
  · exact h
  · exact g

theorem RecordKept.forAll {α : Type} {f : α → Part → Part} (h : ∀ a p, RecordKept p (f a p)) (l : List α) (p : Part) :
    RecordKept p (p.forAll l f) := by
  induction l generalizing p with
  | nil => exact .refl p
  | cons a l ih => exact (h a p).trans (ih _)

theorem ChangesOnly.recordKept {T : Set Block} {p q : Part} (h : ChangesOnly T p q) (hT : Block.record ∉ T := by simp) :
    RecordKept p q := .of_eq (h.current_eq hT)

section
variable (p : Part)

theorem Part.record_kept (f : ShiftRec → ShiftRec) (h : ∀ r : ShiftRec, r.SameHead (f r)) : RecordKept p (p.record f) := by
  unfold RecordKept
  rw [Part.record_shift]
  show Option.Rel _ _ (p.shift.current.map f)
  cases p.shift.current with
  | none => exact .none
  | some r => exact .some (h r)

/-- A count of the record: the heading is not touched. -/
theorem Part.record_count_kept (f : ShiftRec → ShiftRec)
    (h : ∀ r : ShiftRec, r.SameHead (f r) := by exact fun _ => ⟨rfl, rfl, rfl, rfl, rfl, rfl, rfl, rfl, rfl, rfl, id⟩) :
    RecordKept p (p.record f) := p.record_kept f h

theorem Part.queueFrame_kept (body : FrameBody) : RecordKept p (p.queueFrame body) := by
  have placed : RecordKept p (p.place body) := (p.place_frame body).1.recordKept
  have failed : RecordKept p p.transmitFailure := Part.record_count_kept _ fun r => { r with failures := r.failures + 1 }
  exact .ite (.refl p) (.ite (.refl p) (.ite placed failed))

theorem Part.withdraw_kept (k : Fin 3) (u : Nat) : RecordKept p (p.withdraw k u) := by
  have moved (f : Resource → Resource) (q : Part) : RecordKept q (q.updRes k f) := .of_eq rfl
  have reclaims (q : Part) : RecordKept q (q.beginReclaim k) := (q.beginReclaim_frame k).recordKept
  have released : RecordKept p (p.release k) :=
    (((p.queueFrame_kept _).trans (moved _ _)).trans (Part.offer_frame ..).recordKept).trans (reclaims _)
  exact .ite released (.ite ((((moved _ p).trans (Part.queueFrame_kept _ _)).trans (moved _ _)).trans (reclaims _)) (.ite ((moved _ p).trans (Part.service_frame k _).recordKept) (moved _ p)))

theorem Part.endRamp_kept (b : Fin 2) : RecordKept p (p.endRamp b) := by
  unfold Part.endRamp
  split
  · exact ((p.replaceMix_frame b _).recordKept.trans (Part.setRamp_frame b none _).recordKept).trans (Part.withdraw_kept _ _ _)
  · exact .refl p

theorem Part.leaveFor_kept (b : Fin 2) (s : BurnerState) : RecordKept p (p.leaveFor b s) := by
  have gone : RecordKept p (if s = .lightWait ∨ s = .igniting ∨ s = .loading then p else p.withdraw 0 b.val) :=
    .ite (.refl p) (p.withdraw_kept 0 _)
  exact .ite gone (gone.trans (Part.endRamp_kept _ b))

theorem Part.burnerTo_kept (b : Fin 2) (s : BurnerState) (fix : Burner → Burner) (mark : Bool) :
    RecordKept p (p.burnerTo b s fix mark) := by
  have zeroed (q : Part) : RecordKept q (if s = .off ∨ s = .held ∨ s = .tripped then q.zeroSetpoints b else q) :=
    .ite (q.zeroSetpoints_frame b).recordKept (.refl q)
  have moved : RecordKept p (((p.leaveFor b s).updBurner b fun x => fix (x.cleared s)).updOutput fun o =>
      { o with igniter := o.igniter.set b (s == .igniting) }) := (p.leaveFor_kept b s).trans (.of_eq rfl)
  exact (((moved.trans (zeroed _)).trans (Part.settleFeedersOf_frame b _).recordKept).trans
    (Part.record_count_kept _ (ShiftRec.updBurner b (BurnerTotals.entered s)))).trans (Part.offer_frame ..).recordKept

theorem Part.tripBurner_kept (b : Fin 2) : RecordKept p (p.tripBurner b) := .ite (.refl p) (p.burnerTo_kept b _ _ _)

theorem Part.evaluate_kept : RecordKept p p.evaluate :=
  .ite (Part.record_count_kept { p with alloc := p.evaluated } fun r => { r with peak := max r.peak p.evaluated.dEff })
    (.refl p)

theorem Part.announce_kept (i : Fin 62) : RecordKept p (p.announce i) := .of_eq rfl

theorem Part.sounded_kept (i : Fin 62) : RecordKept p (p.sounded i) :=
  .ite ((p.announce_kept i).trans (Part.setHorn_frame true _).recordKept) (p.announce_kept i)

theorem Part.tripBound_kept (b : Binding) : RecordKept p (p.tripBound b) := by
  cases b with
  | none => exact .refl p
  | station => exact (p.tripBurner_kept 0).trans (Part.tripBurner_kept _ 1)
  | burner b => exact p.tripBurner_kept b

theorem Part.tripLine_kept (i : Fin 62) : RecordKept p (p.tripLine i) :=
  .trans (.of_eq rfl) (Part.queueFrame_kept (p.updAlarms fun a => { a with tripSeq := a.tripSeq + 1 }) _)

theorem Part.fillFirstOut_kept (i : Fin 62) (o : Option Origin) : RecordKept p (p.fillFirstOut i o) := .of_eq rfl

/-- A TRIP activation stands in the open record (R146). -/
theorem Part.actTrip_kept (i : Fin 62) : RecordKept p (p.actTrip i) ∧
    ∀ r, (p.actTrip i).shift.current = some r → r.firstTrip ≠ none := by
  unfold Part.actTrip
  dsimp only
  generalize filled : ((p.tripBound (p.pointAttr i).binding).fillFirstOut i
    (if i = 2 then p.alarms.points[i].origin else none)) = q
  have kept : RecordKept p q := filled ▸ (p.tripBound_kept _).trans (Part.fillFirstOut_kept _ i _)
  have entered (e : TripEntry) : RecordKept q (q.record (ShiftRec.tripped e)) := q.record_kept _ fun r => (r.tripped_head e).1
  have stands (e : TripEntry) : ∀ r, (q.record (ShiftRec.tripped e)).shift.current = some r → r.firstTrip ≠ none := by
    intro r h
    rw [Part.record_shift] at h
    obtain ⟨s, -, rfl⟩ := Option.map_eq_some_iff.1 h
    exact (s.tripped_head e).2
  split
  · refine ⟨(kept.trans (entered _)).trans (Part.tripLine_kept _ i), fun r h => ?_⟩
    obtain ⟨s, hs, head⟩ := (Part.tripLine_kept _ i).before h
    exact head.firstTrip (stands _ s hs)
  · exact ⟨kept.trans (entered _), stands _⟩

theorem Part.activate_kept (i : Fin 62) : RecordKept p (p.activate i) := by
  have counted := (p.sounded_kept i).trans
    (Part.record_kept _ _ (ShiftRec.activation_head (p.pointAttr i).cls))
  rw [Part.activate_eq]
  exact .ite (counted.trans (Part.actTrip_kept _ i).1) counted

theorem Part.movePoint_kept (i : Fin 62) (s : PointState) : RecordKept p (p.movePoint i s) := .of_eq rfl

theorem Part.risePoint_kept (i : Fin 62) : RecordKept p (p.risePoint i) := by
  unfold Part.risePoint
  split
  · exact p.activate_kept i
  · exact p.activate_kept i
  · exact p.movePoint_kept i _
  · exact .refl p

theorem Part.fallPoint_kept (i : Fin 62) : RecordKept p (p.fallPoint i) := by
  unfold Part.fallPoint
  split
  · exact p.movePoint_kept i _
  · exact .ite (p.movePoint_kept i _) (p.movePoint_kept i _)
  · exact .refl p

theorem Part.settlePoint_kept (i : Fin 62) (same : Bool) : RecordKept p (p.settlePoint i same) := by
  have found : RecordKept p (p.updPoint i fun x => { x with eff := p.effective i }) := .of_eq rfl
  have fallen := found.trans (Part.fallPoint_kept _ i)
  exact .ite (.refl p) (.ite found (.ite (found.trans (Part.risePoint_kept _ i))
    (.ite (fallen.trans (Part.hornCheck_frame _).recordKept) fallen)))

theorem Part.settlePoints_kept (l : List (Fin 62)) : RecordKept p (p.settlePoints l) :=
  .forAll (fun i p => p.settlePoint_kept i false) l p

theorem Part.settle_kept : RecordKept p p.settle :=
  ((p.serviceAll_frame.recordKept.trans (Part.freezeAll_frame _).recordKept).trans (Part.evaluate_kept _)).trans
    (Part.settlePoints_kept _ _)

theorem Part.autoResume_kept (b : Fin 2) : RecordKept p (p.autoResume b) := by
  have resumed : RecordKept p (p.resume b) := by
    unfold Part.resume
    split
    · exact p.burnerTo_kept b _ _ _
    · exact (p.burnerTo_kept b _ _ _).trans (Part.request_frame 0 _ _).recordKept
  exact .ite resumed (.refl p)

theorem Part.settleHolds_kept : RecordKept p p.settleHolds :=
  .forAll (fun b p => (p.followCauses_frame b).recordKept.trans (Part.autoResume_kept _ b)) _ p

theorem Part.settleAll_kept : RecordKept p p.settleAll :=
  ((p.settlePoints_kept _).trans (Part.settleHolds_kept _)).trans (Part.settle_kept _)

end

end Sys2Proof.Machine
end

section
/-! SUPPORT. What the end of an event keeps: marks once set, the first-out record, burners that are out or not held, line
resources, and the conditions of the TRIP points. -/

namespace Sys2Proof.Machine

-- One proof at a time: the whole package as one text must not start a thread for each of them.
set_option Elab.async false

open Sys2Proof.Config

/-- Burner b is as it was, with its igniter, its mix ramp and what it holds. -/
structure BurnerKept (b : Fin 2) (p q : Part) : Prop where
  burner : q.burners[b] = p.burners[b]
  igniter : q.field.output.igniter[b] = p.field.output.igniter[b]
  ramp : q.ramps[b] = p.ramps[b]
  lightOff : p.holdsFor 0 b.val → q.holdsFor 0 b.val
  mixChange : p.holdsFor 2 b.val → q.holdsFor 2 b.val

/-- Burner b has been tripped. -/
structure BurnerTripped (b : Fin 2) (p q : Part) : Prop where
  was : ¬ p.burners[b].out
  burner : q.burners[b] = p.burners[b].cleared .tripped
  igniter : q.field.output.igniter[b] = false

/-- Marks that activations set stand (R145, R146, R154, R155). -/
structure MarksKept (p q : Part) : Prop where
  tripNew : p.alarms.tripNew = true → q.alarms.tripNew = true
  tripSeen : p.alarms.seen.trip = true → q.alarms.seen.trip = true
  autoResume : p.alarms.autoResume = false → q.alarms.autoResume = false
  firstOut : ∀ r, p.alarms.firstOut = some r → ∃ s, q.alarms.firstOut = some s ∧ s.point = r.point ∧ s.time = r.time

/-- What the end of an event keeps from p to q, where it may trip the burners of L. -/
structure Onward (L : Fin 2 → Prop) (p q : Part) : Prop extends MarksKept p q where
  started : q.started = p.started
  mode : q.mode = p.mode
  ext : q.alarms.ext = p.alarms.ext
  record : RecordKept p q
  /-- no condition of a TRIP point comes up (R140) -/
  conditions : ∀ i : Fin 62, (p.pointAttr i).cls = .trip → q.condition i = true → p.condition i = true
  burners : ∀ b : Fin 2, p.burners[b].state ≠ .held →
    BurnerKept b p q ∨ (L b ∧ BurnerTripped b p q)
  holds : ∀ (k : Fin 3) (u : Nat), q.holdsFor k u → p.holdsFor k u

theorem BurnerKept.refl (b : Fin 2) (p : Part) : BurnerKept b p p := ⟨rfl, rfl, rfl, id, id⟩

theorem BurnerKept.trans {b : Fin 2} {p q r : Part} (h : BurnerKept b p q) (g : BurnerKept b q r) : BurnerKept b p r :=
  ⟨g.burner.trans h.burner, g.igniter.trans h.igniter, g.ramp.trans h.ramp, g.lightOff ∘ h.lightOff,
    g.mixChange ∘ h.mixChange⟩

theorem MarksKept.refl (p : Part) : MarksKept p p := ⟨id, id, id, fun r h => ⟨r, h, rfl, rfl⟩⟩

theorem MarksKept.trans {p q r : Part} (h : MarksKept p q) (g : MarksKept q r) : MarksKept p r where
  tripNew := g.tripNew ∘ h.tripNew
  tripSeen := g.tripSeen ∘ h.tripSeen
  autoResume := g.autoResume ∘ h.autoResume
  firstOut x hx := by
    obtain ⟨y, hy, point, time⟩ := h.firstOut x hx
    obtain ⟨z, hz, point', time'⟩ := g.firstOut y hy
    exact ⟨z, hz, point'.trans point, time'.trans time⟩

theorem ChangesOnly.marksKept {T : Set Block} {p q : Part} (h : ChangesOnly T p q)
    (hT : Block.points ∉ T ∧ Block.firstOut ∉ T := by simp) : MarksKept p q := by
  obtain ⟨-, seen, auto⟩ := h.same .points hT.1
  obtain ⟨first, new⟩ := h.same .firstOut hT.2
  exact ⟨new.trans, (congrArg ClassFlags.trip seen).trans, auto.trans, fun r e => ⟨r, first.trans e, rfl, rfl⟩⟩

namespace Onward

variable {L : Fin 2 → Prop} {p q r : Part}

theorem refl (p : Part) : Onward L p p :=
  ⟨.refl p, rfl, rfl, rfl, .refl p, fun _ _ => id, fun b _ => .inl (.refl b p),
    fun _ _ => id⟩

theorem attr (h : Onward L p q) (i : Fin 62) : q.pointAttr i = p.pointAttr i := Part.pointAttr_congr (fun n => by rw [h.ext]) i

theorem effective (h : Onward L p q) {i : Fin 62} (c : (p.pointAttr i).cls = .trip) (e : q.effective i = true) :
    p.effective i = true := by
  simp only [Part.effective, Bool.and_eq_true] at e ⊢
  obtain ⟨⟨started, cond⟩, armed⟩ := e
  unfold Part.pointArmed at armed ⊢
  rw [h.attr, h.mode] at armed
  exact ⟨⟨h.started.symm.trans started, h.conditions i c cond⟩, armed⟩

theorem quietFor (h : Onward L p q) {b : Fin 2} (quiet : p.QuietFor b) : q.QuietFor b := by
  intro i binds
  have same : p.bindsBurner b i = true := by simpa only [Part.bindsBurner, h.attr] using binds
  have c : (p.pointAttr i).cls = .trip := by
    simp only [Part.bindsBurner, Bool.and_eq_true, beq_iff_eq] at same
    exact same.1
  rw [Bool.eq_false_iff]
  exact fun e => Bool.eq_false_iff.1 (quiet i same) (h.effective c e)

theorem trans (h : Onward L p q) (g : Onward L q r) : Onward L p r where
  toMarksKept := h.toMarksKept.trans g.toMarksKept
  started := g.started.trans h.started
  mode := g.mode.trans h.mode
  ext := g.ext.trans h.ext
  record := h.record.trans g.record
  conditions i c e := h.conditions i c (g.conditions i ((congrArg PointAttr.cls (h.attr i)).trans c) e)
  burners b on := by
    rcases h.burners b on with kept | ⟨loud, was, tripped, off⟩
    · rcases g.burners b (kept.burner ▸ on) with still | ⟨loud, was, tripped, off⟩
      · exact .inl (kept.trans still)
      · exact .inr ⟨loud, kept.burner ▸ was, kept.burner ▸ tripped, off⟩
    · have state : q.burners[b].state = .tripped := congrArg Burner.state tripped
      rcases g.burners b (by rw [state]; decide) with still | ⟨-, out, -, -⟩
      · exact .inr ⟨loud, was, still.burner.trans tripped, still.igniter.trans off⟩
      · exact absurd (.inr state) out
  holds k u x := h.holds k u (g.holds k u x)

theorem ite {c : Prop} [Decidable c] (h : c → Onward L p q) (g : ¬ c → Onward L p r) : Onward L p (if c then q else r) := by
  split
  · next hc => exact h hc
  · next hc => exact g hc

theorem forAll {α : Type} {f : α → Part → Part} (h : ∀ a p, Onward L p (f a p)) (l : List α) (p : Part) :
    Onward L p (p.forAll l f) := by
  induction l generalizing p with
  | nil => exact .refl p
  | cons a l ih => exact (h a p).trans (ih _)

/-- A burner that is out stays as it is. -/
theorem out (h : Onward L p q) {b : Fin 2} (o : p.burners[b].out) : BurnerKept b p q := by
  have on : p.burners[b].state ≠ .held := by rcases o with o | o <;> rw [o] <;> decide
  exact (h.burners b on).resolve_right fun x => x.2.was o

end Onward

theorem Part.condition_external (p : Part) {i : Fin 62} (h : 46 ≤ i.val) : p.condition i =
    (p.started && p.alarms.ext[Fin.ofNat 16 (i.val - 46)].used && p.alarms.ext[Fin.ofNat 16 (i.val - 46)].cond) := by
  unfold Part.condition
  dsimp only
  repeat rw [if_neg (by omega)]

/-- The internal points of class TRIP (R140). -/
theorem internal_trip : ∀ i : Fin 62, i.val < 46 → ((Part.powerUp 0 0 false).pointAttr i).cls = .trip →
    i = 0 ∨ i = 1 ∨ i = 2 ∨ i = 10 ∨ i = 11 ∨ i = 14 ∨ i = 15 ∨ i = 45 := by decide

/-- The condition of a TRIP point depends on the scan state, the duplicate deadline, the peer trip set, the burners' failures,
the grate's fault and the external conditions alone. -/
theorem Part.tripCondition_le {p q : Part} (started : q.started = p.started) (scan : q.field.state = p.field.state)
    (dup : q.line.dupDeadline = p.line.dupDeadline) (peers : q.alarms.peerTrips = p.alarms.peerTrips)
    (burners : ∀ b : Fin 2, (q.burners[b].flameFail = true → p.burners[b].flameFail = true) ∧
      (q.burners[b].lightOffFail = true → p.burners[b].lightOffFail = true))
    (grate : q.grate.fault = true → p.grate.fault = true) (ext : q.alarms.ext = p.alarms.ext) (i : Fin 62)
    (c : (p.pointAttr i).cls = .trip) (e : q.condition i = true) : p.condition i = true := by
  by_cases external : 46 ≤ i.val
  · rwa [Part.condition_external _ external, started, ext, ← Part.condition_external _ external] at e
  · rw [p.internal_attr (.powerUp 0 0 false) i (by omega)] at c
    rcases internal_trip i (by omega) c with rfl | rfl | rfl | rfl | rfl | rfl | rfl | rfl
    · change (q.field.state == .failed && q.started) = true at e
      rwa [scan, started] at e
    · change q.line.dupDeadline.isSome = true at e
      rwa [dup] at e
    · change q.alarms.peerTrips.toList.any (·.isSome) = true at e
      rwa [peers] at e
    · exact (burners 0).1 e
    · exact (burners 0).2 e
    · exact (burners 1).1 e
    · exact (burners 1).2 e
    · exact grate e

/-- The blocks that an operation at the end of an event leaves alone, but for a burner's move. -/
def onwardBlocks : Set Block :=
  {.started, .mode, .ext, .scan, .duplicate, .peerTrips, .grate, .igniters} ∪ Set.range .burner ∪ Set.range .ramp

theorem Onward.of_frame {L : Fin 2 → Prop} {T : Set Block} {p q : Part} (h : ChangesOnly T p q) (marks : MarksKept p q) (record : RecordKept p q)
    (holds : ∀ (k : Fin 3) (u : Nat), q.holdsFor k u ↔ p.holdsFor k u)
    (hT : ∀ x ∈ onwardBlocks, x ∉ T := by simp [onwardBlocks, or_imp, forall_and]) : Onward L p q := by
  have out {x : Block} (hx : x ∈ onwardBlocks := by simp [onwardBlocks]) : x.Same p q := h.same x (hT x hx)
  have burner (b : Fin 2) : q.burners[b] = p.burners[b] := out (x := .burner b)
  have grate : q.grate = p.grate := out (x := .grate)
  have scan : q.field.scanning.state = p.field.scanning.state := congrArg Field.state (out (x := .scan))
  have igniter : q.field.output.igniter = p.field.output.igniter := out (x := .igniters)
  have ext : q.alarms.ext = p.alarms.ext := out (x := .ext)
  have started : q.started = p.started := out (x := .started)
  exact
    { marks with
      started := started
      mode := out (x := .mode)
      ext := ext
      record := record
      conditions := Part.tripCondition_le started scan (out (x := .duplicate)) (out (x := .peerTrips)).1
        (fun b => by rw [burner b]; exact ⟨id, id⟩) (by rw [grate]; exact id) ext
      burners := fun b _ => .inl ⟨burner b, congrArg (·[b]) igniter, out (x := .ramp b), (holds 0 _).2, (holds 2 _).2⟩
      holds := fun k u => (holds k u).1 }

/-- A change that leaves the marks, the record and the claims alone. -/
theorem ChangesOnly.onward {L : Fin 2 → Prop} {T : Set Block} {p q : Part} (h : ChangesOnly T p q)
    (hT : ∀ x ∈ onwardBlocks ∪ {.points, .firstOut, .record} ∪ Set.range .claim, x ∉ T := by
      simp [onwardBlocks, or_imp, forall_and]) : Onward L p q :=
  .of_frame h (h.marksKept ⟨hT _ (by simp), hT _ (by simp)⟩) (h.recordKept (hT _ (by simp)))
    (fun k u => h.holdsFor k u (hT _ (by simp))) fun x hx => hT x (.inl (.inl hx))

section
variable {L : Fin 2 → Prop} (p : Part)

theorem Part.service_onward (k : Fin 3) : Onward L p (p.service k) := by
  have frame := p.service_frame k
  refine .of_frame frame frame.marksKept frame.recordKept fun j u => ?_
  by_cases e : j = k
  · subst e
    rcases p.service_eq j with same | ⟨was, -, -, moved⟩
    · rw [same]
    · have not : ¬ p.holdsFor j u := fun x => by rcases was with w | w <;> exact nomatch w.symm.trans x.1
      refine iff_of_false (fun x => ?_) not
      have state := x.1
      rw [moved, Part.updRes_claims_self] at state
      exact nomatch state
  · exact frame.holdsFor j u (by simp [e])

theorem Part.evaluate_onward : Onward L p p.evaluate :=
  .of_frame p.evaluate_frame p.evaluate_frame.marksKept p.evaluate_kept fun k u => p.evaluate_frame.holdsFor k u

/-- A request changes nothing of what is held. -/
theorem Part.request_onward (k : Fin 3) (u : Nat) : Onward L p (p.request k u) := by
  unfold Part.request
  refine .ite (fun _ => .refl p) fun _ => .ite (fun _ => .refl p) fun _ => ?_
  refine Onward.trans ?_ (Part.service_onward _ k)
  have frame := p.updRes_frame k (fun r => { r with
    waitList := insertUser u r.waitList
    user := if r.state == .waiting && r.user.any (u < ·) then some u else r.user }) {.claim k, .waitList k}
  refine .of_frame frame frame.marksKept frame.recordKept fun j v => ?_
  by_cases e : j = k
  · subst e
    unfold Part.holdsFor
    rw [Part.updRes_claims_self]
    refine and_congr_right fun held => ?_
    have held : p.claims[j].state = .held := held
    simp [held, -Fin.getElem_fin]
  · exact frame.holdsFor j v (by simp [e])

end

/-! ## A burner's move -/

section
variable {L : Fin 2 → Prop} {p : Part} {b : Fin 2} {s : BurnerState} {fix : Burner → Burner} {mark : Bool} {k : Fin 3} {u : Nat}

theorem Part.endRamp_held (h : (p.endRamp b).holdsFor k u) : p.holdsFor k u := by
  unfold Part.endRamp at h
  split at h
  · next r _ => exact ((((p.replaceMix_frame b r.target).andThen (Part.setRamp_frame b none _)).holdsFor k u).1 (Part.withdraw_held h))
  · exact h

theorem Part.endRamp_keepsHeld (h : p.holdsFor k u) (other : u ≠ b.val ∨ k ≠ 2) : (p.endRamp b).holdsFor k u := by
  unfold Part.endRamp
  split
  · next r _ =>
    exact Part.withdraw_keepsHeld ((((p.replaceMix_frame b r.target).andThen (Part.setRamp_frame b none _)).holdsFor k u).2 h)
      fun e => other.resolve_right (not_not.2 e)
  · exact h

theorem Part.leaveFor_held (h : (p.leaveFor b s).holdsFor k u) : p.holdsFor k u := by
  have left (h : (if s = .lightWait ∨ s = .igniting ∨ s = .loading then p else p.withdraw 0 b.val).holdsFor k u) :
      p.holdsFor k u := by
    split at h
    · exact h
    · exact Part.withdraw_held h
  unfold Part.leaveFor at h
  dsimp only at h
  split at h
  · exact left h
  · exact left (Part.endRamp_held h)

theorem Part.leaveFor_keepsHeld (h : p.holdsFor k u) (other : u ≠ b.val ∨ k = 1) : (p.leaveFor b s).holdsFor k u := by
  have left : (if s = .lightWait ∨ s = .igniting ∨ s = .loading then p else p.withdraw 0 b.val).holdsFor k u := by
    split
    · exact h
    · exact Part.withdraw_keepsHeld h fun e => other.resolve_right fun o => by omega
  unfold Part.leaveFor
  dsimp only
  split
  · exact left
  · exact Part.endRamp_keepsHeld left (other.imp id fun e => by rw [e]; decide)

theorem Part.burnerTo_holds (k : Fin 3) (u : Nat) : (p.burnerTo b s fix mark).holdsFor k u ↔ (p.leaveFor b s).holdsFor k u :=
  (Part.afterBurner_frame b s mark (((p.leaveFor b s).updBurner b fun x => fix (x.cleared s)).updOutput fun o =>
    { o with igniter := o.igniter.set b (s == .igniting) })).holdsFor k u

/-- A held burner moves on, or one that may be tripped is. -/
theorem Part.burnerTo_onward (fails : ∀ x, (fix x).flameFail = x.flameFail ∧ (fix x).lightOffFail = x.lightOffFail)
    (h : p.burners[b].state = .held ∨ (L b ∧ ¬ p.burners[b].out ∧ s = .tripped ∧ fix = id)) :
    Onward L p (p.burnerTo b s fix mark) := by
  have frame := p.burnerTo_frame b s fix mark
  have self := p.burnerTo_burner b s fix mark
  have scan : (p.burnerTo b s fix mark).field.scanning.state = p.field.scanning.state :=
    congrArg Field.state (frame.same .scan (by simp))
  exact
    { frame.marksKept with
      started := frame.started_eq
      mode := frame.mode_eq
      ext := frame.ext_eq
      record := p.burnerTo_kept b s fix mark
      conditions := Part.tripCondition_le frame.started_eq scan (frame.same .duplicate (by simp))
        (frame.same .peerTrips (by simp)).1 (fun c => by
          by_cases e : c = b
          · subst e
            rw [self, (fails _).1, (fails _).2]
            exact ⟨nofun, nofun⟩
          · rw [Part.burnerTo_other e]
            exact ⟨id, id⟩) (by rw [frame.grate_eq]; exact id) frame.ext_eq
      burners := fun c on => by
        by_cases e : c = b
        · subst e
          obtain ⟨loud, was, rfl, rfl⟩ := h.resolve_left on
          exact .inr ⟨loud, was, self, p.burnerTo_igniter c .tripped id mark⟩
        · refine .inl ⟨p.burnerTo_other e s fix mark, Part.burnerTo_igniter_other e s fix p mark,
            frame.ramp_eq c (by simp [e]), fun x => ?_, fun x => ?_⟩
          · exact (Part.burnerTo_holds _ _).2 (Part.leaveFor_keepsHeld x (.inl fun y => e (Fin.ext y)))
          · exact (Part.burnerTo_holds _ _).2 (Part.leaveFor_keepsHeld x (.inl fun y => e (Fin.ext y)))
      holds := fun k u x => Part.leaveFor_held ((Part.burnerTo_holds k u).1 x) }

/-- A TRIP activation that concerns a burner trips it unless it is not used or out. -/
theorem Part.tripBurner_onward (loud : L b) : Onward L p (p.tripBurner b) := by
  unfold Part.tripBurner
  refine .ite (fun _ => .refl p) fun on => Part.burnerTo_onward (fun _ => ⟨rfl, rfl⟩) (.inr ⟨loud, fun out => on ?_, rfl, rfl⟩)
  rcases out with o | o <;> simp [o, -Fin.getElem_fin]

theorem Part.tripBurner_out (used : p.burners[b].cfg.used = true) : (p.tripBurner b).burners[b].out := by
  unfold Part.tripBurner
  split
  · next off =>
    simp only [used, Bool.not_true, Bool.false_or, Bool.or_eq_true, beq_iff_eq] at off
    exact off
  · exact .inr (congrArg Burner.state (p.burnerTo_burner b .tripped id false))

theorem Part.followCauses_onward (b : Fin 2) (p : Part) : Onward L p (p.followCauses b) := by
  have frame := p.followCauses_frame b
  have held (c : Fin 2) : (p.followCauses b).burners[c] = p.burners[c] ∨ c = b ∧ p.burners[c].state = .held := by
    by_cases e : c = b
    · subst e
      by_cases h : p.burners[c].state = .held
      · exact .inr ⟨rfl, h⟩
      · refine .inl (Eq.trans (set_self ..) (if_neg h))
    · exact .inl (frame.burner_eq c (by simp [e]))
  have fails (c : Fin 2) : (p.followCauses b).burners[c].flameFail = p.burners[c].flameFail ∧
      (p.followCauses b).burners[c].lightOffFail = p.burners[c].lightOffFail := by
    rcases held c with same | ⟨rfl, h⟩
    · rw [same]; exact ⟨rfl, rfl⟩
    · have moved : (p.followCauses c).burners[c] = _ := Eq.trans (set_self ..) (if_pos h)
      rw [moved]; exact ⟨rfl, rfl⟩
  exact
    { frame.marksKept with
      started := frame.started_eq
      mode := frame.mode_eq
      ext := frame.ext_eq
      record := frame.recordKept
      conditions := Part.tripCondition_le frame.started_eq rfl rfl rfl
        (fun c => by rw [(fails c).1, (fails c).2]; exact ⟨id, id⟩) id rfl
      burners := fun c on => .inl ⟨(held c).resolve_right fun x => on x.2, rfl, rfl, id, id⟩
      holds := fun k u x => x }

theorem Part.enterLightWait_onward (held : p.burners[b].state = .held) (c : BurnerState) : Onward L p (p.enterLightWait b c) := by
  unfold Part.enterLightWait
  refine Onward.trans (Part.burnerTo_onward ?_ (.inl held)) (Part.request_onward _ 0 _)
  exact fun _ => ⟨rfl, rfl⟩

theorem Part.autoResume_onward (b : Fin 2) (p : Part) : Onward L p (p.autoResume b) := by
  refine .ite (fun may => ?_) fun _ => .refl p
  have held : p.burners[b].state = .held := by
    simp only [Part.mayAutoResume, Bool.and_eq_true, beq_iff_eq] at may
    exact may.1.1.1.1.1.2
  unfold Part.resume
  split
  · exact Part.burnerTo_onward (fun _ => ⟨rfl, rfl⟩) (.inl held)
  · exact Part.enterLightWait_onward held _

theorem Part.settleHolds_onward (p : Part) : Onward L p p.settleHolds :=
  .forAll (f := fun b p => (p.followCauses b).autoResume b)
    (fun b p => (Part.followCauses_onward b p).trans (Part.autoResume_onward b (p.followCauses b))) burnerIds p

end

end Sys2Proof.Machine
end

section
/-! SUPPORT. What an activation leaves, what the settling of one point changes of the others, and what the end of an event
leaves of a point. -/

namespace Sys2Proof.Machine

-- One proof at a time: the whole package as one text must not start a thread for each of them.
set_option Elab.async false

open Sys2Proof.Config

/-! ## An activation (R145, R146) -/

/-- What an activation of point i makes of p: the point and, for a TRIP point, what follows. -/
structure Activated (i : Fin 62) (p q : Part) : Prop where
  points : q.alarms.points = p.alarms.points.set i { p.alarms.points[i] with
    state := .active, lastActivation := some p.now, origin := p.activationOrigin i }
  latch : (p.pointAttr i).latching = true → q.alarms.autoResume = false
  resumes : (p.pointAttr i).latching = false → q.alarms.autoResume = p.alarms.autoResume
  loud : (p.pointAttr i).cls = .trip ∨ (p.pointAttr i).cls = .alarm → q.alarms.horn = true ∧ q.field.output.horn = true
  tripSeen : (p.pointAttr i).cls = .trip → q.alarms.seen.trip = true
  tripNew : (p.pointAttr i).cls = .trip → q.alarms.tripNew = true
  firstOut : (p.pointAttr i).cls = .trip → p.alarms.firstOut = none →
    ∃ r, q.alarms.firstOut = some r ∧ r.point = i ∧ r.time = p.now
  tripped : (p.pointAttr i).cls = .trip → ∀ b : Fin 2, p.burners[b].cfg.used = true →
    (p.pointAttr i).binding = .station ∨ (p.pointAttr i).binding = .burner b → q.burners[b].out
  firstTrip : (p.pointAttr i).cls = .trip → ∀ r, q.shift.current = some r → r.firstTrip ≠ none

section
variable {p q : Part} {i j : Fin 62}

theorem Part.announce_frame (i : Fin 62) (p : Part) : ChangesOnly {.points, .events} p (p.announce i) := by
  have entered (f : Point → Point) : ChangesOnly {.points, .events} p (p.updPoint i f) := (p.updPoint_frame i f).mono
  exact ((entered _).next (Part.offerPoint_frame i .active _)).next (Part.points_frame _ _)

theorem Part.sounded_frame (i : Fin 62) (p : Part) : ChangesOnly {.points, .events, .horn, .hornOut} p (p.sounded i) :=
  .ite ((p.announce_frame i).mono.next (Part.setHorn_frame true _)) (p.announce_frame i).mono

/-- The alarms of an announced point, but for the queue of events. -/
theorem Part.announce_alarms (i : Fin 62) (p : Part) :
    (p.announce i).alarms.points = p.alarms.points.set i { p.alarms.points[i] with
      state := .active, lastActivation := some p.now, origin := p.activationOrigin i } ∧
    (p.announce i).alarms.seen = p.alarms.seen.set (p.pointAttr i).cls ∧
    (p.announce i).alarms.autoResume = (p.alarms.autoResume && !(p.pointAttr i).latching) := by
  have offered := (Part.offerPoint_frame i .active (p.updPoint i fun x =>
    { x with state := .active, lastActivation := some p.now, origin := p.activationOrigin i })).same .points (by simp)
  obtain ⟨points, seen, auto⟩ := offered
  exact ⟨points, congrArg (ClassFlags.set (p.pointAttr i).cls) seen, congrArg (· && !(p.pointAttr i).latching) auto⟩

theorem Part.sounded_alarms (i : Fin 62) (p : Part) :
    (p.sounded i).alarms.points = p.alarms.points.set i { p.alarms.points[i] with
      state := .active, lastActivation := some p.now, origin := p.activationOrigin i } ∧
    (p.sounded i).alarms.seen = p.alarms.seen.set (p.pointAttr i).cls ∧
    (p.sounded i).alarms.autoResume = (p.alarms.autoResume && !(p.pointAttr i).latching) ∧
    ((p.pointAttr i).cls = .trip ∨ (p.pointAttr i).cls = .alarm →
      (p.sounded i).alarms.horn = true ∧ (p.sounded i).field.output.horn = true) := by
  obtain ⟨points, seen, auto⟩ := p.announce_alarms i
  unfold Part.sounded
  split
  · exact ⟨points, seen, auto, fun _ => ⟨rfl, rfl⟩⟩
  · next quiet => exact ⟨points, seen, auto, fun c => absurd c quiet⟩

theorem Part.tripBound_out {x : Binding} {b : Fin 2} (used : p.burners[b].cfg.used = true)
    (names : x = .station ∨ x = .burner b) : (p.tripBound x).burners[b].out := by
  rcases names with rfl | rfl
  · show ((p.tripBurner 0).tripBurner 1).burners[b].out
    by_cases z : b = 1
    · subst z
      refine Part.tripBurner_out ?_
      rw [Part.tripBurner_other (by decide)]
      exact used
    · rw [Part.tripBurner_other z]
      have : b = 0 := by omega
      subst this
      exact Part.tripBurner_out used
  · exact Part.tripBurner_out used

/-- What a TRIP activation fills in behind the burners it trips. -/
theorem Part.actTrip_frame_filled (i : Fin 62) (p : Part) (o : Option Origin) (e : TripEntry) (w : Bool) :
    ChangesOnly ({.firstOut, .tripSeq} ∪ sendBlocks) p
      (if w then ((p.fillFirstOut i o).record (ShiftRec.tripped e)).tripLine i
        else (p.fillFirstOut i o).record (ShiftRec.tripped e)) := by
  have filled : ChangesOnly ({.firstOut, .tripSeq} ∪ sendBlocks) p ((p.fillFirstOut i o).record (ShiftRec.tripped e)) :=
    ((p.fillFirstOut_frame i o).mono).next (Part.record_frame _ _)
  exact .ite (filled.next (Part.tripLine_frame i _)) filled

/-- A TRIP activation's consequences move no point and no horn. -/
theorem Part.actTrip_frame' (i : Fin 62) (p : Part) :
    ChangesOnly (burnerBlocks 0 ∪ burnerBlocks 1 ∪ ({.firstOut, .tripSeq} ∪ sendBlocks)) p (p.actTrip i) :=
  (p.tripBound_frame _).andThen (Part.actTrip_frame_filled i _ _ _ _)

theorem Part.actTrip_eq (i : Fin 62) (p : Part) : ∃ o e, p.actTrip i =
    if (p.pointAttr i).lineWide then (((p.tripBound (p.pointAttr i).binding).fillFirstOut i o).record
        (ShiftRec.tripped e)).tripLine i
      else ((p.tripBound (p.pointAttr i).binding).fillFirstOut i o).record (ShiftRec.tripped e) := ⟨_, _, rfl⟩

theorem Part.fillFirstOut_marks (i : Fin 62) (o : Option Origin) (p : Part) : (p.fillFirstOut i o).alarms.tripNew = true ∧
    (p.alarms.firstOut = none → (p.fillFirstOut i o).alarms.firstOut = some ⟨i, p.now, o, 0⟩) ∧
    (∀ r, p.alarms.firstOut = some r → ∃ s, (p.fillFirstOut i o).alarms.firstOut = some s ∧ s.point = r.point ∧
      s.time = r.time) := by
  refine ⟨rfl, fun e => ?_, fun r e => ?_⟩
  · simp only [Part.fillFirstOut, Part.updAlarms_alarms, e]
  · simp only [Part.fillFirstOut, Part.updAlarms_alarms, e]
    exact ⟨_, rfl, rfl, rfl⟩

/-- A TRIP activation's consequences: TRIP NEW, the first-out record, and the burners tripped. -/
theorem Part.actTrip_marks (i : Fin 62) (p : Part) : (p.actTrip i).alarms.tripNew = true ∧
    (p.alarms.firstOut = none → ∃ r, (p.actTrip i).alarms.firstOut = some r ∧ r.point = i ∧ r.time = p.now) ∧
    (∀ r, p.alarms.firstOut = some r → ∃ s, (p.actTrip i).alarms.firstOut = some s ∧ s.point = r.point ∧ s.time = r.time) ∧
    ∀ b : Fin 2, (p.actTrip i).burners[b] = (p.tripBound (p.pointAttr i).binding).burners[b] := by
  obtain ⟨o, e, eq⟩ := p.actTrip_eq i
  have bound := p.tripBound_frame (p.pointAttr i).binding
  have first : (p.tripBound (p.pointAttr i).binding).alarms.firstOut = p.alarms.firstOut := (bound.same .firstOut (by simp)).1
  have now := bound.now_eq
  rw [eq]
  generalize p.tripBound (p.pointAttr i).binding = r at first now ⊢
  obtain ⟨new, fills, keeps⟩ := r.fillFirstOut_marks i o
  have filled : ∀ x : Part, x = ((r.fillFirstOut i o).record (ShiftRec.tripped e)) → x.alarms.firstOut = (r.fillFirstOut i o).alarms.firstOut ∧
      x.alarms.tripNew = true ∧ ∀ b : Fin 2, x.burners[b] = r.burners[b] := by
    rintro _ rfl
    exact ⟨rfl, new, fun _ => rfl⟩
  obtain ⟨same, new, burners⟩ := filled _ rfl
  have all (x : Part) (f : x.alarms.firstOut = (r.fillFirstOut i o).alarms.firstOut) (n : x.alarms.tripNew = true)
      (bs : ∀ b : Fin 2, x.burners[b] = r.burners[b]) : x.alarms.tripNew = true ∧
      (p.alarms.firstOut = none → ∃ s, x.alarms.firstOut = some s ∧ s.point = i ∧ s.time = p.now) ∧
      (∀ s, p.alarms.firstOut = some s → ∃ t, x.alarms.firstOut = some t ∧ t.point = s.point ∧ t.time = s.time) ∧
      ∀ b : Fin 2, x.burners[b] = r.burners[b] :=
    ⟨n, fun none => ⟨_, f.trans (fills (first.trans none)), rfl, now⟩, fun s some => by
      rw [f]; exact keeps s (first.trans some), bs⟩
  split
  · have frame := Part.tripLine_frame i ((r.fillFirstOut i o).record (ShiftRec.tripped e))
    obtain ⟨f, n⟩ := frame.same .firstOut (by simp)
    exact all _ (f.trans same) (n.trans new) fun b => (frame.burner_eq b).trans (burners b)
  · exact all _ same new burners

theorem Part.counted_alarms (i : Fin 62) (p : Part) :
    let q := (p.sounded i).record (ShiftRec.activation (p.pointAttr i).cls)
    q.alarms = (p.sounded i).alarms ∧ q.field = (p.sounded i).field ∧ q.burners = p.burners ∧ q.now = p.now ∧
      q.pointAttr i = p.pointAttr i := by
  have frame := p.sounded_frame i
  have burners : (p.sounded i).burners = p.burners := by
    ext b hb
    exact congrArg (fun x : Burner => x) (frame.burner_eq ⟨b, hb⟩)
  exact ⟨rfl, rfl, burners, frame.now_eq, Part.pointAttr_congr (fun n => by
    rw [show ((p.sounded i).record (ShiftRec.activation (p.pointAttr i).cls)).alarms.ext = p.alarms.ext from frame.ext_eq]) i⟩

theorem Part.activate_activated (i : Fin 62) (p : Part) : Activated i p (p.activate i) := by
  obtain ⟨points, seen, auto, loud⟩ := p.sounded_alarms i
  have first : (p.sounded i).alarms.firstOut = p.alarms.firstOut := ((p.sounded_frame i).same .firstOut (by simp)).1
  obtain ⟨alarms, field, burners, now, attr⟩ := p.counted_alarms i
  rw [Part.activate_eq]
  generalize (p.sounded i).record (ShiftRec.activation (p.pointAttr i).cls) = q at *
  rw [← alarms] at points seen auto loud first
  rw [← field] at loud
  have latch (a : Bool) (e : a = (p.alarms.autoResume && !(p.pointAttr i).latching)) :
      ((p.pointAttr i).latching = true → a = false) ∧ ((p.pointAttr i).latching = false → a = p.alarms.autoResume) := by
    subst e
    exact ⟨fun l => by rw [l]; exact Bool.and_false _, fun l => by rw [l]; exact Bool.and_true _⟩
  split
  · next trip =>
    have frame := q.actTrip_frame' i
    obtain ⟨points', seen', auto'⟩ := frame.same .points (by simp)
    have horn := frame.same .horn (by simp)
    have output := frame.same .hornOut (by simp)
    obtain ⟨tripNew, fills, -, bs⟩ := q.actTrip_marks i
    obtain ⟨latched, resumes⟩ := latch _ (auto'.trans auto)
    refine ⟨points'.trans points, latched, resumes, fun c => ⟨Eq.trans horn (loud c).1, Eq.trans output (loud c).2⟩, fun _ => ?_,
      fun _ => tripNew, fun _ none => ?_, fun _ b used names => ?_, fun _ => (q.actTrip_kept i).2⟩
    · rw [seen', seen, trip]; rfl
    · rw [← now]; exact fills (first.trans none)
    · rw [bs b, attr]
      exact Part.tripBound_out (by rw [burners]; exact used) names
  · next calm =>
    obtain ⟨latched, resumes⟩ := latch _ auto
    exact ⟨points, latched, resumes, loud, fun c => absurd c calm, fun c => absurd c calm, fun c => absurd c calm,
      fun c => absurd c calm, fun c => absurd c calm⟩

/-! ## What the moves of a point keep -/

theorem Part.effective_cls {p : Part} {i : Fin 62} {b : Fin 2} (up : p.effective i = true) (c : (p.pointAttr i).cls = .trip)
    (names : (p.pointAttr i).binding = .station ∨ (p.pointAttr i).binding = .burner b) : ¬ p.QuietFor b := fun quiet => by
  have binds : p.bindsBurner b i = true := by
    simp only [Part.bindsBurner, c, Bool.and_eq_true, Bool.or_eq_true, beq_iff_eq, true_and]
    exact names
  exact Bool.eq_false_iff.1 (quiet i binds) up

section
variable {L : Fin 2 → Prop} {p : Part} {i : Fin 62}

theorem Part.tripBound_onward {x : Binding} (loud : ∀ b : Fin 2, x = .station ∨ x = .burner b → L b) :
    Onward L p (p.tripBound x) := by
  cases x with
  | none => exact .refl p
  | station => exact (Part.tripBurner_onward (loud 0 (.inl rfl))).trans (Part.tripBurner_onward (loud 1 (.inl rfl)))
  | burner b => exact Part.tripBurner_onward (loud b (.inr rfl))

theorem Part.fillFirstOut_onward (i : Fin 62) (o : Option Origin) (p : Part) : Onward L p (p.fillFirstOut i o) := by
  have frame := p.fillFirstOut_frame i o
  obtain ⟨-, seen, auto⟩ := frame.same .points (by simp)
  exact .of_frame frame ⟨fun _ => rfl, (congrArg ClassFlags.trip seen).trans, auto.trans, (p.fillFirstOut_marks i o).2.2⟩
    frame.recordKept fun k u => frame.holdsFor k u

/-- An addition to the open record that keeps its heading. -/
theorem Part.record_onward {f : ShiftRec → ShiftRec} (h : ∀ r : ShiftRec, r.SameHead (f r)) (p : Part) :
    Onward L p (p.record f) :=
  .of_frame (p.record_frame f) (p.record_frame f).marksKept (p.record_kept f h) fun k u => (p.record_frame f).holdsFor k u

theorem Part.tripLine_onward (i : Fin 62) (p : Part) : Onward L p (p.tripLine i) :=
  .of_frame (p.tripLine_frame i) (p.tripLine_frame i).marksKept (p.tripLine_kept i) fun k u => (p.tripLine_frame i).holdsFor k u

theorem Part.actTrip_onward (loud : ∀ b : Fin 2, (p.pointAttr i).binding = .station ∨ (p.pointAttr i).binding = .burner b → L b) :
    Onward L p (p.actTrip i) := by
  have filled (o : Option Origin) (e : TripEntry) : Onward L p
      (((p.tripBound (p.pointAttr i).binding).fillFirstOut i o).record (ShiftRec.tripped e)) :=
    ((Part.tripBound_onward loud).trans (Part.fillFirstOut_onward i o _)).trans
      (Part.record_onward (fun r => (r.tripped_head e).1) _)
  obtain ⟨o, e, eq⟩ := p.actTrip_eq i
  rw [eq]
  exact .ite (fun _ => (filled o e).trans (Part.tripLine_onward i _)) fun _ => filled o e

theorem Part.sounded_onward (i : Fin 62) (p : Part) : Onward L p (p.sounded i) := by
  have frame := p.sounded_frame i
  obtain ⟨-, seen, auto, -⟩ := p.sounded_alarms i
  obtain ⟨first, new⟩ := frame.same .firstOut (by simp)
  refine .of_frame frame ⟨new.trans, fun t => ?_, fun off => by rw [auto, off]; rfl, fun r e => ⟨r, first.trans e, rfl, rfl⟩⟩
    (p.sounded_kept i) fun k u => frame.holdsFor k u
  rw [seen]
  unfold ClassFlags.set
  split <;> first | rfl | exact t

theorem Part.activate_onward (loud : (p.pointAttr i).cls = .trip → ∀ b : Fin 2, (p.pointAttr i).binding = .station ∨
    (p.pointAttr i).binding = .burner b → L b) : Onward L p (p.activate i) := by
  have counted := (Part.sounded_onward (L := L) i p).trans
    (Part.record_onward (ShiftRec.activation_head (p.pointAttr i).cls) _)
  obtain ⟨-, -, -, -, attr⟩ := p.counted_alarms i
  rw [Part.activate_eq]
  exact .ite (fun c => counted.trans (Part.actTrip_onward (by rw [attr]; exact loud c))) fun _ => counted

/-- A change of points that sets no mark. -/
theorem Onward.of_points {T : Set Block} {q : Part} (h : ChangesOnly T p q) (seen : q.alarms.seen = p.alarms.seen)
    (auto : q.alarms.autoResume = p.alarms.autoResume) (record : RecordKept p q)
    (hT : ∀ x ∈ onwardBlocks ∪ {.firstOut} ∪ Set.range .claim, x ∉ T := by simp [onwardBlocks, or_imp, forall_and]) :
    Onward L p q := by
  obtain ⟨first, new⟩ := h.same .firstOut (hT _ (by simp))
  exact .of_frame h ⟨new.trans, (congrArg ClassFlags.trip seen).trans, auto.trans, fun r e => ⟨r, first.trans e, rfl, rfl⟩⟩
    record (fun k u => h.holdsFor k u (hT _ (by simp))) fun x hx => hT x (.inl (.inl hx))

theorem Part.updPoint_onward (i : Fin 62) (f : Point → Point) (p : Part) : Onward L p (p.updPoint i f) :=
  .of_points (p.updPoint_frame i f) rfl rfl (.of_eq rfl)

theorem Part.movePoint_onward (i : Fin 62) (s : PointState) (p : Part) : Onward L p (p.movePoint i s) :=
  (p.updPoint_onward i _).trans ((Part.offerPoint_frame i s _).onward)

theorem Part.risePoint_onward (loud : (p.pointAttr i).cls = .trip → ∀ b : Fin 2, (p.pointAttr i).binding = .station ∨
    (p.pointAttr i).binding = .burner b → L b) : Onward L p (p.risePoint i) := by
  unfold Part.risePoint
  split
  · exact Part.activate_onward loud
  · exact Part.activate_onward loud
  · exact p.movePoint_onward i _
  · exact .refl p

theorem Part.fallPoint_onward (i : Fin 62) (p : Part) : Onward L p (p.fallPoint i) := by
  unfold Part.fallPoint
  split
  · exact p.movePoint_onward i _
  · exact .ite (fun _ => p.movePoint_onward i _) fun _ => p.movePoint_onward i _
  · exact .refl p

theorem Part.settlePoint_onward (same : Bool) (loud : ∀ b : Fin 2, ¬ p.QuietFor b → L b) (i : Fin 62) :
    Onward L p (p.settlePoint i same) := by
  have found := p.updPoint_onward (L := L) i fun x => { x with eff := p.effective i }
  have fallen := found.trans (Part.fallPoint_onward i _)
  refine .ite (fun _ => .refl p) fun _ => .ite (fun _ => found) fun _ => .ite (fun up => found.trans (Part.risePoint_onward ?_))
    fun _ => .ite (fun _ => fallen.trans (Part.hornCheck_frame _).onward) fun _ => fallen
  exact fun c b names => loud b (Part.effective_cls up c names)

theorem Part.settlePoints_onward (loud : ∀ b : Fin 2, ¬ p.QuietFor b → L b) (l : List (Fin 62)) :
    Onward L p (p.settlePoints l) := by
  unfold Part.settlePoints
  induction l generalizing p with
  | nil => exact .refl p
  | cons i l ih =>
    have moved := Part.settlePoint_onward false loud i
    exact moved.trans (ih fun b x => loud b fun quiet => x (moved.quietFor quiet))

theorem Part.settle_onward (loud : ∀ b : Fin 2, ¬ p.QuietFor b → L b) : Onward L p p.settle := by
  have evaluated : Onward L p (((p.serviceAll).freezeAll).evaluate) :=
    ((Onward.forAll (fun k p => Part.service_onward p k) resourceIds p).trans (Part.freezeAll_frame _).onward).trans
      (Part.evaluate_onward _)
  exact evaluated.trans (Part.settlePoints_onward (fun b x => loud b fun quiet => x (evaluated.quietFor quiet)) _)

theorem Part.settleAll_onward (loud : ∀ b : Fin 2, ¬ p.QuietFor b → L b) : Onward L p p.settleAll := by
  have found := Part.settlePoints_onward loud promptPoints
  have held := found.trans (Part.settleHolds_onward _)
  exact held.trans (Part.settle_onward fun b x => loud b fun quiet => x (held.quietFor quiet))

end

end

end Sys2Proof.Machine
end

section
/-! OBLIGATION O52: CLOSE SHIFT. -/

namespace Sys2Proof.Machine

-- One proof at a time: the whole package as one text must not start a thread for each of them.
set_option Elab.async false

open Sys2Proof.Config

/-! ## CLOSE SHIFT (R165, R166, R171) -/

theorem Part.changeShift_reported (m : Nat) (o : OpenOrigin) (st : Nat) (p : Part) :
    Reported ⟨.shift, p.shift.number, 1, false, p.now, st, none⟩ (p.changeShift m o st) ∧
    Reported ⟨.shift, m, 0, false, p.now, st, none⟩ (p.changeShift m o st) := by
  have now : ((p.closeRecord false).openRecord m o false (decide (p.shift.number + 1 < m))).now = p.now :=
    ((p.closeRecord_frame false).next (Part.openRecord_frame m o false _ _) (U := {.record, .shift})).now_eq
  unfold Part.changeShift
  dsimp only
  constructor
  · refine (Part.offer_frame ..).reported ?_
    rw [← now]
    exact Part.offer_reported ..
  · rw [← now]
    exact Part.offer_reported ..

theorem takes_closeShift {p : Part} {m : Nat} (s : p.started = true) (h : p.shift.number < m) : Takes (.closeShift m) p
    ((((p.changeShift m .command 0).queueFrame (.shift m)).settle).reply 0x58 .done) := by
  refine takes_row rfl ?_
  dsimp only
  rw [if_neg (by simp [s]), if_neg (Nat.not_le.2 h)]

/-- Settles O52: what `changeShift` leaves stands through the end of the event, which only counts in the open record. -/
theorem closeShiftOpensNext : Obligations.CloseShiftOpensNext := by
  intro p m
  refine ⟨fun s => takes_row rfl (by simp [s, Part.reply_eq_answer]),
    fun s h => takes_row rfl (by simp [s, h, Part.reply_eq_answer]), fun s h => ?_⟩
  have changed := p.changeShift_frame m .command 0
  have after := ((Part.queueFrame_frame (.shift m) (p.changeShift m .command 0)).andThen (Part.settle_frame _)).andThen
    (Part.reply_frame 0x58 .done [] _)
  have kept := ((Part.queueFrame_kept (p.changeShift m .command 0) (.shift m)).trans (Part.settle_kept _)).trans
    (Part.reply_frame 0x58 .done [] _).recordKept
  obtain ⟨number, store, -, cause⟩ := after.shift_eq
  obtain ⟨closed, opened⟩ := p.changeShift_reported m .command 0
  refine ⟨_, takes_closeShift s h, ((changed.andThen (Part.queueFrame_frame _ _)).andThen (Part.settle_frame _)).answered _ _ _,
    number, fun silent room => ?_, after.reported closed, after.reported opened, ?_, fun r current => ?_⟩
  · have room : (p.changeShift m .command 0).line.queue.length < 8 := by rw [changed.queue_eq]; exact room
    have queued := Part.queueFrame_queues (body := .shift m) (changed.started_eq.trans s) (changed.silent_eq.trans silent) room
    exact ((Part.settle_frame _).andThen (Part.reply_frame 0x58 .done [] _)).queued queued
  · obtain ⟨r, current, head⟩ := kept.current (r := (p.closeRecord false).newRecord m .command false _) rfl
    exact ⟨r, current, head.number, head.origin, head.openTime.trans ((p.closeRecord_frame false).now_eq), head.closeTime,
      head.gap, head.incomplete, head.note, head.engineering.trans
        (congrArg Option.isSome ((p.closeRecord_frame false).window_eq))⟩
  · refine ⟨store.trans (Part.closeRecord_store current false), cause.trans ?_⟩
    show (p.closeRecord false).shift.closedCause = true
    simp only [Part.closeRecord, current]

end Sys2Proof.Machine
end

section
/-! OBLIGATION O48. Acknowledgement and reset of points, and the horn. -/

namespace Sys2Proof.Machine

-- One proof at a time: the whole package as one text must not start a thread for each of them.
set_option Elab.async false

open Sys2Proof.Config

/-- The state that an acknowledgement leaves a point in (R143). -/
def PointState.afterAck (latching : Bool) (s : PointState) : PointState :=
  match s with
  | .active => .activeAcked
  | .cleared => if latching then .clearedAcked else .normal
  | s => s

theorem PointState.acked_getD (latching : Bool) (s : PointState) : (s.acked latching).getD s = s.afterAck latching := by
  cases s <;> rfl

theorem PointState.unacked_eq_false {s : PointState} (active : s ≠ .active) (cleared : s ≠ .cleared) : s.unacked = false := by
  cases s <;> simp_all [PointState.unacked]

theorem PointState.afterAck_ne_active : ∀ (latching : Bool) (s : PointState), s.afterAck latching ≠ .active
  | false, s => by cases s <;> decide
  | true, s => by cases s <;> decide

section
variable (p : Part)

theorem Part.ackPoint_points (i : Fin 62) : (p.ackPoint i).alarms.points =
    p.alarms.points.set i { p.alarms.points[i] with state := p.alarms.points[i].state.afterAck (p.pointAttr i).latching } := by
  unfold Part.ackPoint
  rw [← PointState.acked_getD]
  split
  · next st e => rw [e]; rfl
  · next e => rw [e]; exact (Vector.set_getElem_self _).symm

theorem Part.ackPoint_self (i : Fin 62) : (p.ackPoint i).alarms.points[i] =
    { p.alarms.points[i] with state := p.alarms.points[i].state.afterAck (p.pointAttr i).latching } := by
  rw [Part.ackPoint_points, set_self]

theorem Part.ackPoint_other {i j : Fin 62} (ne : j ≠ i) : (p.ackPoint i).alarms.points[j] = p.alarms.points[j] := by
  rw [Part.ackPoint_points, set_other _ _ _ _ ne]

theorem Part.ackPoint_attr (i j : Fin 62) : (p.ackPoint i).pointAttr j = p.pointAttr j :=
  Part.pointAttr_congr (fun n => by rw [(p.ackPoint_frame i).ext_eq]) j

/-- All the points of a list acknowledged, each once. -/
theorem Part.ackPoints_at {l : List (Fin 62)} (once : l.Nodup) (i : Fin 62) :
    (p.forAll l Part.ackPoint).alarms.points[i] = if i ∈ l then
        { p.alarms.points[i] with state := p.alarms.points[i].state.afterAck (p.pointAttr i).latching }
      else p.alarms.points[i] := by
  induction l generalizing p with
  | nil => rfl
  | cons a l ih =>
    obtain ⟨fresh, once⟩ := List.nodup_cons.1 once
    refine (ih (p.ackPoint a) once).trans ?_
    rw [Part.ackPoint_attr]
    by_cases e : i = a
    · subst e
      rw [if_neg fresh, Part.ackPoint_self, if_pos (List.mem_cons_self ..)]
    · rw [Part.ackPoint_other p e]
      simp only [List.mem_cons, e, false_or]

theorem Part.ackPoints_frame : ChangesOnly {.points} p (p.forAll pointIds Part.ackPoint) :=
  .forAll (fun i p => p.ackPoint_frame i) _ p

/-! ## The horn (R156) -/

theorem Part.soundingPoint_iff : p.soundingPoint = true ↔ ∃ i : Fin 62, p.alarms.points[i].state = .active ∧
    ((p.pointAttr i).cls = .trip ∨ (p.pointAttr i).cls = .alarm) := by
  simp [Part.soundingPoint]

/-- The horn goes off unless a TRIP or ALARM point stands in ACTIVE, and nothing else changes. -/
theorem Part.hornCheck_horn : (p.soundingPoint = true → p.hornCheck = p) ∧
    (p.soundingPoint = false → p.hornCheck.alarms.horn = false ∧ p.hornCheck.field.output.horn = false) ∧
    p.hornCheck.alarms.points = p.alarms.points ∧ p.hornCheck.alarms.events = p.alarms.events := by
  unfold Part.hornCheck
  split
  · next h => exact ⟨fun _ => rfl, fun n => (nomatch n.symm.trans h), rfl, rfl⟩
  · next h => exact ⟨fun n => absurd n h, fun _ => ⟨rfl, rfl⟩, rfl, rfl⟩

theorem Part.putPoint_eq (i : Fin 62) (s : PointState) : p.putPoint i s = { p with alarms := { p.alarms with
    points := p.alarms.points.set i { p.alarms.points[i] with state := s } } } := rfl

end

section
variable {p : Part} (started : p.started = true)
include started

theorem takes_acknowledge {i : Fin 62} (unacked : p.alarms.points[i].state.unacked = true) :
    Takes (.acknowledge i.val) p (((p.ackPoint i).hornCheck).reply 0x48 .done) := by
  refine takes_row rfl ((Part.pointCommand_point started i _).trans ?_)
  rw [if_pos unacked]

theorem takes_acknowledge_refused {i : Fin 62} (acked : p.alarms.points[i].state.unacked = false) :
    Takes (.acknowledge i.val) p (p.answer 0x48 .wrongState []) := by
  refine takes_row rfl ((Part.pointCommand_point started i _).trans ?_)
  rw [acked, if_neg Bool.false_ne_true, Part.reply_eq_answer]

theorem takes_acknowledgeAll : Takes .acknowledgeAll p (((p.forAll pointIds Part.ackPoint).hornCheck).reply 0x49 .done) := by
  refine takes_row rfl ?_
  dsimp only
  rw [if_pos started]

omit started in
theorem Part.resetPoint_right {cmd : Nat} {i : Fin 62} {right : Bool} (h : right = true) :
    (p.alarms.points[i].state = .clearedAcked → p.resetPoint cmd i right = Part.answer cmd .done [] { p with alarms :=
      { p.alarms with points := p.alarms.points.set i { p.alarms.points[i] with state := .normal } } }) ∧
    (p.alarms.points[i].state ≠ .clearedAcked → p.resetPoint cmd i right = p.answer cmd .wrongState []) := by
  subst h
  unfold Part.resetPoint
  exact ⟨fun e => by rw [if_neg (by decide), if_pos e, Part.reply_eq_answer, Part.putPoint_eq],
    fun e => by rw [if_neg (by decide), if_neg e, Part.reply_eq_answer]⟩

omit started in
theorem Part.resetPoint_wrong {cmd : Nat} {i : Fin 62} {right : Bool} (h : right = false) :
    p.resetPoint cmd i right = p.answer cmd .badOperand [] := by
  subst h
  unfold Part.resetPoint
  rw [if_pos (by decide), Part.reply_eq_answer]

theorem takes_resetTripPoint {i : Fin 62} {q : Part} (h : p.resetPoint 0x2D i ((p.pointAttr i).cls == .trip) = q) :
    Takes (.resetTripPoint i.val) p q :=
  takes_row rfl ((Part.pointCommand_point started i _).trans h)

theorem takes_resetAlarm {i : Fin 62} {q : Part}
    (h : p.resetPoint 0x4A i ((p.pointAttr i).cls != .trip && (p.pointAttr i).latching) = q) :
    Takes (.resetAlarm i.val) p q :=
  takes_row rfl ((Part.pointCommand_point started i _).trans h)

end

/-- Settles O48, each command by what it makes of its points, and the horn by `hornCheck_horn`. -/
theorem pointsAcknowledgedAndReset : Obligations.PointsAcknowledgedAndReset := by
  unfold Obligations.PointsAcknowledgedAndReset
  intro acked sounding p started
  have same (i : Fin 62) : acked p i = p.alarms.points[i].state.afterAck (p.pointAttr i).latching := rfl
  refine ⟨fun i => ⟨fun unacked => ?_, fun active cleared => takes_acknowledge_refused started
    (PointState.unacked_eq_false active cleared)⟩, ?_, ?_,
    fun i class_ => takes_resetTripPoint started (Part.resetPoint_wrong (by simpa using class_)),
    fun i class_ => takes_resetAlarm started (Part.resetPoint_wrong (by rcases class_ with c | c <;> simp [c]))⟩
  · obtain ⟨on, off, points, events⟩ := (p.ackPoint i).hornCheck_horn
    have attr (j : Fin 62) := p.ackPoint_attr i j
    have heard : sounding p (((p.ackPoint i).hornCheck).reply 0x48 .done) ↔ (p.ackPoint i).soundingPoint = true := by
      rw [Part.soundingPoint_iff]
      simp only [attr]
      show (∃ j : Fin 62, (p.ackPoint i).hornCheck.alarms.points[j].state = .active ∧ _) ↔ _
      rw [points]
    have frame := (p.ackPoint_frame i).andThen (Part.hornCheck_frame _)
    refine ⟨_, takes_acknowledge started (by rcases unacked with e | e <;> rw [e] <;> rfl), frame.answered _ _ _,
      ?_, fun quiet => ?_, fun loud => ?_, ?_⟩
    · exact points.trans (p.ackPoint_points i)
    · exact off (Bool.eq_false_iff.2 fun c => quiet (heard.2 c))
    · show (p.ackPoint i).hornCheck.alarms.horn = _
      rw [on (heard.1 loud)]
      exact (p.ackPoint_frame i).same .horn (by simp)
    · exact (frame.same .events (by simp)).1
  · have found (i : Fin 62) := p.ackPoints_at (List.nodup_finRange 62) i
    have frame := p.ackPoints_frame
    have takes := takes_acknowledgeAll started
    generalize p.forAll pointIds Part.ackPoint = r at found frame takes
    obtain ⟨-, off, points, -⟩ := r.hornCheck_horn
    have frame := frame.andThen (Part.hornCheck_frame _)
    have quiet : r.soundingPoint = false := by
      rw [Bool.eq_false_iff]
      intro c
      obtain ⟨i, active, -⟩ := (Part.soundingPoint_iff _).1 c
      rw [found i, if_pos (List.mem_finRange i)] at active
      exact PointState.afterAck_ne_active _ _ active
    obtain ⟨horn, output⟩ := off quiet
    refine ⟨_, takes, frame.answered _ _ _, fun i => ?_, horn, output, (frame.same .events (by simp)).1⟩
    show r.hornCheck.alarms.points[i] = _
    rw [points, found i, if_pos (List.mem_finRange i)]
    rfl
  · rintro cmd row i (⟨rfl, rfl, class_⟩ | ⟨rfl, rfl, class_, latching⟩)
    · obtain ⟨done, wrong⟩ := Part.resetPoint_right (p := p) (cmd := 0x2D) (i := i) (right := (p.pointAttr i).cls == .trip)
        (by simpa using class_)
      exact ⟨fun e => takes_resetTripPoint started (done e), fun e => takes_resetTripPoint started (wrong e)⟩
    · obtain ⟨done, wrong⟩ := Part.resetPoint_right (p := p) (cmd := 0x4A) (i := i)
        (right := (p.pointAttr i).cls != .trip && (p.pointAttr i).latching) (by simp [class_, latching])
      exact ⟨fun e => takes_resetAlarm started (done e), fun e => takes_resetAlarm started (wrong e)⟩

end Sys2Proof.Machine
end

section
/-! SUPPORT. What the settling of a point leaves of it, and what an event's end makes of one point among the others. -/

namespace Sys2Proof.Machine

-- One proof at a time: the whole package as one text must not start a thread for each of them.
set_option Elab.async false

open Sys2Proof.Config

/-- The state after a rise of the effective condition (R142). -/
def PointState.risen (s : PointState) : PointState :=
  match s with
  | .normal | .cleared => .active
  | .clearedAcked => .activeAcked
  | s => s

/-- The state after a fall of the effective condition (R142). -/
def PointState.fallen (latching : Bool) (s : PointState) : PointState :=
  match s with
  | .active => .cleared
  | .activeAcked => if latching then .clearedAcked else .normal
  | s => s

section
variable (p : Part) (i : Fin 62)

/-! ## Moves of one point -/

theorem Part.movePoint_points (s : PointState) :
    (p.movePoint i s).alarms.points = p.alarms.points.set i { p.alarms.points[i] with state := s } :=
  (Part.offerPoint_frame i s (p.updPoint i fun x => { x with state := s })).points_eq

theorem Part.risePoint_points : (p.risePoint i).alarms.points = p.alarms.points.set i
    (if p.alarms.points[i].state = .normal ∨ p.alarms.points[i].state = .cleared then
      { p.alarms.points[i] with state := .active, lastActivation := some p.now, origin := p.activationOrigin i }
    else { p.alarms.points[i] with state := p.alarms.points[i].state.risen }) := by
  have active := (p.activate_activated i).points
  unfold Part.risePoint
  split
  · next e => rw [active, if_pos (.inl e)]
  · next e => rw [active, if_pos (.inr e)]
  · next e => rw [Part.movePoint_points, e, if_neg (by decide), PointState.risen]
  · next h₁ h₂ h₃ =>
    have same : p.alarms.points[i].state.risen = p.alarms.points[i].state := by
      cases e : p.alarms.points[i].state <;> simp_all [PointState.risen]
    rw [if_neg (not_or.2 ⟨h₁, h₂⟩), same]
    exact (Vector.set_getElem_self _).symm

theorem Part.fallPoint_points : (p.fallPoint i).alarms.points = p.alarms.points.set i
    { p.alarms.points[i] with state := p.alarms.points[i].state.fallen (p.pointAttr i).latching } := by
  unfold Part.fallPoint
  split
  · next e => rw [Part.movePoint_points, e, PointState.fallen]
  · next e =>
    rw [e, PointState.fallen]
    split
    · exact p.movePoint_points i _
    · exact p.movePoint_points i _
  · next h₁ h₂ =>
    have same : p.alarms.points[i].state.fallen (p.pointAttr i).latching = p.alarms.points[i].state := by
      cases e : p.alarms.points[i].state <;> simp_all [PointState.fallen]
    rw [same]
    exact (Vector.set_getElem_self _).symm

theorem Part.hornCheck_points : p.hornCheck.alarms.points = p.alarms.points := p.hornCheck_horn.2.2.1

theorem Part.updPoint_points (f : Point → Point) :
    (p.updPoint i f).alarms.points = p.alarms.points.set i (f p.alarms.points[i]) := rfl

theorem Part.updPoint_attr (f : Point → Point) (j : Fin 62) : (p.updPoint i f).pointAttr j = p.pointAttr j :=
  Part.pointAttr_congr (fun _ => rfl) j

/-! ## The settling of one point -/

theorem Part.settlePoint_steady {same : Bool} (h : p.effective i = p.alarms.points[i].eff) : p.settlePoint i same = p := by
  unfold Part.settlePoint
  rw [if_pos h]

theorem Part.settlePoint_shelved {same : Bool} (h : p.effective i ≠ p.alarms.points[i].eff)
    (s : p.alarms.points[i].shelvedUntil.isSome = true) :
    p.settlePoint i same = p.updPoint i fun x => { x with eff := p.effective i } := by
  unfold Part.settlePoint
  rw [if_neg h, if_pos s]

theorem Part.settlePoint_rises {same : Bool} (up : p.effective i = true) (e : p.alarms.points[i].eff = false)
    (s : p.alarms.points[i].shelvedUntil = none) :
    p.settlePoint i same = (p.updPoint i fun x => { x with eff := true }).risePoint i := by
  unfold Part.settlePoint
  rw [if_neg (by rw [up, e]; decide), if_neg (by rw [s]; decide), up, if_pos rfl]

theorem Part.settlePoint_falls {same : Bool} (up : p.effective i = false) (e : p.alarms.points[i].eff = true)
    (s : p.alarms.points[i].shelvedUntil = none) :
    p.settlePoint i same = if p.alarms.points[i].state.quietedByFall same then
      ((p.updPoint i fun x => { x with eff := false }).fallPoint i).hornCheck
    else (p.updPoint i fun x => { x with eff := false }).fallPoint i := by
  unfold Part.settlePoint
  rw [if_neg (by rw [up, e]; decide), if_neg (by rw [s]; decide), up,
    if_neg Bool.false_ne_true]

/-- The points after one of them was settled: the others as they were. -/
theorem Part.settlePoint_points (same : Bool) : ∃ x : Point, (p.settlePoint i same).alarms.points = p.alarms.points.set i x ∧
    x.eff = p.effective i ∧ x.shelvedUntil = p.alarms.points[i].shelvedUntil ∧
    (x.lastActivation = some p.now ∨ x.lastActivation = p.alarms.points[i].lastActivation) ∧
    (p.effective i = true → p.alarms.points[i].eff = false → p.alarms.points[i].shelvedUntil = none →
      x.state = p.alarms.points[i].state.risen ∧
      (p.alarms.points[i].state = .normal ∨ p.alarms.points[i].state = .cleared → x.lastActivation = some p.now)) ∧
    (p.effective i = false → p.alarms.points[i].eff = true → p.alarms.points[i].shelvedUntil = none →
      x.state = p.alarms.points[i].state.fallen (p.pointAttr i).latching ∧
      x.lastActivation = p.alarms.points[i].lastActivation) := by
  by_cases steady : p.effective i = p.alarms.points[i].eff
  · rw [p.settlePoint_steady i steady]
    exact ⟨_, (Vector.set_getElem_self _).symm, steady.symm, rfl, .inr rfl, fun a b => by simp_all, fun a b => by simp_all⟩
  · cases shelved : p.alarms.points[i].shelvedUntil with
    | some t =>
      rw [p.settlePoint_shelved i steady (by rw [shelved]; rfl)]
      exact ⟨_, rfl, rfl, shelved, .inr rfl, nofun, nofun⟩
    | none =>
      cases up : p.effective i with
      | true =>
        have e : p.alarms.points[i].eff = false := by simpa [up] using steady
        rw [p.settlePoint_rises i up e shelved, Part.risePoint_points, Part.updPoint_points, set_self, Vector.set_set]
        refine ⟨_, rfl, ?_, ?_, ?_, fun _ _ _ => ⟨?_, fun was => ?_⟩, nofun⟩
        · split <;> rfl
        · split <;> exact shelved
        · split
          · exact .inl rfl
          · exact .inr rfl
        · split
          · next was => rcases was with was | was <;> rw [was] <;> rfl
          · rfl
        · rw [if_pos was]; rfl
      | false =>
        have e : p.alarms.points[i].eff = true := by simpa [up] using steady
        have points : (p.settlePoint i same).alarms.points = p.alarms.points.set i { p.alarms.points[i] with
            eff := false, state := p.alarms.points[i].state.fallen (p.pointAttr i).latching } := by
          have fallen : ((p.updPoint i fun x => { x with eff := false }).fallPoint i).alarms.points =
              p.alarms.points.set i { p.alarms.points[i] with
                eff := false, state := p.alarms.points[i].state.fallen (p.pointAttr i).latching } := by
            rw [Part.fallPoint_points, Part.updPoint_points, set_self, Vector.set_set, Part.updPoint_attr]
          rw [p.settlePoint_falls i up e shelved]
          split
          · exact (Part.hornCheck_points _).trans fallen
          · exact fallen
        exact ⟨_, points, rfl, shelved, .inr rfl, nofun, fun _ _ _ => ⟨rfl, rfl⟩⟩

theorem Part.settlePoint_other {j : Fin 62} (same : Bool) (ne : j ≠ i) :
    (p.settlePoint i same).alarms.points[j] = p.alarms.points[j] := by
  obtain ⟨x, points, -⟩ := p.settlePoint_points i same
  rw [points, set_other _ _ _ _ ne]

theorem Part.settlePoint_eff (same : Bool) : (p.settlePoint i same).alarms.points[i].eff = p.effective i := by
  obtain ⟨x, points, eff, -⟩ := p.settlePoint_points i same
  rw [points, set_self, eff]

theorem Part.settlePoint_shelf (same : Bool) :
    (p.settlePoint i same).alarms.points[i].shelvedUntil = p.alarms.points[i].shelvedUntil := by
  obtain ⟨x, points, -, shelf, -⟩ := p.settlePoint_points i same
  rw [points, set_self, shelf]

variable {p i} in
theorem Part.settlePoint_up {same : Bool} (up : p.effective i = true) (e : p.alarms.points[i].eff = false)
    (s : p.alarms.points[i].shelvedUntil = none) :
    (p.settlePoint i same).alarms.points[i].state = p.alarms.points[i].state.risen ∧
    (p.alarms.points[i].state = .normal ∨ p.alarms.points[i].state = .cleared →
      (p.settlePoint i same).alarms.points[i].lastActivation = some p.now) := by
  obtain ⟨x, points, -, -, -, rises, -⟩ := p.settlePoint_points i same
  rw [points, set_self]
  exact rises up e s

variable {p i} in
theorem Part.settlePoint_down {same : Bool} (up : p.effective i = false) (e : p.alarms.points[i].eff = true)
    (s : p.alarms.points[i].shelvedUntil = none) :
    (p.settlePoint i same).alarms.points[i].state = p.alarms.points[i].state.fallen (p.pointAttr i).latching := by
  obtain ⟨x, points, -, -, -, -, falls⟩ := p.settlePoint_points i same
  rw [points, set_self]
  exact (falls up e s).1

variable {p i} in
theorem Part.settlePoint_down_time {same : Bool} (up : p.effective i = false) (e : p.alarms.points[i].eff = true)
    (s : p.alarms.points[i].shelvedUntil = none) :
    (p.settlePoint i same).alarms.points[i].lastActivation = p.alarms.points[i].lastActivation := by
  obtain ⟨x, points, -, -, -, -, falls⟩ := p.settlePoint_points i same
  rw [points, set_self]
  exact (falls up e s).2

variable {p i} in
/-- A rise from NORMAL or CLEARED is an activation (R142, R145). -/
theorem Part.settlePoint_activates {same : Bool} (up : p.effective i = true) (e : p.alarms.points[i].eff = false)
    (s : p.alarms.points[i].shelvedUntil = none)
    (was : p.alarms.points[i].state = .normal ∨ p.alarms.points[i].state = .cleared) :
    p.settlePoint i same = (p.updPoint i fun x => { x with eff := true }).activate i := by
  rw [p.settlePoint_rises i up e s]
  unfold Part.risePoint
  rw [Part.updPoint_points, set_self]
  rcases was with was | was <;> simp only [was]

/-- Point i, not shelved, was activated in the event that led to p (R145): it stands ACTIVE, or CLEARED where its condition
has fallen since. -/
structure Part.Activates : Prop where
  shelf : p.alarms.points[i].shelvedUntil = none
  time : p.alarms.points[i].lastActivation = some p.now
  state : p.alarms.points[i].state = .active ∨ p.alarms.points[i].state = .cleared

variable {p i} in
theorem Part.Activates.settlePoint (h : p.Activates i) (j : Fin 62) (same : Bool) : (p.settlePoint j same).Activates i := by
  obtain ⟨shelf, time, state⟩ := h
  have now : (p.settlePoint j same).now = p.now := (Part.settlePoint_frame j p same).1.now_eq
  by_cases e : i = j
  · subst e
    refine ⟨(p.settlePoint_shelf i same).trans shelf, ?_, ?_⟩
    · obtain ⟨x, points, -, -, last, -⟩ := p.settlePoint_points i same
      rw [points, set_self, now]
      exact last.elim id fun last => last.trans time
    · by_cases steady : p.effective i = p.alarms.points[i].eff
      · rw [p.settlePoint_steady i steady]
        exact state
      · cases up : p.effective i with
        | true =>
          rw [(Part.settlePoint_up up (by simpa [up] using steady) shelf).1]
          rcases state with s | s <;> rw [s] <;> exact .inl rfl
        | false =>
          rw [Part.settlePoint_down up (by simpa [up] using steady) shelf]
          rcases state with s | s <;> rw [s] <;> exact .inr rfl
  · have other := p.settlePoint_other j same e
    exact ⟨by rw [other]; exact shelf, by rw [other, now]; exact time, by rw [other]; exact state⟩

variable {p i} in
theorem Part.Activates.frame {T : Set Block} {q : Part} (h : p.Activates i) (f : ChangesOnly T p q)
    (hT : Block.points ∉ T ∧ Block.clock ∉ T := by simp) : q.Activates i := by
  obtain ⟨shelf, time, state⟩ := h
  have points := f.points_eq hT.1
  exact ⟨by rw [points]; exact shelf, by rw [points, f.now_eq hT.2]; exact time, by rw [points]; exact state⟩

variable {p i} in
theorem Part.Activates.settlePoints (h : p.Activates i) (l : List (Fin 62)) : (p.settlePoints l).Activates i := by
  unfold Part.settlePoints
  induction l generalizing p with
  | nil => exact h
  | cons a l ih => exact ih (h.settlePoint a false)

end

/-! ## The burners' configuration -/

/-- The configuration of every burner is as it was. -/
def CfgKept (p q : Part) : Prop := ∀ c : Fin 2, q.burners[c].cfg = p.burners[c].cfg

namespace CfgKept

variable {p q r : Part}

theorem refl (p : Part) : CfgKept p p := fun _ => rfl

theorem trans (h : CfgKept p q) (g : CfgKept q r) : CfgKept p r := fun c => (g c).trans (h c)

theorem of_burners (h : ∀ c : Fin 2, q.burners[c] = p.burners[c]) : CfgKept p q := fun c => congrArg Burner.cfg (h c)

theorem of_frame {T : Set Block} (h : ChangesOnly T p q) (hT : ∀ c : Fin 2, Block.burner c ∉ T := by simp) : CfgKept p q :=
  of_burners fun c => h.burner_eq c (hT c)

theorem ite {c : Prop} [Decidable c] (h : CfgKept p q) (g : CfgKept p r) : CfgKept p (if c then q else r) := by
  split
  · exact h
  · exact g

end CfgKept

section
variable (p : Part)

theorem Part.burnerTo_cfg {b : Fin 2} {s : BurnerState} {fix : Burner → Burner} (mark : Bool)
    (same : ∀ x, (fix x).cfg = x.cfg) : CfgKept p (p.burnerTo b s fix mark) := fun c => by
  by_cases e : c = b
  · subst e
    rw [Part.burnerTo_burner, same]
    rfl
  · rw [Part.burnerTo_other e]

theorem Part.tripBurner_cfg (b : Fin 2) : CfgKept p (p.tripBurner b) :=
  .ite (.refl p) (p.burnerTo_cfg false fun _ => rfl)

theorem Part.tripBound_cfg (x : Binding) : CfgKept p (p.tripBound x) := by
  cases x with
  | none => exact .refl p
  | station => exact (p.tripBurner_cfg 0).trans (Part.tripBurner_cfg _ 1)
  | burner b => exact p.tripBurner_cfg b

theorem Part.activate_cfg (i : Fin 62) : CfgKept p (p.activate i) := by
  obtain ⟨-, -, burners, -, -⟩ := p.counted_alarms i
  rw [Part.activate_eq]
  generalize (p.sounded i).record (ShiftRec.activation (p.pointAttr i).cls) = q at *
  have counted : CfgKept p q := .of_burners fun c => by rw [burners]
  refine .ite (counted.trans fun c => ?_) counted
  obtain ⟨-, -, -, bs⟩ := q.actTrip_marks i
  rw [bs c]
  exact q.tripBound_cfg _ c

theorem Part.movePoint_cfg (i : Fin 62) (s : PointState) : CfgKept p (p.movePoint i s) :=
  (CfgKept.of_frame (p.updPoint_frame i fun x => { x with state := s })).trans (.of_frame (Part.offerPoint_frame i s _))

theorem Part.risePoint_cfg (i : Fin 62) : CfgKept p (p.risePoint i) := by
  unfold Part.risePoint
  split
  · exact p.activate_cfg i
  · exact p.activate_cfg i
  · exact p.movePoint_cfg i _
  · exact .refl p

theorem Part.fallPoint_cfg (i : Fin 62) : CfgKept p (p.fallPoint i) := by
  unfold Part.fallPoint
  split
  · exact p.movePoint_cfg i _
  · exact .ite (p.movePoint_cfg i _) (p.movePoint_cfg i _)
  · exact .refl p

theorem Part.settlePoint_cfg (i : Fin 62) (same : Bool) : CfgKept p (p.settlePoint i same) := by
  have entered (e : Bool) : CfgKept p (p.updPoint i fun x => { x with eff := e }) := .of_frame (p.updPoint_frame i _)
  by_cases steady : p.effective i = p.alarms.points[i].eff
  · rw [p.settlePoint_steady i steady]
    exact .refl p
  · cases shelved : p.alarms.points[i].shelvedUntil with
    | some t =>
      rw [p.settlePoint_shelved i steady (by rw [shelved]; rfl)]
      exact entered _
    | none =>
      cases up : p.effective i with
      | true =>
        rw [p.settlePoint_rises i up (by simpa [up] using steady) shelved]
        exact (entered _).trans (Part.risePoint_cfg _ i)
      | false =>
        rw [p.settlePoint_falls i up (by simpa [up] using steady) shelved]
        have fallen := (entered false).trans (Part.fallPoint_cfg _ i)
        exact .ite (fallen.trans (.of_frame (Part.hornCheck_frame _))) fallen

theorem Part.resume_cfg (b : Fin 2) : CfgKept p (p.resume b) := by
  unfold Part.resume
  split
  · exact p.burnerTo_cfg false fun _ => rfl
  · next c _ =>
    unfold Part.enterLightWait
    refine CfgKept.trans ?_ (.of_frame (Part.request_frame 0 b.val _))
    exact p.burnerTo_cfg false fun _ => rfl

theorem Part.followCauses_cfg (b : Fin 2) : CfgKept p (p.followCauses b) := fun c => by
  unfold Part.followCauses
  by_cases e : c = b
  · subst e
    rw [Part.updBurner_burners, set_self]
    split <;> rfl
  · rw [Part.updBurner_burners, set_other _ _ _ _ e]

theorem Part.settleHolds_cfg : CfgKept p p.settleHolds := by
  have one (b : Fin 2) (p : Part) : CfgKept p ((p.followCauses b).autoResume b) :=
    (p.followCauses_cfg b).trans (.ite (Part.resume_cfg _ b) (.refl _))
  exact (one 0 p).trans (one 1 _)

end

/-! ## One point among the others at the end of an event -/

/-- What the end of an event may change: the blocks of `settleAll`, and what `Onward` says of their registers. -/
structure Settles (p q : Part) : Prop where
  frame : ChangesOnly settleAllBlocks p q
  onward : Onward (fun _ => True) p q
  cfg : CfgKept p q

theorem Settles.refl (p : Part) : Settles p p := ⟨.refl, .refl p, .refl p⟩

theorem Settles.trans {p q r : Part} (h : Settles p q) (g : Settles q r) : Settles p r :=
  ⟨h.frame.trans g.frame, h.onward.trans g.onward, h.cfg.trans g.cfg⟩

section
variable {p : Part} {i : Fin 62}

theorem Part.settlePoint_settles (same : Bool) (j : Fin 62) (p : Part) : Settles p (p.settlePoint j same) :=
  ⟨(Part.settlePoint_frame j p same).1.mono, Part.settlePoint_onward same (fun _ _ => trivial) j,
    p.settlePoint_cfg j same⟩

theorem Part.settlePoints_settles (l : List (Fin 62)) (p : Part) : Settles p (p.settlePoints l) := by
  unfold Part.settlePoints
  induction l generalizing p with
  | nil => exact .refl p
  | cons a l ih => exact (Part.settlePoint_settles false a p).trans (ih _)

theorem Part.settlePoints_absent {l : List (Fin 62)} (h : i ∉ l) (p : Part) :
    (p.settlePoints l).alarms.points[i] = p.alarms.points[i] := by
  unfold Part.settlePoints
  induction l generalizing p with
  | nil => rfl
  | cons a l ih =>
    obtain ⟨ne, absent⟩ := not_or.1 (mt List.mem_cons.2 h)
    exact (ih absent _).trans (p.settlePoint_other a false ne)

/-- A point of the list is settled once, after and before others. -/
theorem Part.settlePoints_at {l : List (Fin 62)} (once : l.Nodup) (mem : i ∈ l) (p : Part) :
    ∃ q, Settles p q ∧ q.alarms.points[i] = p.alarms.points[i] ∧ Settles (q.settlePoint i) (p.settlePoints l) ∧
      (p.settlePoints l).alarms.points[i] = (q.settlePoint i).alarms.points[i] := by
  induction l generalizing p with
  | nil => cases mem
  | cons a l ih =>
    obtain ⟨fresh, once⟩ := List.nodup_cons.1 once
    have unroll : p.settlePoints (a :: l) = (p.settlePoint a).settlePoints l := rfl
    rw [unroll]
    rcases List.mem_cons.1 mem with rfl | mem
    · exact ⟨p, .refl p, rfl, Part.settlePoints_settles l _, Part.settlePoints_absent fresh _⟩
    · obtain ⟨q, settles, same, after, found⟩ := ih once mem (p.settlePoint a)
      have ne : i ≠ a := fun e => fresh (e ▸ mem)
      exact ⟨q, (Part.settlePoint_settles false a p).trans settles, same.trans (p.settlePoint_other a false ne), after, found⟩

/-- A point whose effective condition does not change any more and was found already stays as it is. -/
theorem Part.settlePoints_steady {l : List (Fin 62)} (once : l.Nodup)
    (steady : ∀ q, Settles p q → q.effective i = p.alarms.points[i].eff) :
    (p.settlePoints l).alarms.points[i] = p.alarms.points[i] := by
  by_cases mem : i ∈ l
  · obtain ⟨q, settles, same, -, found⟩ := Part.settlePoints_at once mem p
    rw [found, q.settlePoint_steady i (by rw [steady q settles, same]), same]
  · exact Part.settlePoints_absent mem p

/-! ## The stages of an event's end -/

theorem quietPoints_nodup : quietPoints.Nodup := (List.nodup_finRange 62).filter _

theorem promptPoints_nodup : promptPoints.Nodup := (List.nodup_finRange 62).filter _

theorem Part.settle_eq (p : Part) : p.settle = (((p.serviceAll).freezeAll).evaluate).settlePoints quietPoints := rfl

theorem Part.settleAll_eq (p : Part) : p.settleAll = ((p.settlePoints promptPoints).settleHolds).settle := rfl

/-- An event's end before its last points are found: service, frozen capacities, the evaluation. -/
theorem Part.evaluated_settles (p : Part) : Settles p ((p.serviceAll).freezeAll).evaluate := by
  have serviced : Onward (fun _ => True) p p.serviceAll := Onward.forAll (fun k p => p.service_onward k) _ p
  have frozen : Onward (fun _ => True) p.serviceAll p.serviceAll.freezeAll := (Part.freezeAll_frame _).onward
  exact ⟨(p.serviceAll_frame.mono.next (Part.freezeAll_frame _)).next (Part.evaluate_frame _),
    (serviced.trans frozen).trans (Part.evaluate_onward _),
    ((CfgKept.of_frame p.serviceAll_frame).trans (.of_frame (Part.freezeAll_frame _))).trans (.of_frame (Part.evaluate_frame _))⟩

theorem Part.evaluated_points (p : Part) : (((p.serviceAll).freezeAll).evaluate).alarms.points = p.alarms.points :=
  ((p.serviceAll_frame.andThen (Part.freezeAll_frame _)).andThen (Part.evaluate_frame _)).points_eq

theorem Part.settleHolds_settles (p : Part) : Settles p p.settleHolds :=
  ⟨p.settleHolds_frame.mono fun _ h => h.elim (fun h => .inl (.inl (.inr h))) fun h => .inl (.inr h), p.settleHolds_onward,
    p.settleHolds_cfg⟩

theorem Part.settle_settles (p : Part) : Settles p p.settle :=
  p.evaluated_settles.trans (Part.settlePoints_settles _ _)

theorem Part.settleAll_settles (p : Part) : Settles p p.settleAll :=
  ((Part.settlePoints_settles _ p).trans (Part.settleHolds_settles _)).trans (Part.settle_settles _)

theorem Part.settleHolds_points (p : Part) : p.settleHolds.alarms.points = p.alarms.points :=
  p.settleHolds_frame.points_eq

/-- `settle` leaves a point as it is that was found already and whose effective condition does not change any more. -/
theorem Part.settle_steady (steady : ∀ q, Settles p q → q.effective i = p.alarms.points[i].eff) :
    p.settle.alarms.points[i] = p.alarms.points[i] := by
  have before := p.evaluated_settles
  have same : (((p.serviceAll).freezeAll).evaluate).alarms.points[i] = p.alarms.points[i] := by rw [p.evaluated_points]
  have found := Part.settlePoints_steady (i := i) quietPoints_nodup
    (fun q h => (steady q (before.trans h)).trans (by rw [same]))
  rw [p.settle_eq, found, same]

theorem Part.settleAll_steady (steady : ∀ q, Settles p q → q.effective i = p.alarms.points[i].eff) :
    p.settleAll.alarms.points[i] = p.alarms.points[i] := by
  have first := Part.settlePoints_steady (i := i) promptPoints_nodup steady
  have upTo := (Part.settlePoints_settles promptPoints p).trans (Part.settleHolds_settles _)
  have same : (p.settlePoints promptPoints).settleHolds.alarms.points[i] = p.alarms.points[i] := by
    rw [Part.settleHolds_points, first]
  have last := Part.settle_steady (i := i) (fun q h => (steady q (upTo.trans h)).trans (by rw [same]))
  rw [p.settleAll_eq, last, same]

theorem Part.Activates.settleAll (h : p.Activates i) : p.settleAll.Activates i := by
  rw [p.settleAll_eq, Part.settle_eq]
  exact (((h.settlePoints promptPoints).frame (Part.settleHolds_frame _)).frame
    ((Part.serviceAll_frame _).andThen (Part.freezeAll_frame _) |>.andThen (Part.evaluate_frame _))).settlePoints quietPoints

/-- Where the effective condition of point i stays what it is, `settleAll` settles the point once. -/
theorem Part.settleAll_at (mem : i ∈ promptPoints) (steady : ∀ q, Settles p q → q.effective i = p.effective i) :
    ∃ q, Settles p q ∧ q.alarms.points[i] = p.alarms.points[i] ∧ Settles (q.settlePoint i) p.settleAll ∧
      p.settleAll.alarms.points[i] = (q.settlePoint i).alarms.points[i] := by
  obtain ⟨q, upTo, same, after, found⟩ := Part.settlePoints_at promptPoints_nodup mem p
  have rest := Part.settleHolds_settles (p.settlePoints promptPoints)
  have held : (p.settlePoints promptPoints).settleHolds.alarms.points[i] = (q.settlePoint i).alarms.points[i] := by
    rw [Part.settleHolds_points, found]
  have last := Part.settle_steady (i := i) (p := (p.settlePoints promptPoints).settleHolds) fun r h => by
    rw [held, Part.settlePoint_eff, steady q upTo]
    exact steady r ((upTo.trans (Part.settlePoint_settles false i q)).trans (after.trans (rest.trans h)))
  refine ⟨q, upTo, same, ?_, ?_⟩
  · rw [p.settleAll_eq]
    exact after.trans (rest.trans (Part.settle_settles _))
  · rw [p.settleAll_eq, last, held]

theorem Part.settleAll_eff (mem : i ∈ promptPoints) (steady : ∀ q, Settles p q → q.effective i = p.effective i) :
    p.settleAll.alarms.points[i].eff = p.effective i := by
  obtain ⟨q, upTo, -, -, found⟩ := Part.settleAll_at mem steady
  rw [found, Part.settlePoint_eff, steady q upTo]

/-- An external point's effective condition does not change at the end of an event. -/
theorem Settles.external {q : Part} (h : Settles p q) (external : 46 ≤ i.val) : q.effective i = p.effective i := by
  unfold Part.effective Part.pointArmed
  rw [q.condition_external external, p.condition_external external, h.onward.attr, h.onward.started, h.onward.mode,
    h.onward.ext]

/-- A condition found from registers outside the end of an event keeps the point's effective condition. -/
theorem Settles.effective {q : Part} (h : Settles p q) (same : q.condition i = p.condition i) :
    q.effective i = p.effective i := by
  unfold Part.effective Part.pointArmed
  rw [same, h.onward.attr, h.onward.started, h.onward.mode]

end

end Sys2Proof.Machine
end

section
/-! OBLIGATIONS O49, O50 and O51. Shelving, external conditions, the peer trip set, first-out, summary and horn. -/

namespace Sys2Proof.Machine

-- One proof at a time: the whole package as one text must not start a thread for each of them.
set_option Elab.async false

open Sys2Proof.Config

/-! ## Responses at the end of an event -/

theorem ChangesOnly.renewed_eq {T : Set Block} {p q : Part} (h : ChangesOnly T p q) (cmd : Nat)
    (hT : Block.buffer ∉ T ∧ Block.response ∉ T ∧ Block.enables ∉ T ∧ Block.engineering ∉ T ∧ Block.dataOut ∉ T := by simp)
    (clock : Block.clock ∉ T := by simp) : q.engineeringDone cmd = { q with host := p.host.renewed cmd p.now } := by
  rw [← h.renewed cmd hT clock]
  rfl

theorem ChangesOnly.answered_eq {T : Set Block} {p q : Part} (h : ChangesOnly T p q) (cmd : Nat) (code : Code)
    (data : List Byte)
    (hT : Block.buffer ∉ T ∧ Block.response ∉ T ∧ Block.enables ∉ T ∧ Block.engineering ∉ T ∧ Block.dataOut ∉ T := by simp) :
    q.reply cmd code data = { q with host := p.host.answered cmd code data } := by
  rw [← h.answered cmd code data hT]
  rfl

/-! ## Shelving (R148) -/

section
variable {p : Part}

theorem takes_shelve {i : Fin 62} {m : Nat} (w : p.host.window.isSome = true) (started : p.started = true) {q : Part}
    (h : (if (p.pointAttr i).cls = .trip ∨ (p.pointAttr i).cls = .alarm ∨ m = 0 ∨ 480 < m then p.reply 0x4B .badOperand
      else (p.updPoint i fun x =>
        { x with state := .normal, shelvedUntil := some (later p.now (m * 60000)) }).engineeringDone 0x4B) = q) :
    Takes (.shelve i.val m) p q :=
  takes_row rfl ((Part.engineering_open w _ _).trans ((Part.pointCommand_point started i _).trans h))

theorem takes_unshelve {i : Fin 62} (w : p.host.window.isSome = true) (started : p.started = true) {q : Part}
    (h : (if p.alarms.points[i].shelvedUntil.isSome then ((p.endShelving i).settleAll).engineeringDone 0x4C
      else p.reply 0x4C .wrongState) = q) : Takes (.unshelve i.val) p q :=
  takes_row rfl ((Part.engineering_open w _ _).trans ((Part.pointCommand_point started i _).trans h))

theorem Part.endShelving_quiet {i : Fin 62} (e : p.alarms.points[i].eff = false) : p.endShelving i =
    { p with alarms := { p.alarms with points := p.alarms.points.set i { p.alarms.points[i] with shelvedUntil := none } } } := by
  unfold Part.endShelving
  rw [e]
  rfl

theorem Part.endShelving_activates {i : Fin 62} (e : p.alarms.points[i].eff = true) : (p.endShelving i).Activates i := by
  have frame : (p.endShelving i).now = p.now := (p.endShelving_frame i).now_eq
  unfold Part.endShelving at frame ⊢
  rw [e, if_pos rfl] at frame ⊢
  have points := ((p.updPoint i fun x => { x with shelvedUntil := none }).activate_activated i).points
  rw [Part.updPoint_points, set_self, Vector.set_set] at points
  exact ⟨by rw [points, set_self], by rw [points, set_self, frame]; rfl, .inl (by rw [points, set_self])⟩

theorem takesAt_shelvingExpiry {i : Fin 62} {t : Time} {after : Part → Prop}
    (u : p.alarms.points[i].shelvedUntil = some t) (come : after (p.endShelving i).settleAll) :
    TakesAt (.shelvingExpiry i) t p after := by
  have now := ((p.endShelving_frame i).andThen (Part.settleAll_frame _)).now_eq
  exact takesAt_row (f := fun p => (p.endShelving i).settleAll) rfl (by rw [← u]) fun _ => ⟨now, come⟩

end

/-- Settles O49: an activation at the end of a shelving stands through the end of its event (`Part.Activates`). -/
theorem shelvingRows : Obligations.ShelvingRows := by
  unfold Obligations.ShelvingRows
  refine fun p => ⟨fun w => ⟨fun off n m => ⟨?_, ?_⟩, fun started n m out => ⟨?_, ?_⟩, fun started i m =>
    ⟨fun refused => ?_, fun cls low high => ?_, fun none => ?_, fun shelved quiet => ?_, fun shelved up => ?_⟩⟩,
    fun i => ⟨fun none => ?_, fun t u quiet => ?_, fun t u up => ?_⟩⟩
  · exact takes_row rfl ((Part.engineering_open w _ _).trans (Part.pointCommand_unstarted off _ _))
  · exact takes_row rfl ((Part.engineering_open w _ _).trans (Part.pointCommand_unstarted off _ _))
  · exact takes_row rfl ((Part.engineering_open w _ _).trans (Part.pointCommand_out started out _))
  · exact takes_row rfl ((Part.engineering_open w _ _).trans (Part.pointCommand_out started out _))
  · exact takes_shelve w started (by rw [if_pos refused, Part.reply_eq_answer])
  · have taken : ¬ ((p.pointAttr i).cls = .trip ∨ (p.pointAttr i).cls = .alarm ∨ m = 0 ∨ 480 < m) := by
      rcases cls with c | c <;> simp [c] <;> omega
    exact takes_shelve w started (by rw [if_neg taken]; rfl)
  · exact takes_unshelve w started (by rw [none, if_neg (by decide), Part.reply_eq_answer])
  · have frame := (p.endShelving_frame i).andThen (Part.settleAll_frame _)
    have done := frame.renewed_eq 0x4C
    rw [Part.endShelving_quiet quiet] at done
    exact takes_unshelve w started ((if_pos shelved).trans (by rw [Part.endShelving_quiet quiet]; exact done))
  · have frame := (p.endShelving_frame i).andThen (Part.settleAll_frame _)
    obtain ⟨shelf, time, state⟩ := (Part.endShelving_activates up).settleAll
    have now := frame.now_eq
    have host := frame.renewed 0x4C
    have takes := takes_unshelve w started (if_pos shelved)
    generalize (p.endShelving i).settleAll = q at shelf time state now host takes
    exact ⟨_, takes, host, shelf, time.trans (congrArg some now), state⟩
  · refine takes_row rfl ?_
    dsimp only
    rw [none]
    rfl
  · exact takesAt_shelvingExpiry u (by rw [Part.endShelving_quiet quiet])
  · obtain ⟨shelf, time, state⟩ := (Part.endShelving_activates up).settleAll
    exact takesAt_shelvingExpiry u ⟨shelf, time, state⟩

/-! ## External points (R150) -/

section
variable {p : Part} {n : Fin 16} {i : Fin 62} (named : i.val = 46 + n.val)
include named

theorem ext_of_point (v : Vector Ext 16) : v[Fin.ofNat 16 (i.val - 46)] = v[n] :=
  congrArg (fun m : Fin 16 => v[m]) (Fin.ext (by simp [Fin.ofNat]; omega))

theorem mem_promptPoints_external : i ∈ promptPoints := by
  simp [promptPoints, pointIds]; omega

theorem Part.pointAttr_external : p.pointAttr i = p.alarms.ext[n].attr := by
  unfold Part.pointAttr
  dsimp only
  repeat rw [if_neg (by omega)]
  rw [ext_of_point named]

theorem Part.condition_of_ext : p.condition i = (p.started && p.alarms.ext[n].used && p.alarms.ext[n].cond) := by
  rw [p.condition_external (by omega), ext_of_point named]

theorem Part.setExt_effective (on : Bool) (started : p.started = true) (used : p.alarms.ext[n].used = true) :
    (p.setExt n { p.alarms.ext[n] with cond := on }).effective i = (on && p.mode.armed p.alarms.ext[n].attr.mask) := by
  have ext : (p.setExt n { p.alarms.ext[n] with cond := on }).alarms.ext[n] = { p.alarms.ext[n] with cond := on } :=
    set_self ..
  unfold Part.effective Part.pointArmed
  rw [Part.condition_of_ext named, Part.pointAttr_external named, ext]
  show (p.started && (p.started && p.alarms.ext[n].used && on) && p.mode.armed p.alarms.ext[n].attr.mask) = _
  rw [started, used]
  cases on <;> rfl

/-- The end of an event in which the effective condition of external point i rose: what an activation brings stands. -/
theorem Part.settleAll_raises (up : p.effective i = true) (e : p.alarms.points[i].eff = false)
    (s : p.alarms.points[i].shelvedUntil = none) :
    p.settleAll.alarms.points[i].eff = true ∧
    (p.alarms.points[i].state = .normal ∨ p.alarms.points[i].state = .cleared →
      p.settleAll.alarms.points[i].state = .active ∧ p.settleAll.alarms.points[i].lastActivation = some p.now ∧
      (p.alarms.ext[n].attr.cls = .trip → p.settleAll.alarms.tripNew = true ∧ p.settleAll.alarms.seen.trip = true ∧
        ∀ b : Fin 2, p.burners[b].cfg.used = true →
          p.alarms.ext[n].attr.binding = .station ∨ p.alarms.ext[n].attr.binding = .burner b → p.settleAll.burners[b].out) ∧
      (p.alarms.ext[n].attr.latching = true → p.settleAll.alarms.autoResume = false)) ∧
    (p.alarms.points[i].state = .clearedAcked → p.settleAll.alarms.points[i].state = .activeAcked) ∧
    (p.alarms.points[i].state = .active ∨ p.alarms.points[i].state = .activeAcked →
      p.settleAll.alarms.points[i].state = p.alarms.points[i].state) := by
  obtain ⟨q, upTo, same, after, found⟩ := Part.settleAll_at (mem_promptPoints_external named) fun q (h : Settles p q) =>
    h.external (by omega)
  have risen : q.effective i = true := (upTo.external (by omega)).trans up
  obtain ⟨state, time⟩ := Part.settlePoint_up (same := false) risen (by rw [same]; exact e) (by rw [same]; exact s)
  have attr : q.pointAttr i = p.alarms.ext[n].attr := (upTo.onward.attr i).trans (Part.pointAttr_external named)
  rw [same] at state time
  rw [found]
  refine ⟨(q.settlePoint_eff i false).trans risen, fun was => ⟨?_, ?_, fun trip => ?_, fun latching => ?_⟩, fun was => ?_,
    fun was => ?_⟩
  · rw [state]
    rcases was with was | was <;> rw [was] <;> rfl
  · rw [time was, upTo.frame.now_eq]
  · rw [q.settlePoint_activates risen (by rw [same]; exact e) (by rw [same]; exact s) (by rw [same]; exact was)] at after
    have activated := (q.updPoint i fun x => { x with eff := true }).activate_activated i
    rw [← attr] at trip
    exact ⟨after.onward.tripNew (activated.tripNew trip), after.onward.tripSeen (activated.tripSeen trip), fun b used names =>
      by
        have out := activated.tripped trip b (by
          show q.burners[b].cfg.used = true
          rw [upTo.cfg b]; exact used) (by rw [← attr] at names; exact names)
        rw [Burner.out, (after.onward.out out).burner]
        exact out⟩
  · rw [q.settlePoint_activates risen (by rw [same]; exact e) (by rw [same]; exact s) (by rw [same]; exact was)] at after
    have activated := (q.updPoint i fun x => { x with eff := true }).activate_activated i
    exact after.onward.autoResume (activated.latch ((congrArg PointAttr.latching attr).trans latching))
  · rw [state, was]; rfl
  · rw [state]
    rcases was with was | was <;> rw [was] <;> rfl

theorem Part.settleAll_clears (up : p.effective i = false) : p.settleAll.alarms.points[i].eff = false ∧
    (p.alarms.points[i].eff = true → p.alarms.points[i].shelvedUntil = none →
      p.settleAll.alarms.points[i].state = p.alarms.points[i].state.fallen p.alarms.ext[n].attr.latching) := by
  obtain ⟨q, upTo, same, -, found⟩ := Part.settleAll_at (mem_promptPoints_external named) fun q (h : Settles p q) =>
    h.external (by omega)
  have fallen : q.effective i = false := (upTo.external (by omega)).trans up
  rw [found]
  refine ⟨(q.settlePoint_eff i false).trans fallen, fun e s => ?_⟩
  rw [Part.settlePoint_down fallen (by rw [same]; exact e) (by rw [same]; exact s), same, upTo.onward.attr,
    Part.pointAttr_external named]

end

/-- Settles O50: the effective condition of an external point is what its condition and its mask say (`setExt_effective`), and
the end of the event finds it once (`settleAll_raises`, `settleAll_clears`). -/
theorem externalConditionsMovePoints : Obligations.ExternalConditionsMovePoints := by
  unfold Obligations.ExternalConditionsMovePoints
  intro p n i named started used source
  have takes (c : Instr) (cmd : Nat) (on : Bool) (e : effect c p = p.hostCondition cmd n.val on) :
      Takes c p ((p.setExt n { p.alarms.ext[n] with cond := on }).settleAll.answer cmd .done []) :=
    takes_iff.2 (e.trans (Part.hostCondition_host started used source on))
  have host (cmd : Nat) (on : Bool) : ((p.setExt n { p.alarms.ext[n] with cond := on }).settleAll.answer cmd .done []).host =
      p.host.answered cmd .done [] := by
    have frame := (p.setExt_frame n { p.alarms.ext[n] with cond := on }).andThen (Part.settleAll_frame _)
    rw [← Part.reply_eq_answer]
    exact frame.answered cmd .done []
  have ext (on : Bool) : (p.setExt n { p.alarms.ext[n] with cond := on }).settleAll.alarms.ext =
      p.alarms.ext.set n { p.alarms.ext[n] with cond := on } := (Part.settleAll_settles _).onward.ext
  have attr (on : Bool) : (p.setExt n { p.alarms.ext[n] with cond := on }).alarms.ext[n].attr = p.alarms.ext[n].attr := by
    rw [show (p.setExt n { p.alarms.ext[n] with cond := on }).alarms.ext[n] = { p.alarms.ext[n] with cond := on } from
      set_self ..]
  have raises := takes (.raiseExternal n.val) 0x4E true (effect_of_exec rfl)
  have clears := takes (.clearExternal n.val) 0x4F false (effect_of_exec rfl)
  have up := Part.setExt_effective named true started used
  have raised := fun armed => Part.settleAll_raises (p := p.setExt n { p.alarms.ext[n] with cond := true }) named
    (up.trans armed)
  obtain ⟨eff, fallen⟩ := Part.settleAll_clears named (Part.setExt_effective named false started used)
  rw [attr] at raised fallen
  have raisedHost := host 0x4E true
  have clearedHost := host 0x4F false
  have raisedExt := ext true
  have clearedExt := ext false
  generalize (p.setExt n { p.alarms.ext[n] with cond := true }).settleAll = q at raises raised raisedHost raisedExt
  generalize (p.setExt n { p.alarms.ext[n] with cond := false }).settleAll = r at clears eff fallen clearedHost clearedExt
  exact ⟨⟨_, raises, raisedHost, raisedExt, raised⟩, ⟨_, clears, clearedHost, clearedExt, eff, fun e s =>
    ⟨fun was => (fallen e s).trans (congrArg (PointState.fallen _) was),
      fun was => (fallen e s).trans (congrArg (PointState.fallen _) was)⟩⟩⟩

/-! ## The peer trip set, first-out, summary and horn (R153 to R156) -/

section
variable {p : Part}

theorem Part.removePeerTrip_settled (x : Fin 16) (alone : ∀ y, y ≠ x → p.alarms.peerTrips[y] = none) :
    (p.removePeerTrip x).settleAll.alarms.points[(2 : Fin 62)].eff = false := by
  have quiet (q : Part) (h : q.alarms.peerTrips = p.alarms.peerTrips.set x none) : q.effective 2 = false := by
    have empty : q.alarms.peerTrips.toList.any (·.isSome) = false := by
      rw [h, Bool.eq_false_iff]
      intro any
      obtain ⟨t, mem, some⟩ := List.any_eq_true.1 any
      obtain ⟨y, lt, rfl⟩ := Vector.mem_iff_getElem.1 (Vector.mem_toList_iff.1 mem)
      by_cases e : y = x.val
      · subst e
        simp at some
      · rw [Vector.getElem_set_ne _ _ (fun c => e c.symm)] at some
        exact absurd (congrArg Option.isSome (alone ⟨y, lt⟩ fun c => e (congrArg Fin.val c))) (by
          rw [show p.alarms.peerTrips[(⟨y, lt⟩ : Fin 16)] = p.alarms.peerTrips[y] from rfl, some]; decide)
    unfold Part.effective
    rw [show q.condition 2 = q.alarms.peerTrips.toList.any (·.isSome) from rfl, empty, Bool.and_false, Bool.false_and]
  have steady (q : Part) (h : Settles (p.removePeerTrip x) q) : q.effective 2 = (p.removePeerTrip x).effective 2 := by
    have same : q.alarms.peerTrips = (p.removePeerTrip x).alarms.peerTrips := (h.frame.same .peerTrips (by simp)).1
    exact (quiet q same).trans (quiet (p.removePeerTrip x) rfl).symm
  rw [Part.settleAll_eff (by decide) steady]
  exact quiet (p.removePeerTrip x) rfl

end

theorem takes_discardPeerTrip {p q : Part} {x : Fin 16} (w : p.host.window.isSome = true) (other : x ≠ p.strapStation)
    (h : (if p.alarms.peerTrips[x].isNone || (p.fresh x).isSome then p.reply 0x50 .wrongState
      else ((p.removePeerTrip x).settleAll).engineeringDone 0x50) = q) : Takes (.discardPeerTrip (x.val + 1)) p q := by
  refine takes_row rfl ((Part.engineering_open w _ _).trans ?_)
  have some : (stationIndex (x.val + 1)).filter (· ≠ p.strapStation) = some x := by
    rw [stationIndex_succ]; simp [other]
  rw [some]
  exact h

theorem Part.anyTripStands_iff (p : Part) : p.anyTripStands = true ↔
    ∃ i : Fin 62, (p.pointAttr i).cls = .trip ∧ p.alarms.points[i].state ≠ .normal := by
  simp [Part.anyTripStands, pointIds]

/-- Settles O51: the condition of LINE TRIP RECEIVED is the peer trip set, which the end of the event leaves alone
(`removePeerTrip_settled`). -/
theorem tripSetFirstOutAndHorn : Obligations.TripSetFirstOutAndHorn := by
  unfold Obligations.TripSetFirstOutAndHorn
  refine fun p => ⟨fun w => ⟨fun s out => ?_, fun x other => ⟨fun refused => ?_, fun stands stale => ?_⟩⟩,
    fun off => ⟨?_, ?_, ?_, ?_⟩, fun started => ⟨fun ⟨i, cls, state⟩ => ?_, fun normal => ?_, ?_, ?_⟩⟩
  · refine takes_row rfl ((Part.engineering_open w _ _).trans ?_)
    have none : (stationIndex s).filter (· ≠ p.strapStation) = none := by
      rcases out with out | out | out
      · rw [stationIndex_eq_none (.inl out)]; rfl
      · rw [stationIndex_eq_none (.inr out)]; rfl
      · rw [out, stationIndex_succ]; simp
    rw [none, Part.reply_eq_answer]
  · refine takes_discardPeerTrip w other ?_
    rw [if_pos (by simpa [Option.isNone_iff_eq_none] using refused), Part.reply_eq_answer]
  · have frame := (p.removePeerTrip_frame x).andThen (Part.settleAll_frame _)
    have peers : (p.removePeerTrip x).settleAll.alarms.peerTrips = p.alarms.peerTrips.set x none :=
      ((Part.settleAll_frame (p.removePeerTrip x)).same .peerTrips (by simp)).1
    have host := frame.renewed 0x50
    have eff := p.removePeerTrip_settled x
    have refused : ¬ (p.alarms.peerTrips[x].isNone || (p.fresh x).isSome) = true := by
      rw [stale, Option.isNone_eq_false_iff.2 stands]
      decide
    have takes := takes_discardPeerTrip w other (if_neg refused)
    generalize (p.removePeerTrip x).settleAll = q at peers host eff takes
    exact ⟨_, takes, peers, host, eff⟩
  · exact takes_row rfl ((if_pos (by simp [off])).trans (Part.reply_eq_answer ..))
  · exact takes_row rfl ((if_neg (by simp [off])).trans (Part.reply_eq_answer ..))
  · exact takes_row rfl ((if_neg (by simp [off])).trans (Part.reply_eq_answer ..))
  · exact takes_row rfl ((if_neg (by simp [off])).trans (Part.reply_eq_answer ..))
  · refine takes_row rfl ((if_neg (by simp [started])).trans ((if_pos ?_).trans (Part.reply_eq_answer ..)))
    exact (Part.anyTripStands_iff p).2 ⟨i, cls, state⟩
  · refine takes_row rfl ((if_neg (by simp [started])).trans ((if_neg ?_).trans (Part.reply_eq_answer ..)))
    exact fun stands => have ⟨i, cls, state⟩ := (Part.anyTripStands_iff p).1 stands; state (normal i cls)
  · exact takes_row rfl ((if_pos started).trans (Part.reply_eq_answer ..))
  · have frame : ChangesOnly ({.points} ∪ settleAllBlocks) p _ := (p.points_frame fun a => { a with
      seen := ⟨false, false, false, false⟩, autoResume := true }).andThen (Part.settleAll_frame _)
    exact takes_row rfl ((if_pos started).trans (frame.answered_eq 0x54 .done []))

end Sys2Proof.Machine
end

section
/-! SUPPORT. A condition that rises and falls in one event (R82, R84, R125, R126, R133): its point, and the horn at the end of
the event (R156). -/

namespace Sys2Proof.Machine

-- One proof at a time: the whole package as one text must not start a thread for each of them.
set_option Elab.async false

open Sys2Proof.Config

/-! ## Internal points that are armed in every mode -/

theorem internal_armed : ∀ i : Fin 62, i.val < 46 → 10 ≤ i.val →
    (i.val = 10 ∨ i.val = 11 ∨ i.val = 14 ∨ i.val = 15 ∨ 36 ≤ i.val ∧ i.val < 44 ∨ i.val = 45) →
    ((Part.powerUp 0 0 false).pointAttr i).mask = 15 ∧ ((Part.powerUp 0 0 false).pointAttr i).latching = true ∧
      (((Part.powerUp 0 0 false).pointAttr i).cls = .trip ∨ ((Part.powerUp 0 0 false).pointAttr i).cls = .alarm) := by
  decide

/-- The points whose condition rises and falls in one event: FLAME FAIL and LIGHT-OFF FAIL, FAN TRIP and FAN START FAIL, and
GRATE DRIVE FAULT. -/
def momentary (i : Fin 62) : Prop :=
  i.val = 10 ∨ i.val = 11 ∨ i.val = 14 ∨ i.val = 15 ∨ 36 ≤ i.val ∧ i.val < 44 ∨ i.val = 45

section
variable {i : Fin 62} (m : momentary i)
include m

theorem momentary_attr (p : Part) : (p.pointAttr i).latching = true ∧
    ((p.pointAttr i).cls = .trip ∨ (p.pointAttr i).cls = .alarm) := by
  have internal : i.val < 46 := by unfold momentary at m; omega
  rw [p.internal_attr (.powerUp 0 0 false) i internal]
  exact (internal_armed i internal (by unfold momentary at m; omega) m).2

theorem momentary_effective (p : Part) : p.effective i = (p.started && p.condition i) := by
  have internal : i.val < 46 := by unfold momentary at m; omega
  unfold Part.effective Part.pointArmed
  rw [p.internal_attr (.powerUp 0 0 false) i internal,
    (internal_armed i internal (by unfold momentary at m; omega) m).1]
  cases p.mode <;> exact Bool.and_true _

theorem momentary_prompt : i ∈ promptPoints := by
  unfold momentary at m
  simp [promptPoints, pointIds]; omega

end

/-! ## The horn is off where no TRIP or ALARM point stands in ACTIVE -/

/-- A TRIP or ALARM point stands in ACTIVE, or the horn is off. -/
def Part.HornRight (p : Part) : Prop :=
  p.soundingPoint = true ∨ (p.alarms.horn = false ∧ p.field.output.horn = false)

section
variable {p : Part} {i : Fin 62}

theorem Part.soundingPoint_congr {q : Part} (points : q.alarms.points = p.alarms.points)
    (ext : q.alarms.ext = p.alarms.ext) : q.soundingPoint = p.soundingPoint := by
  have attr (i : Fin 62) : q.pointAttr i = p.pointAttr i := Part.pointAttr_congr (fun n => by rw [ext]) i
  unfold Part.soundingPoint
  simp only [points, attr]

theorem Part.hornCheck_right (p : Part) : p.hornCheck.HornRight := by
  obtain ⟨on, off, -, -⟩ := p.hornCheck_horn
  cases c : p.soundingPoint with
  | true =>
    rw [on c]
    exact .inl c
  | false => exact .inr (off c)

theorem ChangesOnly.hornRight {T : Set Block} {q : Part} (f : ChangesOnly T p q) (h : p.HornRight)
    (hT : Block.points ∉ T ∧ Block.ext ∉ T ∧ Block.horn ∉ T ∧ Block.hornOut ∉ T := by simp) : q.HornRight := by
  obtain ⟨points, ext, horn, out⟩ := hT
  have same := Part.soundingPoint_congr (f.points_eq points) (f.ext_eq ext)
  exact h.imp (fun s => same.trans s) fun ⟨a, b⟩ => ⟨Eq.trans (f.same .horn horn) a, Eq.trans (f.same .hornOut out) b⟩

/-- A point that did not stand in ACTIVE moves: the others sound on. -/
theorem Part.HornRight.moved {q : Part} (h : p.HornRight) (calm : p.alarms.points[i].state ≠ .active)
    (points : ∃ x, q.alarms.points = p.alarms.points.set i x) (ext : q.alarms.ext = p.alarms.ext)
    (horn : q.alarms.horn = p.alarms.horn) (out : q.field.output.horn = p.field.output.horn) : q.HornRight := by
  obtain ⟨x, points⟩ := points
  refine h.imp (fun s => ?_) fun ⟨a, b⟩ => ⟨horn.trans a, out.trans b⟩
  obtain ⟨j, active, cls⟩ := (Part.soundingPoint_iff _).1 s
  have ne : j ≠ i := fun e => calm (e ▸ active)
  refine (Part.soundingPoint_iff _).2 ⟨j, ?_, ?_⟩
  · rw [points, set_other _ _ _ _ ne]
    exact active
  · rw [Part.pointAttr_congr (p := p) (fun n => by rw [ext])]
    exact cls

theorem Part.HornRight.movePoint (h : p.HornRight) (calm : p.alarms.points[i].state ≠ .active) (s : PointState) :
    (p.movePoint i s).HornRight := by
  have frame := (p.updPoint_frame i fun x => { x with state := s }).andThen (Part.offerPoint_frame i s _)
  exact h.moved calm ⟨_, p.movePoint_points i s⟩ frame.ext_eq (frame.same .horn (by simp)) (frame.same .hornOut (by simp))

theorem Part.HornRight.activate (h : p.HornRight) (calm : p.alarms.points[i].state ≠ .active) : (p.activate i).HornRight := by
  have activated := p.activate_activated i
  have frame := (Part.activate_frame i p).1
  by_cases loud : (p.pointAttr i).cls = .trip ∨ (p.pointAttr i).cls = .alarm
  · refine .inl ((Part.soundingPoint_iff _).2 ⟨i, ?_, ?_⟩)
    · rw [activated.points, set_self]
    · rw [Part.pointAttr_congr (p := p) (fun n => by rw [frame.ext_eq])]
      exact loud
  · have silent : (p.pointAttr i).cls ≠ .trip := fun c => loud (.inl c)
    have eq : p.activate i = (p.sounded i).record (ShiftRec.activation (p.pointAttr i).cls) := by
      obtain ⟨-, -, -, -, attr⟩ := p.counted_alarms i
      rw [Part.activate_eq, if_neg silent]
    have quiet : p.sounded i = p.announce i := if_neg loud
    have horns := (p.announce_frame i).andThen (Part.record_frame (ShiftRec.activation (p.pointAttr i).cls) _)
    rw [← quiet, ← eq] at horns
    exact h.moved calm ⟨_, activated.points⟩ frame.ext_eq (horns.same .horn (by simp)) (horns.same .hornOut (by simp))

theorem Part.HornRight.risePoint (h : p.HornRight) (i : Fin 62) : (p.risePoint i).HornRight := by
  unfold Part.risePoint
  split
  · next e => exact h.activate (by rw [e]; decide)
  · next e => exact h.activate (by rw [e]; decide)
  · next e => exact h.movePoint (by rw [e]; decide) _
  · exact h

theorem Part.HornRight.fallPoint (h : p.HornRight) (i : Fin 62) (calm : p.alarms.points[i].state ≠ .active) :
    (p.fallPoint i).HornRight := by
  unfold Part.fallPoint
  split
  · next e => exact absurd e calm
  · next e =>
    split
    · exact h.movePoint (by rw [e]; decide) _
    · exact h.movePoint (by rw [e]; decide) _
  · exact h

theorem Part.HornRight.settlePoint (h : p.HornRight) (j : Fin 62) : (p.settlePoint j).HornRight := by
  by_cases steady : p.effective j = p.alarms.points[j].eff
  · rw [p.settlePoint_steady j steady]
    exact h
  · have entered (e : Bool) : (p.updPoint j fun x => { x with eff := e }).HornRight := by
      refine h.imp (fun s => ?_) id
      obtain ⟨k, active, cls⟩ := (Part.soundingPoint_iff _).1 s
      refine (Part.soundingPoint_iff _).2 ⟨k, ?_, cls⟩
      rw [Part.updPoint_points]
      by_cases e : k = j
      · subst e
        rw [set_self]
        exact active
      · rw [set_other _ _ _ _ e]
        exact active
    have state (e : Bool) : (p.updPoint j fun x => { x with eff := e }).alarms.points[j].state = p.alarms.points[j].state := by
      rw [Part.updPoint_points, set_self]
    cases shelved : p.alarms.points[j].shelvedUntil with
    | some t =>
      rw [p.settlePoint_shelved j steady (by rw [shelved]; rfl)]
      exact entered _
    | none =>
      cases up : p.effective j with
      | true =>
        rw [p.settlePoint_rises j up (by simpa [up] using steady) shelved]
        exact (entered true).risePoint j
      | false =>
        rw [p.settlePoint_falls j up (by simpa [up] using steady) shelved]
        split
        · exact Part.hornCheck_right _
        · next calm =>
          refine (entered false).fallPoint j fun active => calm ?_
          rw [← state false, active]
          rfl

theorem Part.HornRight.settlePoints (h : p.HornRight) (l : List (Fin 62)) : (p.settlePoints l).HornRight := by
  unfold Part.settlePoints
  induction l generalizing p with
  | nil => exact h
  | cons a l ih => exact ih (h.settlePoint a)

theorem Part.HornRight.settleAll (h : p.HornRight) : p.settleAll.HornRight := by
  rw [p.settleAll_eq, Part.settle_eq]
  have held := (Part.settleHolds_frame (p.settlePoints promptPoints)).hornRight (h.settlePoints promptPoints)
  have evaluated := ((Part.serviceAll_frame (p.settlePoints promptPoints).settleHolds).andThen (Part.freezeAll_frame _)).andThen
    (Part.evaluate_frame _)
  exact (evaluated.hornRight held).settlePoints quietPoints

theorem Part.HornRight.off (h : p.HornRight) (attr : ∀ j : Fin 62, p.alarms.points[j].state = .active →
    (p.pointAttr j).cls = .warning ∨ (p.pointAttr j).cls = .notice) : p.alarms.horn = false ∧ p.field.output.horn = false := by
  refine h.resolve_left fun s => ?_
  obtain ⟨j, active, cls⟩ := (Part.soundingPoint_iff _).1 s
  rcases attr j active with c | c <;> rw [c] at cls <;> exact cls.elim nofun nofun

end

/-! ## The spell of a condition within one event -/

section
variable {p q : Part} {i : Fin 62}

theorem Part.keepHorn_cleared (h : p.alarms.points[i].state = .cleared) : (p.keepHorn i).alarms.points = p.alarms.points ∧
    (p.keepHorn i).alarms.horn = true ∧ (p.keepHorn i).field.output.horn = true := by
  unfold Part.keepHorn
  rw [if_pos h]
  exact ⟨rfl, rfl, rfl⟩

theorem Part.keepHorn_other (h : p.alarms.points[i].state ≠ .cleared) : p.keepHorn i = p := if_neg h

/-- What an event leaves of a momentary condition that rose in p, `move` having led from the rise to q, in which it fell. -/
theorem Part.spell (m : momentary i) (started : p.started = true) (up : p.condition i = true)
    (moved : q.alarms.points[i] = (p.settlePoint i).alarms.points[i]) (down : ∀ r, Settles q r → r.condition i = false)
    (eff : p.alarms.points[i].eff = false) (shelf : p.alarms.points[i].shelvedUntil = none) :
    let r := ((q.settlePoint i true).settleAll).keepHorn i
    (p.alarms.points[i].state = .normal → r.alarms.points[i].state = .cleared ∧
      r.alarms.points[i].lastActivation = some p.now ∧ r.alarms.horn = true ∧ r.field.output.horn = true) ∧
    (p.alarms.points[i].state = .clearedAcked → r.alarms.points[i].state = .clearedAcked ∧
      ((∀ j : Fin 62, r.alarms.points[j].state = .active → (r.pointAttr j).cls = .warning ∨ (r.pointAttr j).cls = .notice) →
        r.alarms.horn = false ∧ r.field.output.horn = false)) := by
  have quiet (r : Part) (h : Settles q r) : r.effective i = false := by
    rw [momentary_effective m, down r h, Bool.and_false]
  have upped : p.effective i = true := by rw [momentary_effective m, started, up]; rfl
  obtain ⟨risen, time⟩ := Part.settlePoint_up (same := false) upped eff shelf
  have fell := Part.settlePoint_settles true i q
  have stays := Part.settleAll_steady (i := i) (p := q.settlePoint i true) fun r h => by
    rw [Part.settlePoint_eff, quiet q (.refl q)]
    exact quiet r (fell.trans h)
  have qeff : q.alarms.points[i].eff = true := by rw [moved, Part.settlePoint_eff, upped]
  have qshelf : q.alarms.points[i].shelvedUntil = none := by rw [moved, Part.settlePoint_shelf, shelf]
  have fallen := Part.settlePoint_down (same := true) (quiet q (.refl q)) qeff qshelf
  have last : (q.settlePoint i true).alarms.points[i].lastActivation = q.alarms.points[i].lastActivation :=
    Part.settlePoint_down_time (quiet q (.refl q)) qeff qshelf
  have latching : (q.pointAttr i).latching = true := (momentary_attr m q).1
  have horn : p.alarms.points[i].state = .clearedAcked → (q.settlePoint i true).HornRight := by
    intro was
    rw [q.settlePoint_falls i (quiet q (.refl q)) qeff qshelf, moved, risen, was,
      if_pos (by decide)]
    exact Part.hornCheck_right _
  rw [moved, risen, latching] at fallen
  refine ⟨fun was => ?_, fun was => ?_⟩
  · have cleared : (q.settlePoint i true).settleAll.alarms.points[i].state = .cleared := by
      rw [stays, fallen, was]
      rfl
    have activated : (q.settlePoint i true).settleAll.alarms.points[i].lastActivation = some p.now := by
      rw [stays, last, moved]
      exact time (.inl was)
    generalize (q.settlePoint i true).settleAll = r at cleared activated ⊢
    obtain ⟨points, loud, out⟩ := Part.keepHorn_cleared cleared
    rw [points]
    exact ⟨cleared, activated, loud, out⟩
  · have acked : (q.settlePoint i true).settleAll.alarms.points[i].state = .clearedAcked := by
      rw [stays, fallen, was]
      rfl
    have right := (horn was).settleAll
    generalize (q.settlePoint i true).settleAll = r at acked right ⊢
    rw [Part.keepHorn_other (by rw [acked]; decide)]
    exact ⟨acked, right.off⟩

end

end Sys2Proof.Machine
end

section
/-! OBLIGATIONS O44, O45 and O46. The rows of fans and grate. -/

namespace Sys2Proof.Machine

-- One proof at a time: the whole package as one text must not start a thread for each of them.
set_option Elab.async false

open Sys2Proof.Config

/-! ## A request for a line resource (R41) -/

section
variable {p : Part} {k : Fin 3} {u : Nat}

theorem Part.service_keepsHeld {j : Fin 3} (h : p.holdsFor k u) : (p.service j).holdsFor k u := by
  by_cases e : j = k
  · subst e
    unfold Part.service
    split
    · next ready =>
      simp only [Part.serviceReady, Bool.and_eq_true] at ready
      simp_all [Part.holdsFor]
    · exact h
  · exact ((p.service_frame j).holdsFor k u (by simpa using fun c => e c.symm)).2 h

theorem Part.serviceAll_keepsHeld (h : p.holdsFor k u) : p.serviceAll.holdsFor k u :=
  forAll_keeps (I := fun q => q.holdsFor k u) (fun _ _ => Part.service_keepsHeld) h

theorem Part.settle_keepsHeld (h : p.holdsFor k u) : p.settle.holdsFor k u := by
  rw [Part.settle_eq]
  have frame := ((Part.freezeAll_frame p.serviceAll).andThen (Part.evaluate_frame _)).andThen (Part.settleQuiet_frame _)
  exact (frame.holdsFor k u).2 (Part.serviceAll_keepsHeld h)

/-- The user of a request waits for the resource, unless it holds it. -/
theorem Part.request_wants (started : p.started = true) (line : p.line.silent = false) :
    u ∈ (p.request k u).claims[k].waitList ∨ (p.request k u).holdsFor k u := by
  unfold Part.request
  rw [if_neg (by simp [started, line])]
  split
  · next has =>
    simp only [Bool.or_eq_true, List.contains_iff_mem, Bool.and_eq_true, beq_iff_eq] at has
    exact has
  · refine .inl ?_
    have waits := (Part.service_frame k (p.updRes k fun r =>
      { r with waitList := insertUser u r.waitList,
               user := if r.state == .waiting && r.user.any (u < ·) then some u else r.user })).same (.waitList k) (by simp)
    rw [show _ = _ from waits, Part.updRes_claims_self]
    exact mem_insertUser.2 (.inl rfl)

theorem Part.settle_wants (h : u ∈ p.claims[k].waitList ∨ p.holdsFor k u) :
    u ∈ p.settle.claims[k].waitList ∨ p.settle.holdsFor k u := by
  refine h.imp (fun mem => ?_) Part.settle_keepsHeld
  rw [show p.settle.claims[k].waitList = p.claims[k].waitList from (Part.settle_frame p).same (.waitList k) (by simp)]
  exact mem

end

/-! ## Fan commands (R123, R124, R127, R128) -/

section
variable {p q : Part} {n : Fin 4} (started : p.started = true) (used : p.fans[n].cfg.used = true)
include started used

theorem takes_startFan (h : (if p.fans[n].state ≠ .stopped then p.reply 0x39 .wrongState
    else if p.line.silent then p.reply 0x39 .noLine
    else ((((p.fanTo n .startWait).request 1 n.val)).settle).reply 0x39 .done) = q) : Takes (.startFan n.val) p q :=
  takes_row rfl ((Part.fanCommand_used started used _).trans h)

theorem takes_stopFan (h : p.fans[n].state = .startWait ∨ p.fans[n].state = .starting ∨ p.fans[n].state = .running) :
    Takes (.stopFan n.val) p (((p.fanTo n .stopped).settle).reply 0x3A .done) := by
  refine takes_row rfl ((Part.fanCommand_used started used _).trans ?_)
  rcases h with e | e | e <;> rw [e]

theorem takes_stopFan_refused (h : p.fans[n].state = .unused ∨ p.fans[n].state = .stopped ∨ p.fans[n].state = .tripped) :
    Takes (.stopFan n.val) p (p.answer 0x3A .wrongState []) := by
  refine takes_row rfl ((Part.fanCommand_used started used _).trans ?_)
  rcases h with e | e | e <;> rw [e] <;> exact Part.reply_eq_answer ..

theorem takes_resetFan (h : (if p.fans[n].state ≠ .tripped then p.reply 0x3B .wrongState
    else if p.field.image.fanRun[n].value || !p.field.image.fanRun[n].valid then p.reply 0x3B .permissive
    else ((p.fanTo n .stopped).settle).reply 0x3B .done) = q) : Takes (.resetFan n.val) p q :=
  takes_row rfl ((Part.fanCommand_used started used _).trans h)

end

/-- A fan stopped and the event settled: what stands. -/
theorem Part.fanStopped (n : Fin 4) (p : Part) : (p.fanTo n .stopped).settle.fans[n] = p.fans[n].cleared .stopped ∧
    ¬ (p.fanTo n .stopped).settle.holdsFor 1 n.val ∧ (p.fanTo n .stopped).settle.field.output.fanRun[n] = false ∧
    (p.fanTo n .stopped).settle.field.output.fanSpeed[n] = 0 ∧
    Reported ⟨.fan, n.val, 1, false, p.now, 0, none⟩ (p.fanTo n .stopped).settle := by
  have frame := Part.settle_frame (p.fanTo n .stopped)
  obtain ⟨speed, run⟩ := frame.same .fanOut (by simp)
  obtain ⟨off, zero⟩ := p.fanTo_off (n := n) (s := .stopped) (by decide) (by decide)
  refine ⟨(frame.fan_eq n).trans (p.fanTo_fan n .stopped), fun h => ?_, (congrArg (·[n]) run).trans off,
    (congrArg (·[n]) speed).trans zero, frame.reported (p.fanTo_reported n .stopped)⟩
  exact p.fanTo_holdsNot (by decide) ((Part.settle_settles _).onward.holds _ _ h)

/-- Settles O44. -/
theorem fanCommands : Obligations.FanCommands := by
  unfold Obligations.FanCommands
  intro p n started used
  refine ⟨fun state => ?_, fun state silent => ?_, fun state silent => ?_, fun state => ?_, fun state => ?_, fun state => ?_,
    fun state bit => ?_, fun state bit => ?_⟩
  · exact takes_startFan started used (by rw [if_pos state, Part.reply_eq_answer])
  · exact takes_startFan started used (by rw [if_neg (not_not.2 state), if_pos silent, Part.reply_eq_answer])
  · have takes := takes_startFan started used (by rw [if_neg (not_not.2 state), if_neg (by simp [silent])])
    have moved := p.fanTo_frame n .startWait
    have asked := (Part.request_frame 1 n.val (p.fanTo n .startWait)).andThen (Part.settle_frame _)
    have frame := moved.andThen asked
    have host := frame.answered 0x39 .done []
    have fan := (asked.fan_eq n).trans (p.fanTo_fan n .startWait)
    have wants := Part.settle_wants (Part.request_wants (k := 1) (u := n.val) (moved.started_eq.trans started)
      (moved.silent_eq.trans silent))
    have reported := asked.reported (p.fanTo_reported n .startWait)
    generalize ((p.fanTo n .startWait).request 1 n.val).settle = q at takes host fan wants reported
    exact ⟨_, takes, host, fan, wants, reported⟩
  · have takes := takes_stopFan started used state
    have host := ((p.fanTo_frame n .stopped).andThen (Part.settle_frame _)).answered 0x3A .done []
    have stopped := p.fanStopped n
    generalize (p.fanTo n .stopped).settle = q at takes host stopped
    exact ⟨_, takes, host, stopped⟩
  · exact takes_stopFan_refused started used state
  · exact takes_resetFan started used (by rw [if_pos state, Part.reply_eq_answer])
  · have present : (p.field.image.fanRun[n].value || !p.field.image.fanRun[n].valid) = true := by
      cases h : p.field.image.fanRun[n] with
      | mk v ok => cases v <;> cases ok <;> simp_all
    exact takes_resetFan started used (by rw [if_neg (not_not.2 state), if_pos present, Part.reply_eq_answer])
  · have takes := takes_resetFan started used (by rw [if_neg (not_not.2 state), bit, if_neg (by decide)])
    have host := ((p.fanTo_frame n .stopped).andThen (Part.settle_frame _)).answered 0x3B .done []
    obtain ⟨fan, -, -, -, reported⟩ := p.fanStopped n
    generalize (p.fanTo n .stopped).settle = q at takes host fan reported
    exact ⟨_, takes, host, fan, reported⟩

/-! ## Fan timers (R125, R126, R131) -/

theorem Part.failStart_eq (n : Fin 4) (p : Part) : p.failStart n =
    (((p.updFan n fun x => { x with startFail := true }).settlePoint (fanFailPoint n)).fanTo n .tripped).settlePoint
      (fanFailPoint n) true := rfl

theorem Part.loseFan_eq (n : Fin 4) (p : Part) : p.loseFan n =
    (((p.updFan n fun x => { x with tripCond := true }).settlePoint (fanTripPoint n)).fanTo n .tripped).settlePoint
      (fanTripPoint n) true := rfl

theorem condition_fanTrip (p : Part) : ∀ n : Fin 4, p.condition (fanTripPoint n) = p.fans[n].tripCond
  | 0 => rfl
  | 1 => rfl
  | 2 => rfl
  | 3 => rfl

theorem condition_fanFail (p : Part) : ∀ n : Fin 4, p.condition (fanFailPoint n) = p.fans[n].startFail
  | 0 => rfl
  | 1 => rfl
  | 2 => rfl
  | 3 => rfl

theorem momentary_fan (n : Fin 4) : momentary (fanTripPoint n) ∧ momentary (fanFailPoint n) := by
  simp [momentary, fanTripPoint, fanFailPoint]; omega

section
variable {p : Part} {n : Fin 4} {i : Fin 62}

/-- The end of an event in which a condition of fan n, set by f, trips the fan. -/
theorem Part.fanTripped (m : momentary i) {f : Fan → Fan} (same : ∀ x, (f x).cleared .tripped = x.cleared .tripped)
    (up : (p.updFan n f).condition i = true) (down : ∀ q : Part, q.fans[n] = p.fans[n].cleared .tripped → q.condition i = false) :
    let q := (((((p.updFan n f).settlePoint i).fanTo n .tripped).settlePoint i true).settleAll).keepHorn i
    q.now = p.now ∧ q.fans[n] = p.fans[n].cleared .tripped ∧ ¬ q.holdsFor 1 n.val ∧ q.field.output.fanRun[n] = false ∧
      q.field.output.fanSpeed[n] = 0 ∧ Reported ⟨.fan, n.val, 5, false, p.now, 0, none⟩ q ∧ Reasserted i p q ∧
      (p.started = true → p.alarms.points[i].state = .normal → p.alarms.points[i].eff = false →
        p.alarms.points[i].shelvedUntil = none →
        q.alarms.points[i].state = .cleared ∧ q.alarms.points[i].lastActivation = some p.now ∧
          q.alarms.horn = true ∧ q.field.output.horn = true) := by
  have rise := (p.updFan_frame n f).andThen (Part.settlePoint_frame i (p.updFan n f) false).1
  have fan : ((p.updFan n f).settlePoint i).fans[n] = f p.fans[n] :=
    ((Part.settlePoint_frame i _ false).1.fan_eq n).trans (set_self ..)
  have spell := fun started => Part.spell (p := p.updFan n f) (q := ((p.updFan n f).settlePoint i).fanTo n .tripped) m started up
    (by rw [(Part.fanTo_frame n .tripped _).points_eq])
  generalize (p.updFan n f).settlePoint i = r at rise fan spell ⊢
  have moved := r.fanTo_fan n .tripped
  rw [fan, same] at moved
  have holds := r.fanTo_holdsNot (n := n) (s := .tripped) (by decide)
  obtain ⟨off, zero⟩ := r.fanTo_off (n := n) (s := .tripped) (by decide) (by decide)
  have reported := r.fanTo_reported n .tripped
  rw [rise.now_eq] at reported
  have now := rise.now_eq.symm.trans (r.fanTo_frame n .tripped).now_eq.symm
  have spell := fun started eff shelf => spell started (fun x h => down x ((h.frame.fan_eq n).trans moved)) eff shelf
  generalize r.fanTo n .tripped = t at moved holds off zero reported spell now ⊢
  have settles := (Part.settlePoint_settles true i t).trans (Part.settleAll_settles _)
  have frame := settles.frame.andThen (Part.keepHorn_frame i _)
  have held : (((t.settlePoint i true).settleAll).keepHorn i).holdsFor 1 n.val → t.holdsFor 1 n.val := fun h =>
    settles.onward.holds _ _ (((Part.keepHorn_frame i _).holdsFor 1 n.val).1 h)
  generalize ((t.settlePoint i true).settleAll).keepHorn i = q at spell frame held ⊢
  obtain ⟨speed, run⟩ := frame.same .fanOut (by simp)
  exact ⟨frame.now_eq.trans now.symm, (frame.fan_eq n).trans moved, fun h => holds (held h), (congrArg (·[n]) run).trans off,
    (congrArg (·[n]) speed).trans zero, frame.reported reported,
    fun started was eff shelf => (spell started eff shelf).2 was,
    fun started was eff shelf => (spell started eff shelf).1 was⟩

end

/-- Settles O45, each trip by `fanTripped`. -/
theorem fanTimersTrip : Obligations.FanTimersTrip := by
  unfold Obligations.FanTimersTrip
  intro p n
  refine ⟨fun idle => ?_, fun idle => ?_, fun none => ?_, fun t u => ?_, ?_⟩
  · refine takes_row rfl ?_
    dsimp only
    split
    · next s => rw [idle.resolve_left (not_not.2 s)]; rfl
    · rfl
  · refine takes_row rfl ?_
    dsimp only
    split
    · next s => rw [idle.resolve_left (not_not.2 s)]; rfl
    · rfl
  · refine takes_row rfl ?_
    dsimp only
    rw [none]
    rfl
  · exact takesAt_row (f := fun p => p.updFan n fun x => { x with heldFlow := none, holdUntil := none, holdSpent := true }) rfl
      (by rw [← u]) fun _ => ⟨rfl, rfl⟩
  · intro tripped
    have told (i : Fin 62) (k : Nat) (named : i.val = k) (q : Part) (h : q.now = p.now ∧ q.fans[n] = p.fans[n].cleared .tripped ∧
        ¬ q.holdsFor 1 n.val ∧ q.field.output.fanRun[n] = false ∧
        q.field.output.fanSpeed[n] = 0 ∧ Reported ⟨.fan, n.val, 5, false, p.now, 0, none⟩ q ∧ Reasserted i p q ∧
        (p.started = true → p.alarms.points[i].state = .normal → p.alarms.points[i].eff = false →
          p.alarms.points[i].shelvedUntil = none →
          q.alarms.points[i].state = .cleared ∧ q.alarms.points[i].lastActivation = some p.now ∧
            q.alarms.horn = true ∧ q.field.output.horn = true)) : q.now = p.now ∧ tripped k q := by
      obtain ⟨now, fan, holds, off, zero, reported, again, first⟩ := h
      refine ⟨now, fan, holds, off, zero, now ▸ reported, fun j e => ?_⟩
      obtain rfl : j = i := Fin.ext (e.trans named.symm)
      exact ⟨again, now ▸ first⟩
    refine ⟨fun t state u => ?_, fun t state u => ?_⟩
    · have failed := Part.fanTripped (p := p) (n := n) (momentary_fan n).2 (f := fun x => { x with startFail := true })
        (fun _ => rfl) (by rw [condition_fanFail]; exact congrArg Fan.startFail (set_self ..))
        (fun q e => by rw [condition_fanFail, e]; rfl)
      rw [← Part.failStart_eq] at failed
      generalize h : ((p.failStart n).settleAll).keepHorn (fanFailPoint n) = q at failed
      exact takesAt_row (f := fun p => ((p.failStart n).settleAll).keepHorn (fanFailPoint n)) rfl
        (by dsimp only; rw [if_pos state, u]) fun _ => by
          rw [h]
          exact told (fanFailPoint n) _ rfl q failed
    · have lost := Part.fanTripped (p := p) (n := n) (momentary_fan n).1 (f := fun x => { x with tripCond := true })
        (fun _ => rfl) (by rw [condition_fanTrip]; exact congrArg Fan.tripCond (set_self ..))
        (fun q e => by rw [condition_fanTrip, e]; rfl)
      rw [← Part.loseFan_eq] at lost
      generalize h : ((p.loseFan n).settleAll).keepHorn (fanTripPoint n) = q at lost
      exact takesAt_row (f := fun p => ((p.loseFan n).settleAll).keepHorn (fanTripPoint n)) rfl
        (by dsimp only; rw [if_pos state, u]; rfl) fun _ => by
          rw [h]
          exact told (fanTripPoint n) _ rfl q lost

/-! ## The grate (R133, R134) -/

section
variable {p q : Part} (started : p.started = true) (used : p.grate.cfg.used = true)
include started used

theorem takes_startGrate (h : (if p.grate.state = .stopped then ((p.grateTo .running).settle).reply 0x3D .done
    else p.reply 0x3D .wrongState) = q) : Takes .startGrate p q :=
  takes_row rfl ((Part.grateCommand_used started used _).trans h)

theorem takes_stopGrate (h : (if p.grate.state = .running then ((p.grateTo .stopped).settle).reply 0x3E .done
    else p.reply 0x3E .wrongState) = q) : Takes .stopGrate p q :=
  takes_row rfl ((Part.grateCommand_used started used _).trans h)

theorem takes_setBedPressure {sp : Nat} (h : (if 20000 < sp then p.reply 0x3F .badOperand
    else (p.updGrate fun g => { g with psp := clampNat sp p.grate.cfg.low p.grate.cfg.high }).reply 0x3F
      (if clampNat sp p.grate.cfg.low p.grate.cfg.high = sp then .done else .clamped)) = q) : Takes (.setBedPressure sp) p q :=
  takes_row rfl ((Part.grateCommand_used started used _).trans h)

theorem takes_setBedPressure_to {sp to_ : Nat} {code : Code} (low : sp ≤ 20000)
    (clamps : clampNat sp p.grate.cfg.low p.grate.cfg.high = to_) (answers : (if to_ = sp then Code.done else .clamped) = code) :
    Takes (.setBedPressure sp) p (Part.answer 0x3F code [] { p with grate := { p.grate with psp := to_ } }) := by
  refine takes_setBedPressure started used ?_
  rw [if_neg (Nat.not_lt.2 low), clamps, answers, Part.reply_eq_answer]
  rfl

end

/-- What the activation of a momentary TRIP point leaves (R145, R146). -/
theorem Part.settlePoint_trips {p : Part} {i : Fin 62} (m : momentary i) (cls : (p.pointAttr i).cls = .trip)
    (started : p.started = true) (up : p.condition i = true) (eff : p.alarms.points[i].eff = false)
    (shelf : p.alarms.points[i].shelvedUntil = none) (was : p.alarms.points[i].state = .normal) :
    (p.settlePoint i).alarms.tripNew = true ∧ (p.settlePoint i).alarms.seen.trip = true ∧
    (p.alarms.firstOut = none → ∃ r, (p.settlePoint i).alarms.firstOut = some r ∧ r.point = i ∧ r.time = p.now) ∧
    ∀ b : Fin 2, p.burners[b].cfg.used = true → (p.pointAttr i).binding = .station ∨ (p.pointAttr i).binding = .burner b →
      (p.settlePoint i).burners[b].out := by
  rw [Part.settlePoint_activates ((momentary_effective m p).trans (by rw [started, up]; rfl)) eff shelf (.inl was)]
  have tripped := Part.activate_activated i (p.updPoint i fun x => { x with eff := true })
  exact ⟨tripped.tripNew cls, tripped.tripSeen cls, tripped.firstOut cls, tripped.tripped cls⟩

theorem Part.faultGrate_eq (p : Part) : p.faultGrate =
    (((p.updGrate fun g => { g with fault := true }).settlePoint 45).grateTo .stopped).settlePoint 45 true := rfl

/-- The end of an event in which GRATE DRIVE FAULT stops the grate. -/
theorem Part.grateFaulted (p : Part) :
    let q := ((p.faultGrate).settleAll).keepHorn 45
    q.now = p.now ∧ q.grate = { p.grate with state := .stopped, fbLoss := none, fault := false } ∧
      q.field.output.grateRun = false ∧ q.field.output.grateSpeed = 0 ∧
      Reported ⟨.grate, 0, 1, false, p.now, 0, none⟩ q ∧ Reasserted 45 p q ∧
      (p.started = true → p.alarms.points[(45 : Fin 62)].state = .normal → p.alarms.points[(45 : Fin 62)].eff = false →
        p.alarms.points[(45 : Fin 62)].shelvedUntil = none →
        q.alarms.points[(45 : Fin 62)].state = .cleared ∧ q.alarms.tripNew = true ∧ q.alarms.horn = true ∧
        q.field.output.horn = true ∧
        ∀ b : Fin 2, p.burners[b].cfg.used = true → q.burners[b].out) := by
  rw [Part.faultGrate_eq]
  have m : momentary 45 := by simp [momentary]
  have rise := (p.updGrate_frame fun g => { g with fault := true }).andThen
    (Part.settlePoint_frame 45 (p.updGrate fun g => { g with fault := true }) false).1
  have grate : ((p.updGrate fun g => { g with fault := true }).settlePoint 45).grate = { p.grate with fault := true } :=
    (Part.settlePoint_frame 45 _ false).1.grate_eq
  have trips := Part.settlePoint_trips (p := p.updGrate fun g => { g with fault := true }) m rfl
  have spell := fun started => Part.spell (p := p.updGrate fun g => { g with fault := true })
    (q := ((p.updGrate fun g => { g with fault := true }).settlePoint 45).grateTo .stopped) m started rfl
    (by rw [(Part.grateTo_frame .stopped _).points_eq])
  generalize (p.updGrate fun g => { g with fault := true }).settlePoint 45 = r at rise grate trips spell ⊢
  have moved := r.grateTo_grate .stopped
  rw [grate] at moved
  obtain ⟨off, zero⟩ := r.grateTo_stopped
  have reported := r.grateTo_reported .stopped
  rw [rise.now_eq] at reported
  have stop := r.grateTo_frame .stopped
  have marks := stop.marksKept
  have now := rise.now_eq.symm.trans stop.now_eq.symm
  have spell := fun started eff shelf => spell started (fun x h => congrArg Grate.fault ((h.frame.grate_eq).trans moved)) eff shelf
  generalize r.grateTo .stopped = t at moved off zero reported spell now stop marks ⊢
  have settles := (Part.settlePoint_settles true 45 t).trans (Part.settleAll_settles _)
  have kept := Part.keepHorn_frame 45 ((t.settlePoint 45 true).settleAll)
  have frame := settles.frame.andThen kept
  have onward := settles.onward.trans kept.onward
  generalize ((t.settlePoint 45 true).settleAll).keepHorn 45 = q at spell frame onward ⊢
  obtain ⟨speed, run⟩ := frame.same .grateOut (by simp)
  refine ⟨frame.now_eq.trans now.symm, frame.grate_eq.trans moved, run.trans off, speed.trans zero, frame.reported reported,
    fun started was eff shelf => (spell started eff shelf).2 was, fun started was eff shelf => ?_⟩
  obtain ⟨cleared, -, horn, out⟩ := (spell started eff shelf).1 was
  obtain ⟨tripNew, -, -, tripped⟩ := trips started rfl eff shelf was
  refine ⟨cleared, onward.tripNew (marks.tripNew tripNew), horn, out, fun b used => ?_⟩
  have outOf := tripped b used (.inl rfl)
  have same := stop.burner_eq b
  rw [← same] at outOf
  rw [(onward.out outOf).burner]
  exact outOf

theorem Part.grateMoved (s : GrateState) (p : Part) :
    (p.grateTo s).settle.grate = { p.grate with state := s, fbLoss := none, fault := false } ∧
    (p.grateTo s).settle.field.output.grateRun = (p.grateTo s).field.output.grateRun ∧
    (p.grateTo s).settle.field.output.grateSpeed = (p.grateTo s).field.output.grateSpeed ∧
    Reported ⟨.grate, 0, s.code, false, p.now, 0, none⟩ (p.grateTo s).settle := by
  have frame := Part.settle_frame (p.grateTo s)
  obtain ⟨speed, run⟩ := frame.same .grateOut (by simp)
  exact ⟨frame.grate_eq.trans (p.grateTo_grate s), run, speed, frame.reported (p.grateTo_reported s)⟩

/-- Settles O46. -/
theorem grateRows : Obligations.GrateRows := by
  unfold Obligations.GrateRows
  refine fun p => ⟨fun idle => ?_, fun t state u => ?_, fun started used => ⟨fun state => ?_, fun state => ?_, fun state => ?_,
    fun state => ?_, fun sp => ⟨fun high => ?_, fun bound low high => ?_, fun bound low => ?_, fun bound low high => ?_⟩⟩⟩
  · refine takes_row rfl ?_
    dsimp only
    split
    · next s => rw [idle.resolve_left (not_not.2 s)]; rfl
    · rfl
  · obtain ⟨now, faulted⟩ := p.grateFaulted
    generalize h : ((p.faultGrate).settleAll).keepHorn 45 = q at now faulted
    refine takesAt_row (f := fun p => ((p.faultGrate).settleAll).keepHorn 45) rfl (by dsimp only; rw [if_pos state, u]; rfl)
      fun _ => ?_
    rw [h, now]
    exact ⟨rfl, faulted⟩
  · have takes := takes_startGrate started used (if_pos state)
    have host := ((p.grateTo_frame .running).andThen (Part.settle_frame _)).answered 0x3D .done []
    obtain ⟨grate, run, speed, reported⟩ := p.grateMoved .running
    obtain ⟨on, least⟩ := p.grateTo_running
    rw [on] at run
    rw [least] at speed
    generalize (p.grateTo .running).settle = q at takes host grate run speed reported
    exact ⟨_, takes, host, grate, run, speed, reported⟩
  · exact takes_startGrate started used (by rw [if_neg state, Part.reply_eq_answer])
  · have takes := takes_stopGrate started used (if_pos state)
    have host := ((p.grateTo_frame .stopped).andThen (Part.settle_frame _)).answered 0x3E .done []
    obtain ⟨grate, run, speed, reported⟩ := p.grateMoved .stopped
    obtain ⟨off, zero⟩ := p.grateTo_stopped
    rw [off] at run
    rw [zero] at speed
    generalize (p.grateTo .stopped).settle = q at takes host grate run speed reported
    exact ⟨_, takes, host, grate, run, speed, reported⟩
  · exact takes_stopGrate started used (by rw [if_neg state, Part.reply_eq_answer])
  · exact takes_setBedPressure started used (by rw [if_pos high, Part.reply_eq_answer])
  · have same : clampNat sp p.grate.cfg.low p.grate.cfg.high = sp := by
      rw [clampNat, if_neg (by omega), if_neg (by omega)]
    exact takes_setBedPressure_to started used bound same (if_pos rfl)
  · refine takes_setBedPressure_to started used bound (if_pos low) (if_neg (by omega))
  · refine takes_setBedPressure_to started used bound ?_ (if_neg (by omega))
    rw [clampNat, if_neg (by omega), if_pos high]

end Sys2Proof.Machine
end

section
/-! SUPPORT. One object among those that an operation is applied to in turn. -/

namespace Sys2Proof.Machine

-- One proof at a time: the whole package as one text must not start a thread for each of them.
set_option Elab.async false

section
variable {α β : Type} {R : Part → Part → Prop} {f : α → Part → Part} {V : Part → β} {a : α} {l : List α}

theorem Part.forAll_rel (refl : ∀ p, R p p) (trans : ∀ {p q r}, R p q → R q r → R p r) (step : ∀ b q, R q (f b q))
    (l : List α) (p : Part) : R p (p.forAll l f) := by
  induction l generalizing p with
  | nil => exact refl p
  | cons b l ih => exact trans (step b p) (ih _)

theorem Part.forAll_absent (others : ∀ b q, b ≠ a → V (f b q) = V q) (absent : a ∉ l) (p : Part) :
    V (p.forAll l f) = V p := by
  induction l generalizing p with
  | nil => rfl
  | cons b l ih =>
    obtain ⟨ne, absent⟩ := not_or.1 (mt List.mem_cons.2 absent)
    exact (ih absent _).trans (others b p fun e => ne e.symm)

/-- What the operation makes of the part V of object a alone: it is applied once, after and before others, which relate the
parts by R. -/
theorem Part.forAll_at (refl : ∀ p, R p p) (trans : ∀ {p q r}, R p q → R q r → R p r) (step : ∀ b q, R q (f b q))
    (others : ∀ b q, b ≠ a → V (f b q) = V q) (once : l.Nodup) (mem : a ∈ l) (p : Part) :
    ∃ q, R p q ∧ V q = V p ∧ V (p.forAll l f) = V (f a q) ∧ R (f a q) (p.forAll l f) := by
  induction l generalizing p with
  | nil => cases mem
  | cons b l ih =>
    obtain ⟨fresh, once⟩ := List.nodup_cons.1 once
    rcases List.mem_cons.1 mem with rfl | mem
    · exact ⟨p, refl p, rfl, Part.forAll_absent others fresh _, Part.forAll_rel refl trans step l _⟩
    · obtain ⟨q, upTo, same, found, after⟩ := ih once mem (f b p)
      exact ⟨q, trans (step b p) upTo, same.trans (others b p fun e => fresh (e ▸ mem)), found, after⟩

end

end Sys2Proof.Machine
end

section
/-! OBLIGATION O47. The cooling period. -/

namespace Sys2Proof.Machine

-- One proof at a time: the whole package as one text must not start a thread for each of them.
set_option Elab.async false

open Sys2Proof.Config

/-! ## Fans and grate controlled (R130, R134) -/

/-- What the control of a fan reads besides the fan itself is as it was. -/
structure SameCooling (p q : Part) : Prop where
  heat : ∀ d, q.referenceHeat d = p.referenceHeat d
  image : q.field.image = p.field.image
  states : ∀ n : Fin 4, q.fans[n].state = p.fans[n].state ∧ q.fans[n].cfg = p.fans[n].cfg ∧
    q.fans[n].heldFlow = p.fans[n].heldFlow

theorem SameCooling.refl (p : Part) : SameCooling p p := ⟨fun _ => rfl, rfl, fun _ => ⟨rfl, rfl, rfl⟩⟩

theorem SameCooling.trans {p q r : Part} (h : SameCooling p q) (g : SameCooling q r) : SameCooling p r where
  heat d := (g.heat d).trans (h.heat d)
  image := g.image.trans h.image
  states n := by
    obtain ⟨state, cfg, held⟩ := h.states n
    obtain ⟨state', cfg', held'⟩ := g.states n
    exact ⟨state'.trans state, cfg'.trans cfg, held'.trans held⟩

/-- A fan and its speed command. -/
def Part.fanView (n : Fin 4) (p : Part) : Fan × Nat := (p.fans[n], p.field.output.fanSpeed[n])

section
variable (n : Fin 4) (p : Part)

theorem Part.controlFan_same : SameCooling p (p.controlFan n) := by
  have kept (sp : Nat) (m : Fin 4) : (p.fans.set n { p.fans[n] with sp := sp })[m].state = p.fans[m].state ∧
      (p.fans.set n { p.fans[n] with sp := sp })[m].cfg = p.fans[m].cfg ∧
      (p.fans.set n { p.fans[n] with sp := sp })[m].heldFlow = p.fans[m].heldFlow := by
    by_cases e : m = n
    · subst e
      rw [set_self]
      exact ⟨rfl, rfl, rfl⟩
    · rw [set_other _ _ _ _ e]
      exact ⟨rfl, rfl, rfl⟩
  have heat (x : Vector Fan 4) (y : Field) (d : Destination) :
      ({ p with fans := x, field := y } : Part).referenceHeat d = p.referenceHeat d := by cases d <;> rfl
  unfold Part.controlFan
  dsimp only
  split
  · split
    · exact ⟨heat _ _, rfl, kept _⟩
    · exact ⟨heat _ _, rfl, kept _⟩
  · exact .refl p

/-- The fan and its speed command, controlled (R130). -/
theorem Part.controlFan_at :
    (p.fans[n].state ≠ .running → p.controlFan n = p) ∧
    (p.fans[n].state = .running → (p.controlFan n).fans[n] = { p.fans[n] with
        sp := p.fans[n].cfg.setpoint (p.referenceHeat p.fans[n].cfg.destination) } ∧
      (p.controlFan n).field.output.fanSpeed[n] = if p.field.image.flow[n].valid then
          p.fans[n].cfg.speed (p.fans[n].cfg.setpoint (p.referenceHeat p.fans[n].cfg.destination))
            p.field.image.flow[n].value p.field.output.fanSpeed[n]
        else p.field.output.fanSpeed[n]) := by
  refine ⟨fun state => if_neg state, fun state => ?_⟩
  unfold Part.controlFan
  dsimp only
  rw [if_pos state]
  split
  · exact ⟨set_self .., set_self ..⟩
  · exact ⟨set_self .., rfl⟩

theorem Part.controlFan_other {m : Fin 4} (ne : m ≠ n) : (p.controlFan m).fanView n = p.fanView n := by
  have other : n ≠ m := fun e => ne e.symm
  unfold Part.controlFan Part.fanView
  dsimp only
  split
  · split
    · exact Prod.ext (set_other _ _ _ _ other) (set_other _ _ _ _ other)
    · exact Prod.ext (set_other _ _ _ _ other) rfl
  · rfl

theorem Part.controlFans_at : ∃ q, SameCooling p q ∧ q.fanView n = p.fanView n ∧
    (p.forAll fanIds Part.controlFan).fanView n = (q.controlFan n).fanView n := by
  obtain ⟨q, same, kept, found, -⟩ := Part.forAll_at (R := SameCooling) (V := Part.fanView n)
    SameCooling.refl SameCooling.trans (fun m q => q.controlFan_same m) (fun m q => q.controlFan_other n) (List.nodup_finRange 4)
    (List.mem_finRange n) p
  exact ⟨q, same, kept, found⟩

end

theorem clampInt_eq (x : Int) {lo hi : Int} (h : lo ≤ hi) : clampInt x lo hi = max lo (min hi x) := by
  unfold clampInt
  split
  · omega
  · split <;> omega

theorem clampNat_eq (x : Nat) {lo hi : Nat} (h : lo ≤ hi) : clampNat x lo hi = max lo (min hi x) := by
  unfold clampNat
  split
  · omega
  · split <;> omega

theorem FanCfg.speed_eq (sp q speed : Nat) (c : FanCfg) : (c.speed sp q speed : Int) =
    max 100 (min 1000 (speed + max (-20) (min 20 (Int.tdiv (((sp : Int) - q) * c.gain) 1000)))) := by
  unfold FanCfg.speed
  rw [clampInt_eq _ (by decide), clampInt_eq _ (by decide)]
  exact Int.toNat_of_nonneg (by omega)

theorem GrateCfg.speed_eq (psp pressure speed : Nat) (c : GrateCfg) (h : c.minSpeed ≤ c.maxSpeed) :
    (c.speed psp pressure speed : Int) = max (c.minSpeed : Int) (min c.maxSpeed
      (speed + max (-10) (min 10 (Int.tdiv (((pressure : Int) - psp) * c.gain) 1000)))) := by
  unfold GrateCfg.speed
  rw [clampInt_eq _ (Int.ofNat_le.2 h), clampInt_eq _ (by decide)]
  exact Int.toNat_of_nonneg (by omega)

section
variable (n : Fin 4) (p : Part)

/-- What the control of all fans leaves of fan n (R130). -/
theorem Part.controlFans_fan :
    let q := p.forAll fanIds Part.controlFan
    let c := p.fans[n].cfg
    let sp := max c.minFlow (min c.maxFlow (c.base + p.referenceHeat c.destination * c.apf / 100))
    (p.fans[n].state = .running → c.minFlow ≤ c.maxFlow → q.fans[n].sp = sp ∧
      (p.field.image.flow[n].valid = true → (q.field.output.fanSpeed[n] : Int) =
        max 100 (min 1000 (p.field.output.fanSpeed[n] +
          max (-20) (min 20 (Int.tdiv (((sp : Int) - p.field.image.flow[n].value) * c.gain) 1000)))))) ∧
    (p.fans[n].state ≠ .running ∨ p.field.image.flow[n].valid = false →
      q.field.output.fanSpeed[n] = p.field.output.fanSpeed[n]) ∧
    (p.fans[n].state ≠ .running → q.fans[n].sp = p.fans[n].sp) ∧ q.fans[n].state = p.fans[n].state := by
  obtain ⟨r, ⟨heat, image, -⟩, kept, found⟩ := p.controlFans_at n
  dsimp only
  generalize p.forAll fanIds Part.controlFan = t at found ⊢
  have fan : r.fans[n] = p.fans[n] := congrArg Prod.fst kept
  have speed : r.field.output.fanSpeed[n] = p.field.output.fanSpeed[n] := congrArg Prod.snd kept
  have fan' : t.fans[n] = (r.controlFan n).fans[n] := congrArg Prod.fst found
  have speed' : t.field.output.fanSpeed[n] = (r.controlFan n).field.output.fanSpeed[n] := congrArg Prod.snd found
  obtain ⟨idle, runs⟩ := r.controlFan_at n
  rw [fan, heat, image, speed] at runs
  rw [fan] at idle
  rw [fan', speed']
  by_cases state : p.fans[n].state = .running
  · obtain ⟨moved, out⟩ := runs state
    rw [moved, out]
    refine ⟨fun _ ordered => ?_, fun still => ?_, fun c => absurd state c, rfl⟩
    · have sp : p.fans[n].cfg.setpoint (p.referenceHeat p.fans[n].cfg.destination) = _ := clampNat_eq _ ordered
      refine ⟨sp, fun valid => ?_⟩
      rw [if_pos valid, FanCfg.speed_eq, sp]
    · rw [if_neg (by simpa using still.resolve_left (not_not.2 state))]
  · rw [idle state, fan, speed]
    exact ⟨fun c => absurd c state, fun _ => rfl, fun _ => rfl, rfl⟩

end

section
variable (p : Part)

/-- What the control of the grate leaves (R134). -/
theorem Part.controlGrate_speed :
    (p.grate.state = .running → p.field.image.bed.valid = true → p.grate.cfg.minSpeed ≤ p.grate.cfg.maxSpeed →
      (p.controlGrate.field.output.grateSpeed : Int) = max (p.grate.cfg.minSpeed : Int) (min p.grate.cfg.maxSpeed
        (p.field.output.grateSpeed + max (-10) (min 10
          (Int.tdiv (((p.field.image.bed.value : Int) - p.grate.psp) * p.grate.cfg.gain) 1000))))) ∧
    (p.grate.state ≠ .running ∨ p.field.image.bed.valid = false →
      p.controlGrate.field.output.grateSpeed = p.field.output.grateSpeed) := by
  unfold Part.controlGrate
  refine ⟨fun state valid ordered => ?_, fun still => ?_⟩
  · rw [if_pos ⟨state, valid⟩]
    exact GrateCfg.speed_eq _ _ _ _ ordered
  · rw [if_neg (by rintro ⟨state, valid⟩; exact still.elim (· state) fun v => nomatch v.symm.trans valid)]

theorem Part.controlGrate_same : SameCooling p p.controlGrate := by
  unfold Part.controlGrate
  split
  · exact ⟨fun d => by cases d <;> rfl, rfl, fun _ => ⟨rfl, rfl, rfl⟩⟩
  · exact .refl p

/-! ## The air allowances (R131) -/

/-- A fan's contribution found. -/
def Part.contribute (n : Fin 4) (p : Part) : Part :=
  p.updFan n fun x =>
    { x with contribution := if x.cfg.destination = .exhaust then 0 else x.contributes p.field.image.flow[n] }

theorem Part.formAir_eq : p.formAir = { p.forAll fanIds Part.contribute with
    air := { secondary := (p.forAll fanIds Part.contribute).allowanceTo .secondary,
             tertiary := (p.forAll fanIds Part.contribute).allowanceTo .tertiary,
             fansSec := ((p.forAll fanIds Part.contribute).fansTo .secondary).length,
             fansTer := ((p.forAll fanIds Part.contribute).fansTo .tertiary).length } } := rfl

/-- Every fan keeps its state, its setpoint and what a contribution is found from. -/
structure SameFans (p q : Part) : Prop extends SameCooling p q where
  setpoints : ∀ n : Fin 4, q.fans[n].sp = p.fans[n].sp

theorem Part.contribute_same (n : Fin 4) : SameFans p (p.contribute n) := by
  refine ⟨⟨fun d => by cases d <;> rfl, rfl, fun m => ?_⟩, fun m => ?_⟩
  · by_cases e : m = n
    · subst e
      rw [show (p.contribute m).fans[m] = _ from set_self ..]
      exact ⟨rfl, rfl, rfl⟩
    · rw [show (p.contribute n).fans[m] = _ from set_other _ _ _ _ e]
      exact ⟨rfl, rfl, rfl⟩
  · by_cases e : m = n
    · subst e
      rw [show (p.contribute m).fans[m] = _ from set_self ..]
    · rw [show (p.contribute n).fans[m] = _ from set_other _ _ _ _ e]

theorem Part.contributes_same : SameFans p (p.forAll fanIds Part.contribute) :=
  Part.forAll_rel (R := SameFans) (fun p => ⟨.refl p, fun _ => rfl⟩)
    (fun h g => ⟨h.toSameCooling.trans g.toSameCooling, fun n => (g.setpoints n).trans (h.setpoints n)⟩)
    (fun n p => p.contribute_same n) fanIds p

theorem SameFans.withAir {p q : Part} (h : SameFans p q) (a : Air) : SameFans p { q with air := a } :=
  ⟨⟨fun d => Eq.trans (by cases d <;> rfl) (h.heat d), h.image, h.states⟩, h.setpoints⟩

theorem SameCooling.counted {p q : Part} (h : SameCooling p q) (n : Fin 4) :
    q.fans[n].countedFlow q.field.image.flow[n] = p.fans[n].countedFlow p.field.image.flow[n] := by
  obtain ⟨state, -, held⟩ := h.states n
  unfold Fan.countedFlow
  rw [state, held, h.image]

theorem SameCooling.fansTo {p q : Part} (h : SameCooling p q) (d : Destination) : q.fansTo d = p.fansTo d := by
  unfold Part.fansTo
  refine List.filter_congr fun n _ => ?_
  rw [h.counted, (h.states n).2.1]

theorem SameCooling.allowanceTo {p q : Part} (h : SameCooling p q) (d : Destination) : q.allowanceTo d = p.allowanceTo d := by
  unfold Part.allowanceTo
  rw [h.fansTo]
  refine congrArg _ (sumOver_congr fun n _ => ?_)
  unfold Fan.contributes
  rw [h.counted, (h.states n).2.1]

theorem Part.formAir_air : p.formAir.air = ⟨p.allowanceTo .secondary, p.allowanceTo .tertiary,
    (p.fansTo .secondary).length, (p.fansTo .tertiary).length⟩ := by
  have same := p.contributes_same.toSameCooling
  rw [Part.formAir_eq, same.allowanceTo, same.allowanceTo, same.fansTo, same.fansTo]

theorem Part.fansTo_eq (d : Destination) : p.fansTo d = fanIds.filter fun n =>
    p.fans[n].cfg.destination = d ∧ p.fans[n].countedFlow p.field.image.flow[n] ≠ none := by
  refine List.filter_congr fun n _ => ?_
  rw [Bool.eq_iff_iff]
  simp [← Option.isSome_iff_ne_none]

theorem Part.allowanceTo_eq (d : Destination) : p.allowanceTo d = min 65535 (((fanIds.filter fun n =>
    p.fans[n].cfg.destination = d ∧ p.fans[n].countedFlow p.field.image.flow[n] ≠ none).map fun n =>
      min 65535 ((p.fans[n].countedFlow p.field.image.flow[n]).getD 0 * p.fans[n].cfg.airFactor / 100)).sum) := by
  rw [← Part.fansTo_eq, Part.allowanceTo, satAt_eq_min, sumOver_eq_sum]
  refine congrArg _ (congrArg List.sum (List.map_congr_left fun n _ => ?_))
  unfold Fan.contributes
  cases p.fans[n].countedFlow p.field.image.flow[n] with
  | none => simp
  | some f => exact satAt_eq_min _ _

/-- The stages of a cooling period. -/
theorem Part.coolingPeriod_eq (t : Time) : p.coolingPeriod t = ((((((({ p with nextCool := nextMultiple t second } : Part).forAll
    fanIds Part.controlFan).controlGrate).formAir).forAll fanIds Part.fanSecond).grateSecond).settle) := rfl

end

/-- From the fans and the grate controlled to the end of the cooling period (R131, R136). -/
theorem Part.coolingEnd (q : Part) :
    let r := (((q.formAir).forAll fanIds Part.fanSecond).grateSecond).settle
    r.now = q.now ∧ r.nextCool = q.nextCool ∧
      (∀ n : Fin 4, r.fans[n].sp = q.fans[n].sp ∧ r.fans[n].state = q.fans[n].state ∧
        r.field.output.fanSpeed[n] = q.field.output.fanSpeed[n]) ∧
      r.field.output.grateSpeed = q.field.output.grateSpeed ∧
      r.air = ⟨q.allowanceTo .secondary, q.allowanceTo .tertiary, (q.fansTo .secondary).length, (q.fansTo .tertiary).length⟩ := by
  have counted : ChangesOnly {.record} q.formAir ((q.formAir).forAll fanIds Part.fanSecond) :=
    .forAll (fun n r => .ite (r.record_frame _) .refl) _ _
  have ends := (counted.andThen (Part.record_frame _ _)).andThen (Part.settle_frame (Part.grateSecond _))
  have air := q.formAir_air
  have formed := q.formAir_frame
  have same : SameFans q q.formAir := by
    rw [Part.formAir_eq]
    exact q.contributes_same.withAir _
  unfold Part.grateSecond at ends ⊢
  dsimp only
  generalize Part.settle _ = r at ends ⊢
  generalize q.formAir = x at ends air formed same
  obtain ⟨speed, -⟩ := (formed.andThen ends).same .fanOut (by simp)
  obtain ⟨grate, -⟩ := (formed.andThen ends).same .grateOut (by simp)
  refine ⟨(formed.andThen ends).now_eq, (formed.andThen ends).same .fanClock (by simp), fun n => ?_, grate,
    Eq.trans (ends.same .air (by simp)) air⟩
  rw [ends.fan_eq n, speed]
  exact ⟨same.setpoints n, (same.states n).1, rfl⟩

/-- Settles O47, stage by stage: the fans, the grate, the air, and what the counts and the end of the event leave alone. -/
theorem coolingPeriodControls : Obligations.CoolingPeriodControls := by
  unfold Obligations.CoolingPeriodControls
  refine fun p => ⟨fun off => takes_row rfl (if_neg (by simp [off])), fun started => ?_⟩
  have dated : SameCooling p { p with nextCool := nextMultiple p.nextCool second } :=
    ⟨fun d => by cases d <;> rfl, rfl, fun _ => ⟨rfl, rfl, rfl⟩⟩
  have fans := fun n => Part.controlFans_fan n { p with nextCool := nextMultiple p.nextCool second }
  simp only [dated.heat] at fans
  have controlled : ChangesOnly (Set.range .fan ∪ {.fanOut}) { p with nextCool := nextMultiple p.nextCool second }
      (({ p with nextCool := nextMultiple p.nextCool second } : Part).forAll fanIds Part.controlFan) :=
    .forAll Part.controlFan_frame _ _
  have same : SameCooling { p with nextCool := nextMultiple p.nextCool second }
      (({ p with nextCool := nextMultiple p.nextCool second } : Part).forAll fanIds Part.controlFan) :=
    Part.forAll_rel SameCooling.refl SameCooling.trans (fun m q => q.controlFan_same m) fanIds _
  have same := dated.trans same
  have eq := p.coolingPeriod_eq p.nextCool
  generalize ({ p with nextCool := nextMultiple p.nextCool second } : Part).forAll fanIds Part.controlFan = t at fans controlled same eq
  have grate : t.grate = p.grate := controlled.grate_eq
  obtain ⟨grateSpeed, -⟩ := controlled.same .grateOut (by simp)
  have nextCool : t.nextCool = nextMultiple p.nextCool second := controlled.same .fanClock (by simp)
  have now : t.now = p.now := controlled.now_eq
  obtain ⟨grateRuns, grateStill⟩ := t.controlGrate_speed
  rw [grate, same.image, show t.field.output.grateSpeed = p.field.output.grateSpeed from grateSpeed] at grateRuns grateStill
  have same := same.trans t.controlGrate_same
  have kept := t.controlGrate_frame
  obtain ⟨speed, -⟩ := kept.same .fanOut (by simp)
  obtain ⟨now', nextCool', fans', grate', air⟩ := Part.coolingEnd t.controlGrate
  rw [← eq] at now' nextCool' fans' grate' air
  refine takesAt_row (f := Part.coolingPeriod p.nextCool) rfl (if_pos started) fun _ => ?_
  generalize p.coolingPeriod p.nextCool = q at now' nextCool' fans' grate' air
  rw [now', kept.now_eq, nextCool', kept.same .fanClock (by simp)]
  refine ⟨now, nextCool, fun n => ?_, ?_, ?_, ?_⟩
  · obtain ⟨sp, state, out⟩ := fans' n
    rw [sp, state, out, kept.fan_eq n, speed]
    exact fans n
  · rw [grate']
    exact grateRuns
  · rw [grate']
    exact grateStill
  · rw [air, same.allowanceTo, same.allowanceTo, same.fansTo, same.fansTo, Part.allowanceTo_eq, Part.allowanceTo_eq,
      Part.fansTo_eq, Part.fansTo_eq]
    rfl

end Sys2Proof.Machine
end

section
/-! OBLIGATIONS O36, O37 and O38. Burner commands, and the timers that move a burner. -/

namespace Sys2Proof.Machine

-- One proof at a time: the whole package as one text must not start a thread for each of them.
set_option Elab.async false

open Sys2Proof.Config

/-! ## A burner's new state at the end of its event -/

section
variable (b : Fin 2) (s : BurnerState) (fix : Burner → Burner) (mark : Bool) (p : Part)

/-- What stands of a burner's change of state once the event has settled. -/
structure Part.BurnerMoved (q : Part) : Prop where
  now : q.now = p.now
  burner : q.burners[b] = fix (p.burners[b].cleared s)
  igniter : q.field.output.igniter[b] = (s == .igniting)
  reported : Reported ⟨.burner, b.val, s.code, mark, p.now, 0, none⟩ q
  free : s.free = true → ¬ q.holdsFor 0 b.val
  host : q.host = p.host

theorem Part.burnerTo_moved : p.BurnerMoved b s fix mark (p.burnerTo b s fix mark) where
  now := (p.burnerTo_frame b s fix mark).now_eq
  burner := p.burnerTo_burner b s fix mark
  igniter := p.burnerTo_igniter b s fix mark
  reported := p.burnerTo_reported b s fix mark
  free h := p.burnerTo_holdsNot h fix mark
  host := (p.burnerTo_frame b s fix mark).host_eq (by simp) (by simp) (by simp) (by simp) (by simp)

variable {b s fix mark p} in
theorem Part.BurnerMoved.settle {q : Part} (h : p.BurnerMoved b s fix mark q) : p.BurnerMoved b s fix mark q.settle := by
  have frame := q.settle_frame
  have settles := q.settle_settles
  exact ⟨frame.now_eq.trans h.now, (frame.burner_eq b).trans h.burner,
    (congrArg (fun v : Vector Bool 2 => v[b]) (frame.same .igniters (by simp))).trans h.igniter, frame.reported h.reported,
    fun f c => h.free f (settles.onward.holds _ _ c),
    (frame.host_eq (by simp) (by simp) (by simp) (by simp) (by simp)).trans h.host⟩

theorem Part.burnerTo_settled : p.BurnerMoved b s fix mark (p.burnerTo b s fix mark).settle :=
  (p.burnerTo_moved b s fix mark).settle

/-- A request of LIGHT-OFF behind a burner's move. -/
theorem Part.enterLightWait_settled (c : BurnerState) : p.BurnerMoved b .lightWait
    (fun x => { x with cont := some c, lightWait := some (later p.now lightWaitTime) }) false (p.enterLightWait b c).settle := by
  refine Part.BurnerMoved.settle ?_
  have moved := p.burnerTo_moved b .lightWait (fun x => { x with cont := some c, lightWait := some (later p.now lightWaitTime) })
    false
  unfold Part.enterLightWait
  generalize p.burnerTo b .lightWait (fun x => { x with cont := some c, lightWait := some (later p.now lightWaitTime) }) = q
    at moved ⊢
  have frame := Part.request_frame 0 b.val q
  exact ⟨frame.now_eq.trans moved.now, (frame.burner_eq b).trans moved.burner,
    (congrArg (fun v : Vector Bool 2 => v[b]) (frame.same .igniters (by simp))).trans moved.igniter,
    frame.reported moved.reported, nofun, (frame.host_eq (by simp) (by simp) (by simp) (by simp) (by simp)).trans moved.host⟩

theorem Part.enterLightWait_wants (c : BurnerState) (started : p.started = true) (line : p.line.silent = false) :
    b.val ∈ (p.enterLightWait b c).settle.claims[(0 : Fin 3)].waitList ∨ (p.enterLightWait b c).settle.holdsFor 0 b.val := by
  have frame := p.burnerTo_frame b .lightWait (fun x => { x with cont := some c, lightWait := some (later p.now lightWaitTime) })
    false
  exact Part.settle_wants (Part.request_wants (frame.started_eq.trans started) (frame.silent_eq.trans line))

end

/-! ## START BURNER (R80, R81) -/

section
variable {p : Part} {b : Fin 2}

/-- The four permissives of START BURNER (R80). -/
theorem Part.startPermitted_iff : p.startPermitted b = true ↔
    (p.mode = .heatUp ∨ p.mode = .run) ∧ p.field.image.permit[b] = ⟨true, true⟩ ∧
      (∀ i : Fin 62, (p.pointAttr i).cls = .trip →
        (p.pointAttr i).binding = .station ∨ (p.pointAttr i).binding = .burner b →
          p.alarms.points[i].state = .normal) ∧
      (∀ f : Fin 6, p.feeders[f].cfg.used = true → p.feeders[f].cfg.burner = b → p.feeders[f].mix ≠ 0 →
        p.fuel[p.feeders[f].cfg.fuel] ≠ 0) ∧
      p.fuel[p.feeders[p.burners[b].cfg.feeder].cfg.fuel] ≠ 0 := by
  have permit : p.permitGood b = true ↔ p.field.image.permit[b] = ⟨true, true⟩ := by
    unfold Part.permitGood
    cases p.field.image.permit[b] with
    | mk v ok => cases v <;> cases ok <;> decide
  have trips : p.tripStands b = false ↔ ∀ i : Fin 62, (p.pointAttr i).cls = .trip →
      (p.pointAttr i).binding = .station ∨ (p.pointAttr i).binding = .burner b → p.alarms.points[i].state = .normal := by
    simp [Part.tripStands, Part.bindsBurner, pointIds]
  have fuels : p.fuelsSet b = true ↔ (∀ f : Fin 6, p.feeders[f].cfg.used = true → p.feeders[f].cfg.burner = b →
      p.feeders[f].mix ≠ 0 → p.fuel[p.feeders[f].cfg.fuel] ≠ 0) ∧
      p.fuel[p.feeders[p.burners[b].cfg.feeder].cfg.fuel] ≠ 0 := by
    simp [Part.fuelsSet, Part.mem_feedersOf, Part.cvOf, or_iff_not_imp_left]
  simp only [Part.startPermitted, Bool.and_eq_true, Bool.or_eq_true, beq_iff_eq, Bool.not_eq_true', permit, trips, fuels,
    and_assoc]

variable (started : p.started = true) (used : p.burners[b].cfg.used = true)
include started used

theorem takes_startBurner {q : Part} (h : (if p.burners[b].state ≠ .off then p.reply 0x2A .wrongState
    else if p.line.silent then p.reply 0x2A .noLine
    else if !p.startPermitted b then p.reply 0x2A .permissive
    else ((p.enterLightWait b .igniting).settle).reply 0x2A .done) = q) : Takes (.startBurner b.val) p q :=
  takes_row rfl ((Part.burnerCommand_used started used _).trans h)

end

/-- Settles O36. -/
theorem startBurnerWaitsForLightOff : Obligations.StartBurnerWaitsForLightOff := by
  unfold Obligations.StartBurnerWaitsForLightOff
  intro p b started used permitted
  have iff : p.startPermitted b = true ↔ permitted := Part.startPermitted_iff
  refine ⟨fun state => ?_, fun state silent => ?_, fun state silent refused => ?_, fun state silent taken => ?_⟩
  · exact takes_startBurner started used (by rw [if_pos state, Part.reply_eq_answer])
  · exact takes_startBurner started used (by rw [if_neg (not_not.2 state), if_pos silent, Part.reply_eq_answer])
  · exact takes_startBurner started used (by
      rw [if_neg (not_not.2 state), if_neg (by simp [silent]), if_pos (by rw [Bool.eq_false_iff.2 (mt iff.1 refused)]; rfl), Part.reply_eq_answer])
  · have takes := takes_startBurner started used (by
      rw [if_neg (not_not.2 state), if_neg (by simp [silent]), if_neg (by rw [iff.2 taken]; decide)])
    have moved := p.enterLightWait_settled b .igniting
    have wants := p.enterLightWait_wants b .igniting started silent
    generalize (p.enterLightWait b .igniting).settle = q at takes moved wants
    exact ⟨_, takes, (Part.reply_host ..).trans (by rw [moved.host]), moved.burner, wants, moved.reported⟩

/-! ## Setpoints set to 0 at once (R108) -/

section
variable {p : Part} {f : Fin 6} {b : Fin 2}

theorem Part.settleFeeder_cases (f : Fin 6) (p : Part) : p.settleFeeder f = p ∨
    p.settleFeeder f = p.feederTo f .running p.feeders[f].setpoint ∨ p.settleFeeder f = p.feederTo f .stopped 0 := by
  unfold Part.settleFeeder
  dsimp only
  split
  · exact .inl rfl
  · split
    · split
      · exact .inl rfl
      · exact .inr (.inl rfl)
    · split
      · exact .inl rfl
      · exact .inr (.inr rfl)

theorem Part.feederTo_self (f : Fin 6) (s : FeederState) (sp : Nat) (p : Part) : (p.feederTo f s sp).feeders[f] =
    { p.feeders[f] with state := s, setpoint := sp, rampRem := 0, trim := 0, devTimer := none, noFlow := none } := set_self ..

theorem Part.feederTo_other {g : Fin 6} (ne : g ≠ f) (s : FeederState) (sp : Nat) (p : Part) :
    (p.feederTo f s sp).feeders[g] = p.feeders[g] := set_other _ _ _ _ ne

/-- Feeder f of burner b is not LOCAL. -/
structure Part.OwnFeeder (b : Fin 2) (f : Fin 6) (p : Part) : Prop where
  remote : p.feeders[f].state ≠ .inLocal
  used : p.feeders[f].cfg.used = true
  burner : p.feeders[f].cfg.burner = b

/-- A feeder that is not LOCAL, its setpoint 0. -/
def Part.Idles (f : Fin 6) (p : Part) : Prop := p.feeders[f].state ≠ .inLocal ∧ p.feeders[f].setpoint = 0

theorem Part.Idles.of_feeders {q : Part} (h : p.Idles f) (same : q.feeders[f] = p.feeders[f]) : q.Idles f := by
  unfold Part.Idles
  rw [same]
  exact h

theorem Part.OwnFeeder.feederTo (h : p.OwnFeeder b f) (g : Fin 6) {s : FeederState} (remote : s ≠ .inLocal) (sp : Nat) :
    (p.feederTo g s sp).OwnFeeder b f := by
  by_cases e : f = g
  · subst e
    exact ⟨by rw [Part.feederTo_self]; exact remote, by rw [Part.feederTo_self]; exact h.used,
      by rw [Part.feederTo_self]; exact h.burner⟩
  · have same := Part.feederTo_other e s sp p
    exact ⟨by rw [same]; exact h.remote, by rw [same]; exact h.used, by rw [same]; exact h.burner⟩

theorem Part.OwnFeeder.settleFeeder (h : p.OwnFeeder b f) (g : Fin 6) : (p.settleFeeder g).OwnFeeder b f := by
  rcases p.settleFeeder_cases g with e | e | e <;> rw [e]
  · exact h
  · exact h.feederTo g (by decide) _
  · exact h.feederTo g (by decide) _

theorem Part.Idles.feederTo (h : p.Idles f) (g : Fin 6) {s : FeederState} (remote : s ≠ .inLocal) {sp : Nat}
    (zero : g = f → sp = 0) : (p.feederTo g s sp).Idles f := by
  by_cases e : f = g
  · subst e
    unfold Part.Idles
    rw [Part.feederTo_self]
    exact ⟨remote, zero rfl⟩
  · unfold Part.Idles
    rw [Part.feederTo_other e]
    exact h

theorem Part.Idles.settleFeeder (h : p.Idles f) (g : Fin 6) : (p.settleFeeder g).Idles f := by
  rcases p.settleFeeder_cases g with e | e | e <;> rw [e]
  · exact h
  · exact h.feederTo g (by decide) fun e => by rw [e]; exact h.2
  · exact h.feederTo g (by decide) fun _ => rfl

theorem Part.OwnFeeder.of_feeders {q : Part} (h : p.OwnFeeder b f) (same : q.feeders[f] = p.feeders[f]) : q.OwnFeeder b f :=
  ⟨by rw [same]; exact h.remote, by rw [same]; exact h.used, by rw [same]; exact h.burner⟩

/-- The fields of a feeder from its two blocks. -/
theorem ChangesOnly.feeder_eq {T : Set Block} {p q : Part} (h : ChangesOnly T p q) (f : Fin 6)
    (hT : Block.feeder f ∉ T ∧ Block.drive f ∉ T := by simp) : q.feeders[f] = p.feeders[f] := by
  have measured : q.feeders[f].measured = p.feeders[f].measured := h.same (.feeder f) hT.1
  obtain ⟨state, setpoint, rampRem, trim, devTimer, noFlow⟩ := h.same (.drive f) hT.2
  cases hx : q.feeders[f] with
  | mk =>
    cases hy : p.feeders[f] with
    | mk =>
      rw [hx, hy] at measured state setpoint rampRem trim devTimer noFlow
      simp_all [Feeder.measured]

theorem Part.OwnFeeder.endRamp (h : p.OwnFeeder b f) (c : Fin 2) : (p.endRamp c).OwnFeeder b f := by
  unfold Part.endRamp
  split
  · next r _ =>
    refine Part.OwnFeeder.of_feeders (p := p.replaceMix c r.target) ?_ ((Part.withdraw_frame 2 c.val _).feeder_eq f)
    refine forAll_keeps (I := fun q => q.OwnFeeder b f) (fun g _ k => k.settleFeeder g) ?_
    refine forAll_keeps (I := fun q => q.OwnFeeder b f) (fun g q k => ?_) h
    by_cases e : f = g
    · subst e
      have same : (q.updFeeder f fun x => { x with mix := r.target[f] }).feeders[f] =
        { q.feeders[f] with mix := r.target[f] } := set_self ..
      exact ⟨by rw [same]; exact k.remote, by rw [same]; exact k.used, by rw [same]; exact k.burner⟩
    · exact k.of_feeders (set_other _ _ _ _ e)
  · exact h

theorem Part.OwnFeeder.leaveFor (h : p.OwnFeeder b f) (c : Fin 2) (s : BurnerState) : (p.leaveFor c s).OwnFeeder b f := by
  have left : (if s = .lightWait ∨ s = .igniting ∨ s = .loading then p else p.withdraw 0 c.val).OwnFeeder b f := by
    split
    · exact h
    · exact h.of_feeders ((p.withdraw_frame 0 c.val).feeder_eq f)
  exact ite_keeps (I := fun q => q.OwnFeeder b f) (fun _ => left) fun _ => left.endRamp c

/-- Entry to a state in which a burner has no fuel sets the setpoints of its feeders to 0, but for those in LOCAL. -/
theorem Part.OwnFeeder.idles (h : p.OwnFeeder b f) : (p.zeroSetpoints b).Idles f := by
  have zero (q : Part) (k : q.feeders[f].state ≠ .inLocal) : (q.updFeeder f fun x =>
      if x.state = .inLocal then x else { x with setpoint := 0, rampRem := 0 }).feeders[f] =
      { q.feeders[f] with setpoint := 0, rampRem := 0 } := (set_self ..).trans (if_neg k)
  have other (g : Fin 6) (q : Part) (ne : g ≠ f) : (q.updFeeder g fun x =>
      if x.state = .inLocal then x else { x with setpoint := 0, rampRem := 0 }).feeders[f] = q.feeders[f] :=
    set_other _ _ _ _ fun e => ne e.symm
  unfold Part.zeroSetpoints
  obtain ⟨q, remote, same, found, -⟩ := Part.forAll_at (R := fun p q => p.feeders[f].state ≠ .inLocal → q.feeders[f].state ≠ .inLocal)
    (V := fun q => q.feeders[f]) (a := f) (fun _ => id) (fun h g x => g (h x)) (fun g q k => by
      by_cases e : g = f
      · subst e
        rw [zero q k]
        exact k
      · rw [other g q e]
        exact k) (fun g q ne => other g q ne) (p.feedersOf_pairwise_lt b).nodup (Part.mem_feedersOf.2 ⟨h.used, h.burner⟩) p
  unfold Part.Idles
  rw [found, zero q (remote h.remote)]
  exact ⟨remote h.remote, rfl⟩

theorem Part.burnerTo_idles (h : p.OwnFeeder b f) {s : BurnerState} (out : s = .off ∨ s = .held ∨ s = .tripped)
    (fix : Burner → Burner) (mark : Bool) : (p.burnerTo b s fix mark).Idles f := by
  have left := h.leaveFor b s
  unfold Part.burnerTo
  dsimp only
  rw [if_pos out]
  refine Part.Idles.of_feeders ?_ (((Part.record_frame _ _).andThen (Part.offer_frame ..)).feeder_eq f)
  exact forAll_keeps (I := fun q => q.Idles f) (fun g _ k => k.settleFeeder g) (Part.OwnFeeder.idles (left.of_feeders rfl))

end

/-! ## STOP BURNER, RESET TRIP, RESUME BURNER (R86, R89, R92) -/

section
variable {p : Part} {b : Fin 2}

/-- The holder of LIGHT-OFF that gives it up begins the re-claim delay (R48). -/
theorem Part.burnerTo_reclaim {s : BurnerState} (free : s.free = true) (fix : Burner → Burner) (mark : Bool)
    (held : p.holdsFor 0 b.val) : (p.burnerTo b s fix mark).claims[(0 : Fin 3)].reclaim = some (later p.now p.cfg.period) := by
  have released : (p.withdraw 0 b.val).claims[(0 : Fin 3)].reclaim = some (later p.now p.cfg.period) := by
    obtain ⟨state, user⟩ := held
    unfold Part.withdraw
    dsimp only
    rw [if_pos (by rw [user, state]; simp)]
    have idle : ChangesOnly {.claim 0} (p.queueFrame (.release 0)) ((p.queueFrame (.release 0)).updRes 0 Resource.toIdle) :=
      Part.updRes_frame 0 Resource.toIdle _ {.claim 0}
    have sent := ((p.queueFrame_frame (.release 0)).andThen idle).andThen
      (Part.offer_frame .resource (0 : Fin 3).val 1 false 0 none _)
    unfold Part.release Part.beginReclaim
    rw [Part.updRes_claims_self, sent.now_eq, show _ = p.cfg from sent.same .cfg (by simp)]
  have ends : ¬ (s = .lightWait ∨ s = .igniting ∨ s = .loading) := by
    simpa [BurnerState.free, not_or, and_assoc] using free
  have left : (p.leaveFor b s).claims[(0 : Fin 3)].reclaim = some (later p.now p.cfg.period) := by
    unfold Part.leaveFor
    rw [if_neg ends]
    dsimp only
    split
    · exact released
    · exact Eq.trans ((Part.endRamp_frame b _).same (.reclaim 0) (by simp)) released
  have after := (Part.afterBurner_frame b s mark (((p.leaveFor b s).updBurner b fun x => fix (x.cleared s)).updOutput fun o =>
    { o with igniter := o.igniter.set b (s == .igniting) })).same (.reclaim 0) (by simp)
  exact Eq.trans after left

variable (started : p.started = true) (used : p.burners[b].cfg.used = true)
include started used

theorem takes_stopBurner_off (h : p.burners[b].state = .lightWait ∨ p.burners[b].state = .igniting ∨ p.burners[b].state = .held) :
    Takes (.stopBurner b.val) p (((p.burnerTo b .off id).settle).reply 0x2B .done) := by
  refine takes_row rfl ((Part.burnerCommand_used started used _).trans ?_)
  rcases h with e | e | e <;> rw [e] <;> rfl

theorem takes_stopBurner_stopping (h : p.burners[b].state = .loading ∨ p.burners[b].state = .firing) :
    Takes (.stopBurner b.val) p (((p.burnerTo b .stopping id).settle).reply 0x2B .done) := by
  refine takes_row rfl ((Part.burnerCommand_used started used _).trans ?_)
  rcases h with e | e <;> rw [e] <;> rfl

theorem takes_stopBurner_refused (h : p.burners[b].state = .off ∨ p.burners[b].state = .stopping ∨ p.burners[b].state = .tripped) :
    Takes (.stopBurner b.val) p (p.answer 0x2B .wrongState []) := by
  refine takes_row rfl ((Part.burnerCommand_used started used _).trans ?_)
  rcases h with e | e | e <;> rw [e] <;> exact Part.reply_eq_answer ..

theorem takes_resetTripBurner {q : Part} (h : (if p.burners[b].state ≠ .tripped then p.reply 0x2D .wrongState
    else if p.tripStands b then p.reply 0x2D .permissive
    else ((p.burnerTo b .off id).settle).reply 0x2D .done) = q) : Takes (.resetTripBurner b.val) p q :=
  takes_row rfl ((Part.burnerCommand_used started used _).trans h)

theorem takes_resumeBurner {q : Part} (h : (if p.burners[b].state ≠ .held then p.reply 0x2C .wrongState
    else if p.burners[b].causePermit || p.burners[b].causeConflict then p.reply 0x2C .permissive
    else if p.burners[b].route.isSome && p.line.silent then p.reply 0x2C .noLine
    else ((p.resume b).settle).reply 0x2C .done) = q) : Takes (.resumeBurner b.val) p q :=
  takes_row rfl ((Part.burnerCommand_used started used _).trans h)

end

/-- The way of a resume: straight to FIRING, or through LIGHT_WAIT (R92). -/
theorem Burner.route_eq (x : Burner) : (x.flame = true ∧ x.heldStep = some .firing → x.route = none) ∧
    (¬ (x.flame = true ∧ x.heldStep = some .firing) →
      x.route = some (if x.flame = true ∧ x.heldStep = some .loading then .loading else .igniting)) := by
  unfold Burner.route
  cases x.flame with
  | false => simp
  | true =>
    refine ⟨fun h => by rw [h.2]; rfl, fun h => ?_⟩
    cases e : x.heldStep with
    | none => simp
    | some s => cases s <;> simp_all

/-- Settles O37, each move by what `burnerTo` leaves. -/
theorem burnerCommandsTaken : Obligations.BurnerCommandsTaken := by
  unfold Obligations.BurnerCommandsTaken
  refine ⟨fun p b started used => ⟨fun state => ?_, fun state => ?_, fun state => takes_stopBurner_refused started used state,
    fun state => ?_, fun state stands => ?_, fun state stands => ?_⟩, ?_⟩
  · have takes := takes_stopBurner_off started used state
    have moved := p.burnerTo_settled b .off id false
    have frame := Part.settle_frame (p.burnerTo b .off id)
    have reclaim : p.holdsFor 0 b.val → (p.burnerTo b .off id).settle.claims[(0 : Fin 3)].reclaim = _ := fun held =>
      Eq.trans (frame.same (.reclaim 0) (by simp)) (Part.burnerTo_reclaim (s := .off) rfl id false held)
    have zero (f : Fin 6) (mem : f ∈ p.feedersOf b) (remote : p.feeders[f].state ≠ .inLocal) :
        (p.burnerTo b .off id).settle.feeders[f].setpoint = 0 := by
      obtain ⟨usedF, burner⟩ := Part.mem_feedersOf.1 mem
      rw [frame.feeder_eq f]
      exact (Part.burnerTo_idles ⟨remote, usedF, burner⟩ (.inl rfl) id false).2
    generalize (p.burnerTo b .off id).settle = q at takes moved reclaim zero
    exact ⟨_, takes, (Part.reply_host ..).trans (by rw [moved.host]), moved.burner, moved.igniter, moved.free rfl, reclaim, zero,
      moved.reported⟩
  · have takes := takes_stopBurner_stopping started used state
    have moved := p.burnerTo_settled b .stopping id false
    generalize (p.burnerTo b .stopping id).settle = q at takes moved
    exact ⟨_, takes, (Part.reply_host ..).trans (by rw [moved.host]), moved.burner, moved.igniter, moved.free rfl, moved.reported⟩
  · exact takes_resetTripBurner started used (by rw [if_pos state, Part.reply_eq_answer])
  · exact takes_resetTripBurner started used (by rw [if_neg (not_not.2 state), if_pos stands, Part.reply_eq_answer])
  · have takes := takes_resetTripBurner started used (by rw [if_neg (not_not.2 state), if_neg (by rw [stands]; decide)])
    have moved := p.burnerTo_settled b .off id false
    generalize (p.burnerTo b .off id).settle = q at takes moved
    exact ⟨_, takes, (Part.reply_host ..).trans (by rw [moved.host]), moved.burner, moved.reported⟩
  · intro p b started used x straight
    obtain ⟨direct, round⟩ := x.route_eq
    refine ⟨fun state => ?_, fun state cause => ?_, fun state permit conflict => ⟨fun indirect silent => ?_, fun way => ?_,
      fun indirect silent => ?_⟩⟩
    · exact takes_resumeBurner started used (by rw [if_pos state, Part.reply_eq_answer])
    · exact takes_resumeBurner started used (by
        rw [if_neg (not_not.2 state), if_pos (by rw [Bool.or_eq_true]; exact cause), Part.reply_eq_answer])
    all_goals
      have causes : ¬ (p.burners[b].causePermit || p.burners[b].causeConflict) = true := by
        rw [show p.burners[b].causePermit = false from permit, show p.burners[b].causeConflict = false from conflict]
        decide
    · exact takes_resumeBurner started used (by
        rw [if_neg (not_not.2 state), if_neg causes, show p.burners[b].route = _ from round indirect, if_pos (by simp [silent]),
          Part.reply_eq_answer])
    · have route : p.burners[b].route = none := direct way
      have takes := takes_resumeBurner started used (by
        rw [if_neg (not_not.2 state), if_neg causes, route, if_neg (by simp), Part.resume, route])
      dsimp only at takes
      have moved := p.burnerTo_settled b .firing (fun x =>
        { x with absent := p.burners[b].absent, weak := if p.flameBelowWeak b then some ⟨p.now, false⟩ else none }) false
      unfold Part.enterFiring at takes
      generalize (p.burnerTo b .firing _).settle = q at takes moved
      exact ⟨_, takes, (Part.reply_host ..).trans (by rw [moved.host]), congrArg Burner.state moved.burner,
        congrArg Burner.heldStep moved.burner, congrArg Burner.heldUntil moved.burner⟩
    · have route : p.burners[b].route = _ := round indirect
      have takes := takes_resumeBurner started used (by
        rw [if_neg (not_not.2 state), if_neg causes, route, if_neg (by simp [silent]), Part.resume, route])
      dsimp only at takes
      have moved := p.enterLightWait_settled b (if x.flame = true ∧ x.heldStep = some .loading then .loading else .igniting)
      generalize (p.enterLightWait b _).settle = q at takes moved
      exact ⟨_, takes, (Part.reply_host ..).trans (by rw [moved.host]), moved.burner⟩

/-! ## The burner's timers (R81, R82, R83, R91) -/

/-- A timer of a state the burner is not in, or one that is not present. -/
theorem whenDue_idle {p q : Part} {s t : BurnerState} {d : Option Time} {f : Part → Part} (idle : s ≠ t ∨ d = none)
    (h : (if s = t then p.whenDue d f else p) = q) : q = p := by
  subst h
  split
  · next e => rw [idle.resolve_left (not_not.2 e)]; rfl
  · rfl

/-- Settles O38. -/
theorem burnerTimersMove : Obligations.BurnerTimersMove := by
  unfold Obligations.BurnerTimersMove
  refine fun p b => ⟨fun idle => takes_row rfl (whenDue_idle idle rfl), fun idle => takes_row rfl ?_,
    fun idle => takes_row rfl (whenDue_idle idle rfl), fun idle => takes_row rfl (whenDue_idle idle rfl),
    fun t state u => ?_, fun t state u => ?_, fun t state u => ?_, fun t state u => ?_⟩
  · have absent : p.provenDue b = none := by
      unfold Part.provenDue
      split
      · next e => rw [idle.resolve_left (not_not.2 e)]; rfl
      · rfl
    dsimp only
    rw [absent]
    rfl
  · have moved := p.burnerTo_settled b .off id true
    refine takesAt_row (f := fun p => (p.enterOff b true).settle) rfl ((if_pos state).trans (by rw [u])) fun _ => ?_
    unfold Part.enterOff
    generalize (p.burnerTo b .off id true).settle = q at moved
    exact ⟨moved.now, moved.burner, moved.free rfl, moved.now ▸ moved.reported⟩
  · have moved := p.burnerTo_settled b .loading (fun x =>
      { x with loading := some (later p.now (x.cfg.loading * 1000)), absent := if x.flame then none else some p.now }) false
    have due : p.provenDue b = some (later t (p.burners[b].cfg.proving * 1000)) := (if_pos state).trans (by rw [u]; rfl)
    refine takesAt_row (f := fun p => (p.enterLoading b).settle) rfl (by dsimp only; rw [due]) fun _ => ?_
    unfold Part.enterLoading
    generalize (p.burnerTo b .loading _).settle = q at moved
    exact ⟨moved.now, by rw [moved.now]; exact moved.burner, moved.igniter, moved.now ▸ moved.reported⟩
  · have moved := p.burnerTo_settled b .firing (fun x =>
      { x with absent := p.burners[b].absent, weak := if p.flameBelowWeak b then some ⟨p.now, false⟩ else none }) false
    refine takesAt_row (f := fun p => (p.enterFiring b).settle) rfl ((if_pos state).trans (by rw [u])) fun _ => ?_
    unfold Part.enterFiring
    generalize (p.burnerTo b .firing _).settle = q at moved
    obtain ⟨now, burner, -, reported, free, -⟩ := moved
    exact ⟨now, by rw [burner]; rfl, by rw [burner], free rfl, now ▸ reported⟩
  · have moved := p.burnerTo_settled b .off id false
    refine takesAt_row (f := fun p => (p.enterOff b).settle) rfl ((if_pos state).trans (by rw [u])) fun _ => ?_
    unfold Part.enterOff
    generalize (p.burnerTo b .off id).settle = q at moved
    exact ⟨moved.now, moved.burner, moved.now ▸ moved.reported⟩

end Sys2Proof.Machine
end

section
/-! OBLIGATIONS O35 and O39. A mode change, and the failures that trip a burner. -/

namespace Sys2Proof.Machine

-- One proof at a time: the whole package as one text must not start a thread for each of them.
set_option Elab.async false

open Sys2Proof.Config

/-! ## The evaluation that stands at the end of an event -/

theorem ChangesOnly.alloc_eq {T : Set Block} {p q : Part} (h : ChangesOnly T p q)
    (hT : Block.alloc ∉ T ∧ Block.offer ∉ T := by simp) : q.alloc = p.alloc := by
  have results : q.alloc.results = p.alloc.results := h.same .alloc hT.1
  obtain ⟨offered, offer⟩ := h.same .offer hT.2
  cases hx : q.alloc with
  | mk =>
    cases hy : p.alloc with
    | mk =>
      rw [hx, hy] at results offered offer
      simp_all [Alloc.results]

theorem Part.evaluate_alloc {p : Part} (started : p.started = true) (zone : p.cfg.zone ≠ .none) :
    p.evaluate.alloc = p.evaluated := by
  unfold Part.evaluate
  rw [if_pos (by simp [started, zone])]
  rfl

/-- At the end of an event the results are those of the evaluation that it made (R55). -/
theorem Part.settle_alloc {p : Part} (started : p.started = true) (zone : p.cfg.zone ≠ .none) :
    p.settle.alloc = ((p.serviceAll).freezeAll).evaluated := by
  have before := p.serviceAll_frame.andThen (Part.freezeAll_frame _)
  rw [Part.settle_eq, (Part.settleQuiet_frame _).alloc_eq]
  exact Part.evaluate_alloc (before.started_eq.trans started) (by
    rw [show _ = p.cfg from before.same .cfg (by simp)]
    exact zone)

/-! ## COOL-DOWN (R75) -/

section
variable {p : Part} {b : Fin 2}

/-- A burner and its igniter output. -/
def Part.burnerView (b : Fin 2) (p : Part) : Burner × Bool := (p.burners[b], p.field.output.igniter[b])

theorem Part.coolBurner_other {c : Fin 2} (ne : c ≠ b) (p : Part) : (p.coolBurner b).burnerView c = p.burnerView c := by
  have moved (s : BurnerState) : (p.burnerTo b s id).burnerView c = p.burnerView c :=
    Prod.ext (Part.burnerTo_other ne s id false p) (Part.burnerTo_igniter_other ne s id p false)
  unfold Part.coolBurner
  split
  · rfl
  · split
    · exact moved .off
    · exact moved .off
    · exact moved .off
    · exact moved .stopping
    · exact moved .stopping
    · rfl

theorem Part.coolBurner_self (used : p.burners[b].cfg.used = true) :
    (p.burners[b].state = .lightWait ∨ p.burners[b].state = .igniting ∨ p.burners[b].state = .held →
      (p.coolBurner b).burnerView b = (p.burners[b].cleared .off, false)) ∧
    (p.burners[b].state = .loading ∨ p.burners[b].state = .firing →
      (p.coolBurner b).burners[b] = p.burners[b].cleared .stopping) ∧
    (p.burners[b].out → (p.coolBurner b).burners[b] = p.burners[b]) := by
  unfold Part.coolBurner
  rw [if_neg (by rw [used]; decide)]
  refine ⟨fun state => ?_, fun state => ?_, fun state => ?_⟩
  · rcases state with e | e | e <;> rw [e] <;>
      exact Prod.ext (p.burnerTo_burner b .off id false) (p.burnerTo_igniter b .off id false)
  · rcases state with e | e <;> rw [e] <;> exact p.burnerTo_burner b .stopping id false
  · rcases state with e | e <;> rw [e]

/-- What the entry to COOL-DOWN makes of burner b. -/
theorem Part.cooled_burner (b : Fin 2) (p : Part) : ∃ q : Part, q.burnerView b = p.burnerView b ∧
    (p.forAll burnerIds Part.coolBurner).burnerView b = (q.coolBurner b).burnerView b := by
  obtain ⟨q, -, same, found, -⟩ := Part.forAll_at (R := fun _ _ => True) (V := Part.burnerView b) (fun _ => trivial)
    (fun _ _ => trivial) (fun _ _ => trivial) (fun c q ne => q.coolBurner_other fun e => ne e.symm) (List.nodup_finRange 2)
    (List.mem_finRange b) p
  exact ⟨q, same, found⟩

end

/-- The stages of a mode change. -/
theorem Part.changeMode_eq (m : PlantMode) (p : Part) : p.changeMode m =
    ((if m = .coolDown then ({ p with mode := m } : Part).forAll burnerIds Part.coolBurner else { p with mode := m }).offer .mode 0
      m.code).settleAll := rfl

/-- In COOL-DOWN the station brings no capacity (R65). -/
theorem Part.settle_capacity {p : Part} (started : p.started = true) (zone : p.cfg.zone ≠ .none) (mode : p.mode = .coolDown) :
    p.settle.alloc.capacity = 0 := by
  have before := p.serviceAll_frame.andThen (Part.freezeAll_frame _)
  have same : p.serviceAll.freezeAll.mode = .coolDown := Eq.trans (before.same .mode (by simp)) mode
  rw [Part.settle_alloc started zone]
  generalize p.serviceAll.freezeAll = q at same
  show (match q.mode with | .run => _ | .heatUp => _ | _ => 0) = 0
  rw [same]

theorem Part.settleAll_capacity {p : Part} (started : p.started = true) (zone : p.cfg.zone ≠ .none) (mode : p.mode = .coolDown) :
    p.settleAll.alloc.capacity = 0 := by
  have before := (Part.settlePoints_frame promptPoints p).andThen (Part.settleHolds_frame _)
  have same : ((p.settlePoints promptPoints).settleHolds).cfg = p.cfg := before.same .cfg (by simp)
  rw [Part.settleAll_eq]
  exact Part.settle_capacity (before.started_eq.trans started) (by rw [same]; exact zone) (before.mode_eq.trans mode)

/-- Settles O35: what the entry to COOL-DOWN makes of a burner (`coolBurner_self`) stands at the end of the event, but for a
trip of a burner that is STOPPING (`Onward.burners`). -/
theorem coolDownStopsBurners : Obligations.CoolDownStopsBurners := by
  unfold Obligations.CoolDownStopsBurners
  intro p m started ne allowed
  have takes := takes_setMode started m
  rw [if_neg ne, if_pos allowed, Part.changeMode_eq] at takes
  have views (b : Fin 2) := Part.cooled_burner b { p with mode := m }
  have cooled : ChangesOnly (burnerBlocks 0 ∪ burnerBlocks 1) { p with mode := m }
      (({ p with mode := m } : Part).forAll burnerIds Part.coolBurner) :=
    .forAll (fun b r => (r.coolBurner_frame b).mono
      (by match b with | 0 => exact Set.subset_union_left | 1 => exact Set.subset_union_right)) _ _
  generalize ({ p with mode := m } : Part).forAll burnerIds Part.coolBurner = c at takes views cooled
  have moved : ChangesOnly (burnerBlocks 0 ∪ burnerBlocks 1) { p with mode := m } (if m = .coolDown then c else { p with mode := m }) :=
    .ite cooled .refl
  have entered : m = .coolDown → (if m = .coolDown then c else { p with mode := m }) = c := fun e => if_pos e
  generalize (if m = .coolDown then c else { p with mode := m }) = x at takes moved entered
  have offered := Part.offer_frame .mode 0 m.code false 0 none x
  have reported := Part.offer_reported .mode 0 m.code false 0 none x
  rw [moved.now_eq] at reported
  generalize x.offer .mode 0 m.code = y at takes offered reported
  have settles := y.settleAll_settles
  have capacity := fun zone mode => Part.settleAll_capacity (p := y) ((moved.andThen offered).started_eq.trans started) zone mode
  generalize y.settleAll = q at takes settles capacity
  refine ⟨_, takes, settles.frame.reported reported, fun cool b used => ?_, fun zone cool => ?_⟩
  · obtain ⟨r, same, found⟩ := views b
    rw [entered cool] at offered
    have burner : r.burners[b] = p.burners[b] := congrArg Prod.fst same
    obtain ⟨off, stopping, out⟩ := Part.coolBurner_self (p := r) (b := b) (by rw [burner]; exact used)
    rw [burner] at off stopping out
    have at_ : y.burners[b] = (r.coolBurner b).burners[b] := (offered.burner_eq b).trans (congrArg Prod.fst found)
    have igniter : y.field.output.igniter[b] = (r.coolBurner b).field.output.igniter[b] :=
      (congrArg (fun v : Vector Bool 2 => v[b]) (offered.same .igniters (by simp))).trans (congrArg Prod.snd found)
    refine ⟨fun state => ?_, fun state => ?_, fun state => ?_⟩
    · have view := off state
      have is : y.burners[b] = p.burners[b].cleared .off := at_.trans (congrArg Prod.fst view)
      have kept := settles.onward.out (b := b) (.inl (by rw [is]; rfl))
      exact ⟨kept.burner.trans is, kept.igniter.trans (igniter.trans (congrArg Prod.snd view))⟩
    · have is := at_.trans (stopping state)
      rcases settles.onward.burners b (by rw [is]; exact nofun) with kept | ⟨-, tripped⟩
      · exact .inl (kept.burner.trans is)
      · refine .inr (tripped.burner.trans ?_)
        rw [is]
        rfl
    · have is := at_.trans (out state)
      exact (settles.onward.out (b := b) (by rw [Burner.out, is]; exact state)).burner.trans is
  · refine capacity ?_ ?_
    · rw [show y.cfg = p.cfg from (moved.andThen offered).same .cfg (by simp)]
      exact zone
    · rw [← cool]
      exact (moved.andThen offered).mode_eq

/-! ## Failures that trip a burner (R82, R84, R88) -/

section
variable {p : Part} {i : Fin 62} {b : Fin 2}

theorem Part.tripBurner_eq (used : p.burners[b].cfg.used = true) (going : ¬ p.burners[b].out) :
    p.tripBurner b = p.burnerTo b .tripped id := by
  unfold Part.tripBurner
  refine if_neg ?_
  rw [used]
  simpa [Burner.out] using going

/-- A TRIP point bound to a burner that is activated makes the burner give LIGHT-OFF back (R79, R88). -/
theorem Part.activate_holdsNot (cls : (p.pointAttr i).cls = .trip) (names : (p.pointAttr i).binding = .burner b)
    (used : p.burners[b].cfg.used = true) (going : ¬ p.burners[b].out) : ¬ (p.activate i).holdsFor 0 b.val := by
  obtain ⟨-, -, burners, -, attr⟩ := p.counted_alarms i
  rw [Part.activate_eq, if_pos cls]
  generalize (p.sounded i).record (ShiftRec.activation (p.pointAttr i).cls) = q at burners attr
  rw [← burners] at used going
  obtain ⟨o, e, eq⟩ := q.actTrip_eq i
  rw [eq]
  have frame := Part.actTrip_frame_filled i (q.tripBound (q.pointAttr i).binding) o e (q.pointAttr i).lineWide
  have given : ¬ (q.tripBound (q.pointAttr i).binding).holdsFor 0 b.val := by
    rw [attr, names]
    show ¬ (q.tripBurner b).holdsFor 0 b.val
    rw [Part.tripBurner_eq used going]
    exact Part.burnerTo_holdsNot rfl id q false
  exact fun h => given ((frame.holdsFor 0 b.val).1 h)

/-- The end of an event in which a failure of burner b, set by f, trips the burner. -/
theorem Part.burnerTripped (m : momentary i) (started : p.started = true) (used : p.burners[b].cfg.used = true)
    (going : ¬ p.burners[b].out) (moves : p.burners[b].state ≠ .held) {f : Burner → Burner}
    (same : ∀ x, (f x).cleared .tripped = x.cleared .tripped ∧ (f x).cfg = x.cfg ∧ (f x).state = x.state)
    (cls : (p.pointAttr i).cls = .trip) (names : (p.pointAttr i).binding = .burner b)
    (up : (p.updBurner b f).condition i = true)
    (down : ∀ q : Part, q.burners[b] = p.burners[b].cleared .tripped → q.condition i = false)
    (was : p.alarms.points[i].state = .normal) (eff : p.alarms.points[i].eff = false)
    (shelf : p.alarms.points[i].shelvedUntil = none) :
    let q := ((((p.updBurner b f).settlePoint i).settlePoint i true).settleAll).keepHorn i
    q.now = p.now ∧ q.burners[b] = p.burners[b].cleared .tripped ∧ q.field.output.igniter[b] = false ∧ ¬ q.holdsFor 0 b.val ∧
      q.alarms.points[i].state = .cleared ∧ q.alarms.points[i].lastActivation = some p.now ∧
      q.alarms.seen.trip = true ∧ q.alarms.tripNew = true ∧ q.alarms.horn = true ∧ q.field.output.horn = true ∧
      (p.alarms.firstOut = none → ∃ r, q.alarms.firstOut = some r ∧ r.point = i ∧ r.time = p.now) := by
  have set : (p.updBurner b f).burners[b] = f p.burners[b] := set_self ..
  have flagged := (p.updBurner_frame b f)
  have attr : (p.updBurner b f).pointAttr i = p.pointAttr i := Part.pointAttr_congr (fun _ => rfl) i
  obtain ⟨cleared, cfg, state⟩ := same p.burners[b]
  obtain ⟨tripNew, seen, firstOut, tripped⟩ := Part.settlePoint_trips (p := p.updBurner b f) m (by rw [attr]; exact cls) started
    up eff shelf was
  have tripped := tripped b (by rw [set, cfg]; exact used) (by rw [attr]; exact .inr names)
  have onward := Part.settlePoint_onward (L := fun _ => True) (p := p.updBurner b f) false (fun _ _ => trivial) i
  have holds : ¬ ((p.updBurner b f).settlePoint i).holdsFor 0 b.val := by
    rw [Part.settlePoint_activates (p := p.updBurner b f) ((momentary_effective m _).trans (by
      rw [up, Bool.and_true]; exact started)) eff shelf (.inl was)]
    refine Part.activate_holdsNot (by rw [Part.updPoint_attr, attr]; exact cls) (by rw [Part.updPoint_attr, attr]; exact names)
      ?_ ?_
    · exact (congrArg BurnerCfg.used ((congrArg Burner.cfg set).trans cfg)).trans used
    · show ¬ (p.updBurner b f).burners[b].out
      rw [Burner.out, set, state]
      exact going
  have spell := Part.spell (p := p.updBurner b f) (q := (p.updBurner b f).settlePoint i) m started up rfl
  have first := Part.settlePoint_frame i (p.updBurner b f) false
  have now : ((p.updBurner b f).settlePoint i).now = p.now := first.1.now_eq
  have trip := onward.burners b (by rw [set, state]; exact moves)
  generalize (p.updBurner b f).settlePoint i = t at tripNew seen firstOut tripped holds spell now trip ⊢
  have trip := trip.resolve_left fun kept => by
    rw [Burner.out, kept.burner, set, state] at tripped
    exact going tripped
  have burner : t.burners[b] = p.burners[b].cleared .tripped := by
    rw [trip.2.burner, set, cleared]
  have settles := (Part.settlePoint_settles true i t).trans (Part.settleAll_settles _)
  have kept := Part.keepHorn_frame i ((t.settlePoint i true).settleAll)
  obtain ⟨clearedPoint, time, horn, out⟩ := (spell (fun r h => down r (((h.onward.out tripped).burner).trans burner)) eff
    shelf).1 was
  have frame := settles.frame.andThen kept
  have onward := settles.onward.trans kept.onward
  generalize ((t.settlePoint i true).settleAll).keepHorn i = q at clearedPoint time horn out frame onward ⊢
  have still := onward.out tripped
  refine ⟨frame.now_eq.trans now, still.burner.trans burner, still.igniter.trans trip.2.igniter, fun h => holds (onward.holds _ _ h),
    clearedPoint, time, onward.tripSeen seen, onward.tripNew tripNew, horn, out, fun none => ?_⟩
  obtain ⟨r, some, point, at_⟩ := firstOut none
  obtain ⟨s, some', point', at'⟩ := onward.firstOut r some
  exact ⟨s, some', point'.trans point, at'.trans at_⟩

end

/-- A failure of a burner that rises and falls takes no time. -/
theorem Part.failure_now (i : Fin 62) (b : Fin 2) (f : Burner → Burner) (p : Part) :
    (((((p.updBurner b f).settlePoint i).settlePoint i true).settleAll).keepHorn i).now = p.now := by
  have flagged := (p.updBurner_frame b f).andThen (Part.settlePoint_frame i (p.updBurner b f) false).1
  generalize (p.updBurner b f).settlePoint i = t at flagged ⊢
  have settles := (Part.settlePoint_settles true i t).trans (Part.settleAll_settles _)
  exact ((settles.frame.andThen (Part.keepHorn_frame i _)).now_eq).trans flagged.now_eq

theorem Part.failLightOff_eq (b : Fin 2) (p : Part) : p.failLightOff b =
    ((p.updBurner b fun x => { x with lightOffFail := true }).settlePoint (lightOffFailPoint b)).settlePoint
      (lightOffFailPoint b) true := rfl

theorem Part.failFlame_eq (b : Fin 2) (p : Part) : p.failFlame b =
    ((p.updBurner b fun x => { x with flameFail := true }).settlePoint (flameFailPoint b)).settlePoint (flameFailPoint b)
      true := rfl

theorem condition_flameFail (p : Part) : ∀ b : Fin 2, p.condition (flameFailPoint b) = p.burners[b].flameFail
  | 0 => rfl
  | 1 => rfl

theorem condition_lightOffFail (p : Part) : ∀ b : Fin 2, p.condition (lightOffFailPoint b) = p.burners[b].lightOffFail
  | 0 => rfl
  | 1 => rfl

theorem failurePoints_attr (p : Part) : ∀ b : Fin 2, (p.pointAttr (flameFailPoint b)).cls = .trip ∧
    (p.pointAttr (flameFailPoint b)).binding = .burner b ∧ (p.pointAttr (lightOffFailPoint b)).cls = .trip ∧
    (p.pointAttr (lightOffFailPoint b)).binding = .burner b
  | 0 => ⟨rfl, rfl, rfl, rfl⟩
  | 1 => ⟨rfl, rfl, rfl, rfl⟩

theorem momentary_failure : ∀ b : Fin 2, momentary (flameFailPoint b) ∧ momentary (lightOffFailPoint b)
  | 0 => by simp [momentary, flameFailPoint, lightOffFailPoint]
  | 1 => by simp [momentary, flameFailPoint, lightOffFailPoint]

/-- Settles O39, each failure by `burnerTripped`. -/
theorem burnerFailuresTrip : Obligations.BurnerFailuresTrip := by
  unfold Obligations.BurnerFailuresTrip
  intro p b started used
  obtain ⟨flameCls, flameOf, lightCls, lightOf⟩ := failurePoints_attr p b
  refine ⟨fun idle => takes_row rfl (whenDue_idle idle rfl), fun idle => takes_row rfl ?_, ?_⟩
  · have absent : p.flameFailDue b = none := by
      unfold Part.flameFailDue
      split
      · next e => rw [idle.resolve_left (by simp_all)]; rfl
      · rfl
    dsimp only
    rw [absent]
    rfl
  · intro tripped
    refine ⟨fun t state u => ?_, fun t state quiet u => ?_⟩
    · have named : (if b = 0 then (11 : Fin 62) else 15) = lightOffFailPoint b := by
        match b with
        | 0 => rfl
        | 1 => rfl
      rw [named]
      have now := Part.failure_now (lightOffFailPoint b) b (fun x => { x with lightOffFail := true }) p
      have trips := fun was eff shelf => Part.burnerTripped (momentary_failure b).2 started used
        (by rw [Burner.out, state]; decide) (by rw [state]; decide) (f := fun x => { x with lightOffFail := true })
        (fun _ => ⟨rfl, rfl, rfl⟩) lightCls lightOf
        (by rw [condition_lightOffFail]; exact congrArg Burner.lightOffFail (set_self ..))
        (fun q e => by rw [condition_lightOffFail, e]; rfl) was eff shelf
      rw [← Part.failLightOff_eq] at now trips
      generalize h : ((p.failLightOff b).settleAll).keepHorn (lightOffFailPoint b) = q at now trips
      refine takesAt_row (f := fun p => ((p.failLightOff b).settleAll).keepHorn (lightOffFailPoint b)) rfl
        ((if_pos state).trans (by rw [u])) fun _ => ?_
      rw [h]
      exact ⟨now, fun was eff shelf => (trips was eff shelf).2⟩
    · have named : (if b = 0 then (10 : Fin 62) else 14) = flameFailPoint b := by
        match b with
        | 0 => rfl
        | 1 => rfl
      rw [named]
      have fires : p.burners[b].state.fires = true ∧ ¬ p.burners[b].out ∧ p.burners[b].state ≠ .held := by
        rcases state with e | e <;> rw [Burner.out, e] <;> decide
      obtain ⟨fires, going, moves⟩ := fires
      have due : p.flameFailDue b = some (later t (p.burners[b].cfg.flameFail * 1000)) :=
        (if_pos (by rw [fires, quiet]; rfl)).trans (by rw [u]; rfl)
      have now := Part.failure_now (flameFailPoint b) b (fun x => { x with flameFail := true }) p
      have trips := fun was eff shelf => Part.burnerTripped (momentary_failure b).1 started used going moves
        (f := fun x => { x with flameFail := true }) (fun _ => ⟨rfl, rfl, rfl⟩) flameCls flameOf
        (by rw [condition_flameFail]; exact congrArg Burner.flameFail (set_self ..))
        (fun q e => by rw [condition_flameFail, e]; rfl) was eff shelf
      rw [← Part.failFlame_eq] at now trips
      generalize h : ((p.failFlame b).settleAll).keepHorn (flameFailPoint b) = q at now trips
      refine takesAt_row (f := fun p => ((p.failFlame b).settleAll).keepHorn (flameFailPoint b)) rfl
        (by dsimp only; rw [due]) fun _ => ?_
      rw [h]
      exact ⟨now, fun was eff shelf => (trips was eff shelf).2⟩

end Sys2Proof.Machine
end

section
/-! OBLIGATIONS O20 and O32. Calibration writes, and the own offer of demand. -/

namespace Sys2Proof.Machine

-- One proof at a time: the whole package as one text must not start a thread for each of them.
set_option Elab.async false

open Sys2Proof.Config

/-! ## The peers as they are seen (R26, R34) -/

section
variable {T : Set Block} {p q : Part}

theorem ChangesOnly.fresh_eq (h : ChangesOnly T p q) (x : Fin 16)
    (hT : Block.straps ∉ T ∧ (∀ y : Fin 16, Block.peer y ∉ T) := by simp) : q.fresh x = p.fresh x := by
  obtain ⟨straps, peers⟩ := hT
  obtain ⟨strap, -⟩ := h.same .straps straps
  have peer : q.peers[x] = p.peers[x] := h.same (.peer x) (peers x)
  unfold Part.fresh
  rw [strap, peer]

theorem ChangesOnly.strap_eq (h : ChangesOnly T p q) (hT : Block.straps ∉ T := by simp) : q.strapStation = p.strapStation :=
  (h.same .straps hT).1

theorem ChangesOnly.cfg_eq (h : ChangesOnly T p q) (hT : Block.cfg ∉ T := by simp) : q.cfg = p.cfg := h.same .cfg hT

/-- The demand source depends on the peers, the lifecycle, the zone and the own offer alone. -/
theorem ChangesOnly.demandSource_eq (h : ChangesOnly T p q)
    (hT : Block.straps ∉ T ∧ (∀ y : Fin 16, Block.peer y ∉ T) := by simp)
    (own : Block.started ∉ T ∧ Block.offer ∉ T ∧ Block.cfg ∉ T := by simp) : q.demandSource = p.demandSource := by
  obtain ⟨started, offer, cfg⟩ := own
  obtain ⟨offered, -⟩ := h.same .offer offer
  have offers (x : Fin 16) : q.offers x = p.offers x := by
    unfold Part.offers
    rw [h.strap_eq hT.1, h.started_eq started, h.fresh_eq x hT, h.cfg_eq cfg, offered]
  unfold Part.demandSource
  rw [h.cfg_eq cfg, show q.offers = p.offers from funext offers]

end

/-! ## Zone demand (R58) -/

section
variable {p : Part}

theorem Part.stageCeiling_demand (p : Part) (a : Alloc) : (p.stageCeiling a).demand = a.demand ∧
    (p.stageCeiling a).demandHeld = a.demandHeld := by
  unfold Part.stageCeiling
  split
  · exact ⟨rfl, rfl⟩
  · split
    · exact ⟨rfl, rfl⟩
    · split <;> exact ⟨rfl, rfl⟩

/-- The later stages leave the zone demand. -/
theorem Part.stages_demand (p : Part) (a : Alloc) :
    (p.stageSplit (p.stageTarget (p.stageCapacity a.stageEffective))).demand = a.demand ∧
    (p.stageSplit (p.stageTarget (p.stageCapacity a.stageEffective))).demandHeld = a.demandHeld := ⟨rfl, rfl⟩

theorem Part.evaluated_demand (p : Part) : p.evaluated.demand = (p.stageDemand p.alloc).demand ∧
    p.evaluated.demandHeld = (p.stageDemand p.alloc).demandHeld := by
  obtain ⟨demand, held⟩ := p.stages_demand (p.stageCeiling (p.stageDemand p.alloc))
  obtain ⟨demand', held'⟩ := p.stageCeiling_demand (p.stageDemand p.alloc)
  exact ⟨demand.trans demand', held.trans held'⟩

/-- Service and frozen capacities leave everything but the frozen capacities of the allocation. -/
theorem Part.freezeAll_alloc (p : Part) : ∃ z, p.freezeAll.alloc = { p.alloc with frozen := z } := by
  unfold Part.freezeAll
  exact forAll_keeps (I := fun q => ∃ z, q.alloc = { p.alloc with frozen := z })
    (fun b q h => have ⟨z, e⟩ := h; ⟨_, by unfold Part.freeze; dsimp only; rw [e]⟩) ⟨_, rfl⟩

/-- The zone demand at the end of an event (R58). -/
theorem Part.settle_demand (started : p.started = true) (zone : p.cfg.zone ≠ .none) :
    (∀ x, p.demandSource = some x → p.settle.alloc.demand = p.offeredBy x ∧ p.settle.alloc.demandHeld = false) ∧
    (p.demandSource = none → p.settle.alloc.demand = p.alloc.demand ∧ p.settle.alloc.demandHeld = true) := by
  have before := p.serviceAll_frame.andThen (Part.freezeAll_frame _)
  have source := before.demandSource_eq
  obtain ⟨offered, offer⟩ := before.same .offer (by simp)
  obtain ⟨z, kept⟩ := p.serviceAll.freezeAll_alloc
  have same : p.serviceAll.alloc = p.alloc := p.serviceAll_frame.alloc_eq
  have fresh (x : Fin 16) := before.fresh_eq x
  have strap := before.strap_eq
  rw [Part.settle_alloc started zone]
  generalize p.serviceAll.freezeAll = q at source offered offer fresh strap kept
  obtain ⟨demand, held⟩ := q.evaluated_demand
  rw [demand, held]
  unfold Part.stageDemand
  rw [source]
  refine ⟨fun x e => ?_, fun e => ?_⟩
  · rw [e]
    refine ⟨?_, rfl⟩
    show q.offeredBy x = p.offeredBy x
    unfold Part.offeredBy
    rw [strap, offer, fresh]
  · rw [e]
    refine ⟨?_, rfl⟩
    show q.alloc.demand = p.alloc.demand
    rw [kept, same]

end

/-! ## The own offer (R59) -/

section
variable {p : Part}

/-- A new own offer, and what comes of it. -/
theorem Part.setOffer_taken {flag : Bool} {value : Nat} (started : p.started = true) (zone : p.cfg.zone ≠ .none)
    (new : ¬ (p.alloc.offered = flag ∧ p.alloc.offer = value)) :
    let q := p.setOffer flag value
    q.alloc.offered = flag ∧ q.alloc.offer = value ∧ q.host = p.host ∧
    (p.line.silent = false → p.line.queue.length < 8 → ∃ f ∈ q.line.queue, f.body = .status) ∧
    (∀ x, ({ p with alloc := { p.alloc with offered := flag, offer := value } } : Part).demandSource = some x →
      q.demandSource = some x ∧ q.alloc.demand = ({ p with alloc := { p.alloc with offered := flag, offer := value } } :
        Part).offeredBy x ∧ q.alloc.demandHeld = false) ∧
    (({ p with alloc := { p.alloc with offered := flag, offer := value } } : Part).demandSource = none →
      q.demandSource = none ∧ q.alloc.demand = p.alloc.demand ∧ q.alloc.demandHeld = true) := by
  unfold Part.setOffer
  rw [if_neg new]
  have entered := p.setOffer_frame flag value
  have queued := fun silent room => Part.queueFrame_queues (p := { p with alloc := { p.alloc with offered := flag, offer := value } })
    (body := .status) started silent room
  have sent := Part.queueFrame_frame .status { p with alloc := { p.alloc with offered := flag, offer := value } }
  have source := sent.demandSource_eq
  have alloc := sent.alloc_eq
  have fresh (x : Fin 16) := sent.fresh_eq x
  have strap := sent.strap_eq
  have frame := entered.andThen sent
  generalize Part.queueFrame .status { p with alloc := { p.alloc with offered := flag, offer := value } } = r at *
  obtain ⟨some_, none_⟩ := Part.settle_demand (p := r) (sent.started_eq.trans started) (by
    rw [sent.cfg_eq]; exact zone)
  have settled := r.settle_frame
  have source' := settled.demandSource_eq
  have all := frame.andThen settled
  obtain ⟨offered, offer⟩ := settled.same .offer (by simp)
  generalize r.settle = q at *
  rw [alloc] at offered offer
  refine ⟨offered, offer, all.host_eq (by simp) (by simp) (by simp) (by simp) (by simp),
    fun silent room => settled.queued (queued silent room), fun x e => ?_, fun e => ?_⟩
  · obtain ⟨demand, held⟩ := some_ x (source.trans e)
    refine ⟨source'.trans (source.trans e), demand.trans ?_, held⟩
    unfold Part.offeredBy
    rw [strap, fresh, alloc]
  · obtain ⟨demand, held⟩ := none_ (source.trans e)
    exact ⟨source'.trans (source.trans e), demand.trans (by rw [alloc]), held⟩

theorem Part.offers_own (flag : Bool) (value : Nat) (started : p.started = true) :
    ({ p with alloc := { p.alloc with offered := flag, offer := value } } : Part).offers p.strapStation = flag := by
  unfold Part.offers
  rw [if_pos rfl, started]
  rfl

theorem Part.offers_peer (flag : Bool) (value : Nat) {x : Fin 16} (peer : x ≠ p.strapStation) :
    ({ p with alloc := { p.alloc with offered := flag, offer := value } } : Part).offers x = p.offers x := by
  unfold Part.offers
  rw [if_neg peer, if_neg peer]
  rfl

theorem takes_offerDemand {h : Nat} {q : Part} (e : p.offerCommand 0x20 true h = q) : Takes (.offerDemand h) p q := takes_row rfl e

theorem takes_withdrawDemand {q : Part} (e : p.offerCommand 0x21 false p.alloc.offer = q) : Takes .withdrawDemand p q :=
  takes_row rfl e

theorem Part.offerCommand_cases (cmd : Nat) (flag : Bool) (value : Nat) :
    (p.started = false → p.offerCommand cmd flag value = p.answer cmd .wrongLifecycle []) ∧
    (p.started = true → p.cfg.zone = .none → p.offerCommand cmd flag value = p.answer cmd .wrongState []) ∧
    (p.started = true → p.cfg.zone ≠ .none → p.offerCommand cmd flag value = (p.setOffer flag value).reply cmd .done) := by
  unfold Part.offerCommand
  refine ⟨fun off => ?_, fun started zone => ?_, fun started zone => ?_⟩
  · rw [if_pos (by simp [off]), Part.reply_eq_answer]
  · rw [if_neg (by simp [started]), if_pos zone, Part.reply_eq_answer]
  · rw [if_neg (by simp [started]), if_neg zone]

end

/-- Settles O32. -/
theorem offerAndWithdrawDemand : Obligations.OfferAndWithdrawDemand := by
  unfold Obligations.OfferAndWithdrawDemand
  intro p h
  obtain ⟨off, none, zone⟩ := p.offerCommand_cases 0x20 true h
  obtain ⟨off', none', zone'⟩ := p.offerCommand_cases 0x21 false p.alloc.offer
  refine ⟨fun s => ⟨takes_offerDemand (off s), takes_withdrawDemand (off' s)⟩,
    fun s z => ⟨takes_offerDemand (none s z), takes_withdrawDemand (none' s z)⟩,
    fun s z => ⟨fun same value => ?_, fun same => ?_, fun new => ?_, fun offered => ?_⟩⟩
  · refine takes_offerDemand ((zone s z).trans ?_)
    rw [Part.setOffer, if_pos ⟨same, value⟩, Part.reply_eq_answer]
  · refine takes_withdrawDemand ((zone' s z).trans ?_)
    rw [Part.setOffer, if_pos ⟨same, rfl⟩, Part.reply_eq_answer]
  · have takes := takes_offerDemand (zone s z)
    obtain ⟨flag, value, host, queued, source, -⟩ := Part.setOffer_taken (p := p) (flag := true) (value := h) s z (by
      rintro ⟨a, b⟩
      exact new.elim (fun n => nomatch n.symm.trans a) fun n => n b)
    generalize p.setOffer true h = q at takes flag value host queued source
    refine ⟨_, takes, flag, value, (Part.reply_host ..).trans (by rw [host]), queued, fun lowest => ?_⟩
    obtain ⟨found, demand, held⟩ := source p.strapStation ((if_neg z).trans (findFinRange_eq_some.2
      ⟨Part.offers_own true h s, fun x lt => (Part.offers_peer true h (ne_of_lt lt)).trans (lowest x lt)⟩))
    exact ⟨found, demand.trans (if_pos rfl), held⟩
  · have takes := takes_withdrawDemand (zone' s z)
    obtain ⟨flag, value, host, queued, -, source⟩ := Part.setOffer_taken (p := p) (flag := false) (value := p.alloc.offer) s z
      (by rw [offered]; rintro ⟨a, -⟩; cases a)
    generalize p.setOffer false p.alloc.offer = q at takes flag value host queued source
    refine ⟨_, takes, flag, value, (Part.reply_host ..).trans (by rw [host]), queued, fun alone => ?_⟩
    refine source ((if_neg z).trans (findFinRange_eq_none.2 fun x => ?_))
    by_cases own : x = p.strapStation
    · rw [own]
      exact Part.offers_own false _ s
    · exact (Part.offers_peer false _ own).trans (alone x own)

/-! ## Calibration writes (R98, R119) -/

section
variable {p q : Part} (w : p.host.window.isSome = true)
include w

theorem takes_writeFuel_refused {k cv : Nat} (bad : 8 ≤ k ∨ ¬ cvInRange cv) :
    Takes (.writeFuel k cv) p (p.answer 0x31 .badOperand []) := by
  refine takes_row rfl ((Part.engineering_open w _ _).trans ?_)
  split
  · exact Part.reply_eq_answer ..
  · next i e =>
    have lt : k < 8 := (finOf_eq_some.1 e) ▸ i.isLt
    rw [if_neg (by rw [cvGood_iff]; exact bad.resolve_left (by omega)), Part.reply_eq_answer]

theorem takes_writeFuel (i : Fin 8) {cv : Nat} (good : cvInRange cv) : Takes (.writeFuel i.val cv) p
    ((((p.setFuel i cv).record ShiftRec.calibrated).settle).engineeringDone 0x31) := by
  refine takes_row rfl ((Part.engineering_open w _ _).trans ?_)
  rw [finOf_val]
  exact if_pos ((cvGood_iff cv).2 good)

theorem takes_writePulseWeight_out {k v : Nat} (out : 6 ≤ k) : Takes (.writePulseWeight k v) p (p.answer 0x35 .badOperand []) := by
  refine takes_row rfl ((Part.engineering_open w _ _).trans ?_)
  rw [finOf_eq_none.2 out, Part.reply_eq_answer]

theorem takes_writePulseWeight (f : Fin 6) {v : Nat} (h : (if !p.feeders[f].cfg.used then p.reply 0x35 .unusedObject
      else if v = 0 ∨ 10000 < v then p.reply 0x35 .badOperand
      else ((p.updFeeder f (Feeder.weigh p.started v)).record ShiftRec.calibrated).engineeringDone 0x35) = q) :
    Takes (.writePulseWeight f.val v) p q := by
  refine takes_row rfl ((Part.engineering_open w _ _).trans ?_)
  rw [finOf_val]
  exact h

end

/-- The maximum heats at the end of an event (R63). -/
theorem Part.settle_maxHeat {p : Part} (started : p.started = true) (zone : p.cfg.zone ≠ .none) {f : Fin 6}
    (used : p.feeders[f].cfg.used = true) : p.settle.alloc.maxHeat[f] =
      satAt 65535 (roundHalfUp (p.feeders[f].cfg.maxRate * p.cvOf f) 36000) := by
  have before := p.serviceAll_frame.andThen (Part.freezeAll_frame _)
  have feeder := before.feeder_eq f
  have fuel := before.fuel_eq
  rw [Part.settle_alloc started zone, Part.evaluated_maxHeat]
  generalize p.serviceAll.freezeAll = q at feeder fuel
  have cv : q.cvOf f = p.cvOf f := by
    show (fun (v : Vector Nat 8) (x : Feeder) => v[x.cfg.fuel]) q.fuel q.feeders[f] = _
    rw [fuel, feeder]
    rfl
  unfold Part.maxHeat
  rw [cv, feeder, if_pos used]

theorem Feeder.weigh_eq (on : Bool) (w : Nat) (x : Feeder) : x.weigh on w = { x with
    cfg := { x.cfg with weight := w },
    rate := if on = true ∧ x.measBad = false ∧ x.ring ≠ [] then
        satAt 65000 (roundHalfUp (x.ring.sum * w * 3600) (1000 * x.ring.length))
      else x.rate } := by
  have same : (on && !x.measBad && !x.ring.isEmpty) = true ↔ on = true ∧ x.measBad = false ∧ x.ring ≠ [] := by
    simp [and_assoc]
  unfold Feeder.weigh
  by_cases h : on = true ∧ x.measBad = false ∧ x.ring ≠ []
  · rw [if_pos (same.2 h), if_pos h, ringRate, if_neg (by simpa using h.2.2)]
  · rw [if_neg (mt same.1 h), if_neg h]

/-- Settles O20. -/
theorem calibrationWrites : Obligations.CalibrationWrites := by
  unfold Obligations.CalibrationWrites
  refine fun p w => ⟨fun k cv bad => takes_writeFuel_refused w bad, fun i cv good => ?_,
    fun k v out => takes_writePulseWeight_out w out, fun f v => ⟨fun unused => ?_, fun used bad => ?_, fun used low high => ?_⟩⟩
  · have takes := takes_writeFuel w i good
    have noted := (p.setFuel_frame i cv).andThen (Part.record_frame ShiftRec.calibrated (p.setFuel i cv))
    have settled := Part.settle_settles ((p.setFuel i cv).record ShiftRec.calibrated)
    have host := (noted.andThen settled.frame).renewed 0x31
    have maxHeat := fun started zone f used => Part.settle_maxHeat (p := (p.setFuel i cv).record ShiftRec.calibrated) started zone
      (f := f) used
    have fuel : ((p.setFuel i cv).record ShiftRec.calibrated).settle.fuel = p.fuel.set i cv := settled.frame.fuel_eq
    have marked (r : ShiftRec) (e : p.shift.current = some r) :
        ∃ s, ((p.setFuel i cv).record ShiftRec.calibrated).settle.shift.current = some s ∧ s.calibration = true := by
      obtain ⟨s, found, same⟩ := settled.onward.record.current (r := r.calibrated) (congrArg (Option.map ShiftRec.calibrated) e)
      exact ⟨s, found, same.calibration⟩
    generalize ((p.setFuel i cv).record ShiftRec.calibrated).settle = q at takes host maxHeat fuel marked
    refine ⟨_, takes, fuel, host, marked, fun started zone f used named => (maxHeat started zone f used).trans ?_⟩
    have cv' : ((p.setFuel i cv).record ShiftRec.calibrated).cvOf f = cv := by
      show (p.fuel.set i cv)[p.feeders[f].cfg.fuel] = cv
      subst named
      exact set_self ..
    rw [cv']
    rfl
  · exact takes_writePulseWeight w f (by rw [unused, if_pos (by decide), Part.reply_eq_answer])
  · exact takes_writePulseWeight w f (by rw [used, if_neg (by decide), if_pos bad, Part.reply_eq_answer])
  · refine takes_writePulseWeight w f ?_
    rw [used, if_neg (by decide), if_neg (by omega), Part.engineeringDone_eq, Part.updFeeder]
    simp only [Feeder.weigh_eq]
    rfl

end Sys2Proof.Machine
end

section
/-! OBLIGATION O23. Characters and frames as they are sent, received and read. -/

namespace Sys2Proof.Machine

-- One proof at a time: the whole package as one text must not start a thread for each of them.
set_option Elab.async false

open Sys2Proof.Config

/-! ## Characters (R1) -/

/-- The number of marking bits among the data bits and the parity bit. -/
def marks (c : Character) : Nat := ((List.range 9).filter fun i => c.getLsbD (1 + i)).length

theorem framingError_iff (c : Character) : framingError c = true ↔ c.getLsbD 10 = false := by
  simp [framingError]

theorem parityError_iff (c : Character) : parityError c = true ↔ marks c % 2 = 0 := by
  have bits : ((bitsOf c).drop 1).take 9 = (List.range 9).map fun i => c.getLsbD (1 + i) := rfl
  have count : ((List.range 9).map fun i => c.getLsbD (1 + i)).count true = marks c := by
    rw [List.count, List.countP_map, List.countP_eq_length_filter, marks]
    simp [Function.comp_def]
  rw [parityError, bits, oddOnes, count]
  simp

theorem charData_getLsbD (c : Character) {i : Nat} (h : i < 8) : (charData c).getLsbD i = c.getLsbD (1 + i) := by
  simp [charData, h]

/-- A character is the one sent for b when its start bit is spacing, its stop bit marking, its parity odd and its data bits are
those of b. -/
theorem eq_charOf_iff (c : Character) (b : Byte) : c = charOf b ↔
    c.getLsbD 0 = false ∧ c.getLsbD 10 = true ∧ marks c % 2 = 1 ∧ ∀ i < 8, c.getLsbD (1 + i) = b.getLsbD i := by
  constructor
  · rintro rfl
    obtain ⟨start, framing, parity, data⟩ := charOf_sound b
    refine ⟨start, ?_, ?_, fun i lt => ?_⟩
    · by_contra h
      exact absurd ((framingError_iff _).2 (by simpa using h)) (by rw [framing]; decide)
    · by_contra h
      have even : marks (charOf b) % 2 = 0 := by omega
      exact absurd ((parityError_iff _).2 even) (by rw [parity]; decide)
    · rw [← charData_getLsbD _ lt, data]
  · rintro ⟨start, stop, odd, data⟩
    have framing : framingError c = false := by rw [Bool.eq_false_iff, ne_eq, framingError_iff, stop]; decide
    have parity : parityError c = false := by rw [Bool.eq_false_iff, ne_eq, parityError_iff]; omega
    have same : charData c = b := BitVec.eq_of_getLsbD_eq fun i lt => (charData_getLsbD c lt).trans (data i lt)
    rw [charOf_charData c start framing parity, same]

/-! ## Characters back to back -/

/-- Blocks of k elements each, one after another. -/
theorem flatMap_getElem? {α β : Type} {f : α → List β} {k : Nat} (len : ∀ a, (f a).length = k) (l : List α) :
    (l.flatMap f).length = k * l.length ∧
    ∀ (n i : Nat) (a : α), i < k → l[n]? = some a → (l.flatMap f)[k * n + i]? = (f a)[i]? := by
  induction l with
  | nil => simp
  | cons b l ih =>
    obtain ⟨length, found⟩ := ih
    refine ⟨by rw [List.flatMap_cons, List.length_append, len, length, List.length_cons]; ring, ?_⟩
    rintro (_ | n) i a lt at_
    · obtain rfl : b = a := by simpa using at_
      rw [List.flatMap_cons, Nat.mul_zero, Nat.zero_add, List.getElem?_append_left (by rw [len]; exact lt)]
    · rw [List.flatMap_cons, List.getElem?_append_right (by rw [len, Nat.mul_succ]; omega), len,
        show k * (n + 1) + i - k = k * n + i by rw [Nat.mul_succ]; omega]
      exact found n i a lt (by simpa using at_)

theorem bitsOf_getElem? {n : Nat} (w : BitVec n) {i : Nat} (h : i < n) : (bitsOf w)[i]? = some (w.getLsbD i) := by
  simp [bitsOf, h]

/-! ## The CRC of a frame with its CHECK (R198) -/

theorem crcBit_of_lt {r : BitVec 16} (h : r.toNat < 2 ^ 15) : (crcBit r).toNat = 2 * r.toNat := by
  have clear : r.msb = false := by simpa [BitVec.msb_eq_decide] using h
  rw [crcBit, clear, if_neg Bool.false_ne_true, BitVec.toNat_shiftLeft, Nat.shiftLeft_eq]
  omega

/-- A register whose high byte is 0 moves its low byte up. -/
theorem crcBits_of_lt {r : BitVec 16} (h : r.toNat < 256) :
    crcBit (crcBit (crcBit (crcBit (crcBit (crcBit (crcBit (crcBit r))))))) = r <<< 8 := by
  have h₁ := crcBit_of_lt (r := r) (by omega)
  have h₂ := crcBit_of_lt (r := crcBit r) (by omega)
  have h₃ := crcBit_of_lt (r := crcBit (crcBit r)) (by omega)
  have h₄ := crcBit_of_lt (r := crcBit (crcBit (crcBit r))) (by omega)
  have h₅ := crcBit_of_lt (r := crcBit (crcBit (crcBit (crcBit r)))) (by omega)
  have h₆ := crcBit_of_lt (r := crcBit (crcBit (crcBit (crcBit (crcBit r))))) (by omega)
  have h₇ := crcBit_of_lt (r := crcBit (crcBit (crcBit (crcBit (crcBit (crcBit r)))))) (by omega)
  have h₈ := crcBit_of_lt (r := crcBit (crcBit (crcBit (crcBit (crcBit (crcBit (crcBit r))))))) (by omega)
  refine BitVec.eq_of_toNat_eq ?_
  rw [BitVec.toNat_shiftLeft, Nat.shiftLeft_eq]
  omega

theorem crcByte_high (r : BitVec 16) : crcByte r (byteOf (r.toNat / 256)) = r <<< 8 := by
  have low : r ^^^ ((byteOf (r.toNat / 256)).zeroExtend 16 <<< 8) = BitVec.ofNat 16 (r.toNat % 256) := by
    refine BitVec.eq_of_getLsbD_eq fun i lt => ?_
    have top : (byteOf (r.toNat / 256)).getLsbD (i - 8) = (decide (i - 8 < 8) && r.getLsbD (i - 8 + 8)) := by
      rw [byteOf, BitVec.getLsbD_ofNat, show (256 : Nat) = 2 ^ 8 from rfl, Nat.testBit_div_two_pow, BitVec.getLsbD]
    have bottom : (BitVec.ofNat 16 (r.toNat % 256)).getLsbD i = (decide (i < 8) && r.getLsbD i) := by
      rw [BitVec.getLsbD_ofNat, show (256 : Nat) = 2 ^ 8 from rfl, Nat.testBit_mod_two_pow, BitVec.getLsbD]
      simp [lt]
    by_cases h : i < 8
    · simp [bottom, h]
    · have back : i - 8 + 8 = i := by omega
      rw [BitVec.getLsbD_xor, BitVec.getLsbD_shiftLeft, BitVec.zeroExtend, BitVec.getLsbD_setWidth, top, back, bottom]
      simp [h, lt, show i - 8 < 8 by omega, show i - 8 < 16 by omega, -BitVec.getLsbD_eq_getElem]
  rw [crcByte, low, crcBits_of_lt (by rw [BitVec.toNat_ofNat]; omega)]
  refine BitVec.eq_of_toNat_eq ?_
  simp only [BitVec.toNat_shiftLeft, BitVec.toNat_ofNat, Nat.shiftLeft_eq]
  omega

theorem crcByte_low (r : BitVec 16) : crcByte (r <<< 8) (byteOf r.toNat) = 0 := by
  have none : (r <<< 8) ^^^ ((byteOf r.toNat).zeroExtend 16 <<< 8) = 0 := by
    refine BitVec.xor_eq_zero_iff.2 ?_
    refine BitVec.eq_of_toNat_eq ?_
    simp only [byteOf, BitVec.toNat_shiftLeft, BitVec.toNat_setWidth, BitVec.toNat_ofNat, Nat.shiftLeft_eq]
    omega
  rw [crcByte, none]
  decide

theorem crc_withCrc (l : List Byte) : crc (withCrc l) = 0 := by
  have two : crc (withCrc l) = crcByte (crcByte (crc l) (byteOf ((crc l).toNat / 256))) (byteOf (crc l).toNat) := by
    rw [withCrc, be16, crc, List.foldl_append]
    rfl
  rw [two, crcByte_high, crcByte_low]

/-! ## The characters of an attempt (R4) -/

theorem Part.payload_kindLength (p : Part) (body : FrameBody) :
    kindLength body.kind = some (p.payload body).length ∧ (p.payload body).length ≤ 25 := by
  have known : kindLength body.kind = some (p.payload body).length := by cases body <;> rfl
  refine ⟨known, ?_⟩
  cases body <;> simp [Part.payload, Part.statusPayload, be16]

/-- The two bytes behind a list are its word there. -/
theorem wordAt_append_be16 (l : List Byte) {n : Nat} (lt : n < 65536) : wordAt (l ++ be16 n) l.length = n := by
  have first : (l ++ be16 n).getD l.length 0 = byteOf (n / 256) := by simp [be16]
  have second : (l ++ be16 n).getD (l.length + 1) 0 = byteOf n := by
    rw [List.getD_append_right _ _ _ _ (by omega)]
    simp [be16]
  rw [wordAt, byteAt, byteAt, first, second, Laws.Spelled.word_back n lt]

theorem checkGood_withCrc (l : List Byte) : checkGood (withCrc l) = true := by
  have length : (withCrc l).length - 2 = l.length := by simp [withCrc, be16]
  rw [checkGood, length, withCrc, List.take_left, wordAt_append_be16 _ (crc l).isLt, BitVec.ofNat_toNat, BitVec.setWidth_eq]
  exact beq_self_eq_true _

theorem Part.frameBytes_read (p : Part) (body : FrameBody) (seq : Byte) {l : List Byte} (e : l = p.frameBytes body seq) :
    l.length = 6 + (p.payload body).length ∧ frameSize l = l.length ∧ headerGood l = true ∧ checkGood l = true ∧
    byteAt l 0 = p.strapStation.val + 1 ∧ stationIndex (byteAt l 0) = some p.strapStation ∧ l.getD 1 0 = body.kind ∧
    l.getD 3 0 = seq ∧ (l.drop 4).take (byteAt l 2) = p.payload body ∧ crc l = 0 := by
  obtain ⟨known, short⟩ := p.payload_kindLength body
  have cells : l = byteOf p.own :: body.kind :: byteOf (p.payload body).length :: seq ::
      (p.payload body ++ be16 (crc ([byteOf p.own, body.kind, byteOf (p.payload body).length, seq] ++ p.payload body)).toNat) := e
  have own : byteAt l 0 = p.strapStation.val + 1 := by
    rw [cells]
    exact Laws.Spelled.byte_back _ (by unfold Part.own; omega)
  have announced : byteAt l 2 = (p.payload body).length := by
    rw [cells]
    exact Laws.Spelled.byte_back _ (by omega)
  have kind : l.getD 1 0 = body.kind := by rw [cells]; rfl
  have length : l.length = 6 + (p.payload body).length := by
    rw [cells]
    simp only [be16, List.length_cons, List.length_append, List.length_nil]
    omega
  refine ⟨length, by rw [frameSize, announced, length], ?_, e ▸ checkGood_withCrc _, own, own ▸ stationIndex_succ _, kind,
    by rw [cells]; rfl, ?_, e ▸ crc_withCrc _⟩
  · rw [headerGood, own, kind, announced, known]
    simp
  · rw [announced, cells]
    exact List.take_left

/-! ## The contents of a STATUS (12.3) -/

theorem word_back_mod (n : Nat) : (byteOf (n / 256)).toNat * 256 + (byteOf n).toNat = n % 65536 := by
  simp only [byteOf, BitVec.toNat_ofNat]
  omega

theorem flags_read : ∀ a b c d e : Bool,
    (flagByte [a, b, c, d, e]).toNat.testBit 0 = a ∧ (flagByte [a, b, c, d, e]).toNat.testBit 1 = b := by decide

theorem resource_flags_read (f : Fin 3 → Bool) (k : Fin 3) :
    (flagByte (resourceIds.map f)).toNat.testBit k.val = f k := by
  have all : ∀ a b c : Bool, (flagByte [a, b, c]).toNat.testBit 0 = a ∧ (flagByte [a, b, c]).toNat.testBit 1 = b ∧
      (flagByte [a, b, c]).toNat.testBit 2 = c := by decide
  obtain ⟨zero, one, two⟩ := all (f 0) (f 1) (f 2)
  match k with
  | 0 => exact zero
  | 1 => exact one
  | 2 => exact two

theorem Part.statusPayload_read (p : Part) {c : List Byte} (e : c = p.payload .status) :
    c.length = 25 ∧ statusTakeable c = true ∧ statZone c = some p.cfg.zone ∧ statMode c = some p.mode ∧
    statOffered c = p.alloc.offered ∧ statLineTrip c = p.lineTripPoint.isSome ∧
    (∀ k : Fin 3, (statHeld c k = true ↔ p.claims[k].state = .held) ∧
      (statClaiming c k = true ↔ p.claims[k].state = .claiming)) ∧
    statShift c = p.shift.number % 65536 ∧ statDelivered c = p.alloc.delivered % 65536 ∧
    statCapacity c = p.alloc.capacity % 65536 ∧ statOffer c = p.alloc.offer % 65536 ∧
    statSecondary c = p.air.secondary % 65536 ∧ statTertiary c = p.air.tertiary % 65536 ∧
    statFansSec c = p.air.fansSec % 256 ∧ statFansTer c = p.air.fansTer % 256 ∧
    (∀ i, p.lineTripPoint = some i → statTripPoint c = i.val) := by
  subst e
  have zone : statZone p.statusPayload = some p.cfg.zone := by
    rw [statZone, show byteAt p.statusPayload 0 = (byteOf p.cfg.zone.code).toNat from rfl]
    cases p.cfg.zone <;> rfl
  have mode : statMode p.statusPayload = some p.mode := by
    rw [statMode, show byteAt p.statusPayload 1 = (byteOf p.mode.code).toNat from rfl]
    cases p.mode <;> rfl
  have takeable : statusTakeable p.statusPayload = true := by rw [statusTakeable, zone, mode]; rfl
  have flags := flags_read p.alloc.offered p.lineTripPoint.isSome p.alloc.shortfall p.alloc.airLimited
    (p.alloc.ceilState == .fallback)
  refine ⟨rfl, takeable, zone, mode, flags.1, flags.2, fun k => ⟨?_, ?_⟩, word_back_mod _, word_back_mod _, word_back_mod _,
    word_back_mod _, word_back_mod _, word_back_mod _, rfl, rfl, fun i line => ?_⟩
  · rw [show statHeld (p.payload .status) k = _ from resource_flags_read (fun k => p.claims[k].state == .held) k, beq_iff_eq]
  · rw [show statClaiming (p.payload .status) k = _ from resource_flags_read (fun k => p.claims[k].state == .claiming) k,
      beq_iff_eq]
  · show (byteOf (match p.lineTripPoint with | some i => i.val | none => 0)).toNat = i.val
    rw [line]
    exact Laws.Spelled.byte_back i.val (by omega)

/-! ## The obligation -/

/-- Settles O23, by `eq_charOf_iff` for characters, `Part.frameBytes_read` for frames and `Part.statusPayload_read` for the
contents of a STATUS. -/
theorem framesSentAreReadAsSent : Obligations.FramesSentAreReadAsSent := by
  unfold Obligations.FramesSentAreReadAsSent
  refine ⟨fun b => ?_, fun c => ⟨fun i lt => charData_getLsbD c lt, framingError_iff c, parityError_iff c⟩,
    fun p => ⟨fun sending => ?_, fun breaking => ?_, ?_⟩, fun p body seq l => p.frameBytes_read body seq,
    fun p c => p.statusPayload_read⟩
  · obtain ⟨start, stop, odd, data⟩ := (eq_charOf_iff _ b).1 rfl
    obtain ⟨-, framing, parity, same⟩ := charOf_sound b
    exact ⟨start, data, stop, odd, framing, parity, same⟩
  · have bits : p.sentBits = p.line.wire.flatMap fun b => bitsOf (charOf b) := by rw [Part.sentBits, sending]
    obtain ⟨length, found⟩ := flatMap_getElem? (f := fun b : Byte => bitsOf (charOf b)) (k := 11)
      (fun b => by simp [bitsOf]) p.line.wire
    rw [bits]
    exact ⟨length, fun n i b lt at_ => (found n i b lt at_).trans (bitsOf_getElem? _ lt)⟩
  · rw [Part.sentBits, breaking]
  · simp [Part.driverEnable, Part.loopback]

end Sys2Proof.Machine
end

section
/-! OBLIGATION O24. The end of an attempt: sent whole, broken off, and its break ended. -/

namespace Sys2Proof.Machine

-- One proof at a time: the whole package as one text must not start a thread for each of them.
set_option Elab.async false

open Sys2Proof.Config

/-! ## Characters read back -/

/-- Character n of an attempt is read back as it was sent for byte b. -/
def readAsSent (back : List ReadBack) (n : Nat) (b : Byte) : Prop := back[n]? = some (.heard (charOf b) (11 * n + 10))

/-- R10 says by its bits which character is read back good: the one that was sent. -/
theorem readAsSent_iff (back : List ReadBack) (n : Nat) (b : Byte) : readAsSent back n b ↔
    ∃ c : Character, back[n]? = some (.heard c (11 * n + 10)) ∧ c.getLsbD 0 = false ∧ c.getLsbD 10 = true ∧
      ((List.range 9).filter fun i => c.getLsbD (1 + i)).length % 2 = 1 ∧ ∀ i < 8, c.getLsbD (1 + i) = b.getLsbD i := by
  constructor
  · exact fun h => ⟨charOf b, h, (eq_charOf_iff _ b).1 rfl⟩
  · rintro ⟨c, heard, form⟩
    rw [readAsSent, heard, (eq_charOf_iff c b).2 form]

theorem Line.output_getElem? {l : Line} {n : Nat} {b : Byte} (sent : l.wire[n]? = some b) :
    readAsSent l.output n b := by
  simp [readAsSent, Line.output, sent]

theorem Line.readsBack_iff_each (back : List ReadBack) (l : Line) : l.readsBack back = true ↔
    back.length = l.wire.length ∧ ∀ n b, l.wire[n]? = some b → readAsSent back n b := by
  rw [Line.readsBack_iff]
  constructor
  · rintro rfl
    exact ⟨List.length_mapIdx, fun n b => Line.output_getElem?⟩
  · rintro ⟨length, each⟩
    refine List.ext_getElem? fun n => ?_
    rcases h : l.wire[n]? with _ | b
    · have past : l.wire.length ≤ n := by simpa using h
      rw [List.getElem?_eq_none (length ▸ past), List.getElem?_eq_none (by rw [Line.output, List.length_mapIdx]; exact past)]
    · exact (each n b h).trans (Line.output_getElem? h).symm

theorem readGood_of_heard {back : List ReadBack} {n : Nat} {b : Byte} {r : ReadBack} (heard : back[n]? = some r) :
    readGood n b r = true ↔ readAsSent back n b := by
  rw [readGood_iff, readAsSent, heard, Option.some.injEq]

/-- The first character that is not read back good is the mismatch. -/
theorem Line.mismatch_eq_some {back : List ReadBack} {l : Line} {n : Nat} {b : Byte} (sent : l.wire[n]? = some b)
    (heard : n < back.length) (bad : ¬ readAsSent back n b) (before : ∀ m < n, ∀ c, l.wire[m]? = some c → readAsSent back m c) :
    l.mismatch back = some n := by
  have here := List.getElem?_eq_getElem heard
  rcases found : l.mismatch back with _ | m
  · have good := (mismatchFrom_eq_none 0 _ _).1 found n b _ sent here
    rw [Nat.zero_add] at good
    exact absurd ((readGood_of_heard here).1 good) bad
  · obtain ⟨i, c, r, e, at_, at', wrong, right⟩ := mismatchFrom_eq_some 0 m _ _ found
    obtain rfl : m = i := by omega
    rcases Nat.lt_trichotomy m n with lt | rfl | gt
    · exact absurd ((readGood_of_heard at').2 (before m lt c at_)) (by rw [wrong]; decide)
    · rfl
    · have good := right n gt b _ sent here
      rw [Nat.zero_add] at good
      exact absurd ((readGood_of_heard here).1 good) bad

theorem Line.mismatch_eq_none {back : List ReadBack} {l : Line}
    (good : ∀ n b, n < back.length → l.wire[n]? = some b → readAsSent back n b) : l.mismatch back = none := by
  refine (mismatchFrom_eq_none 0 _ _).2 fun i b r sent heard => ?_
  rw [Nat.zero_add, readGood_of_heard heard]
  exact good i b (List.getElem?_eq_some_iff.1 heard).1 sent

/-! ## The three rows -/

theorem takes_frameSentWhole {p : Part} {back : List ReadBack} {h : TxFrame} {t : List TxFrame}
    (sending : p.line.phase = .sending) (queue : p.line.queue = h :: t) (whole : p.line.readsBack (p.takesBack back) = true) :
    Takes (.frameSentWhole back) p (p.sentWhole h).settleAll :=
  takes_row rfl (by dsimp only; rw [sending, queue]; exact if_pos whole)

theorem takes_frameSentWhole_idle {p : Part} {back : List ReadBack}
    (h : p.line.phase ≠ .sending ∨ p.line.queue = [] ∨ p.line.readsBack (p.takesBack back) = false) :
    Takes (.frameSentWhole back) p p := by
  refine takes_row rfl ?_
  dsimp only
  rcases phase : p.line.phase with _ | _ | _
  · rfl
  · rcases queue : p.line.queue with _ | ⟨f, t⟩
    · rfl
    · have notWhole : ¬ p.line.readsBack (p.takesBack back) = true := by simpa [phase, queue] using h
      exact if_neg notWhole
  · rfl

theorem takes_readBackMismatch {p : Part} {back : List ReadBack} {n : Nat} (sending : p.line.phase = .sending)
    (found : p.line.mismatch (p.takesBack back) = some n) : Takes (.readBackMismatch back) p
      { p with line := { p.line with phase := .breaking, wire := p.line.wire.take (n + 1) } } :=
  takes_row rfl (by dsimp only; rw [sending, found]; rfl)

theorem takes_readBackMismatch_idle {p : Part} {back : List ReadBack}
    (h : p.line.phase ≠ .sending ∨ p.line.mismatch (p.takesBack back) = none) : Takes (.readBackMismatch back) p p := by
  refine takes_row rfl ?_
  dsimp only
  rcases phase : p.line.phase with _ | _ | _
  · rfl
  · have none : p.line.mismatch (p.takesBack back) = none := by simpa [phase] using h
    rw [none]
  · rfl

theorem takes_breakEnded {p : Part} {h : TxFrame} {t : List TxFrame} (breaking : p.line.phase = .breaking)
    (queue : p.line.queue = h :: t) : Takes .breakEnded p ((p.endBreak).failAttempt h t).settleAll :=
  takes_row rfl (by dsimp only; rw [breaking, queue])

/-! ## The obligation -/

theorem Part.sentWhole_eq {p : Part} {h : TxFrame} {t : List TxFrame} (queue : p.line.queue = h :: t) :
    p.sentWhole h = { p with
      line := { p.line with
        queue := t, phase := .idle, lastTry := false, txFail := false, lastSent := some (p.now, h.seq.getD 0),
        counts := { p.line.counts with sent := p.line.counts.sent + 1 } },
      claims := Vector.ofFn fun k =>
        if p.claims[k].state = .claiming ∧ p.claims[k].note = some h.tag then
          { p.claims[k] with settle := some (later p.now p.cfg.period), note := none }
        else p.claims[k] } := by
  rw [Part.sentWhole, Part.claimNotice_eq]
  simp only [Part.updLine, queue, List.tail_cons, if_true]

theorem sentWhole_part (p : Part) (back : List ReadBack) :
    let good := fun (n : Nat) (b : Byte) => readAsSent back n b
    let whole := p.strapRate = 3 ∨ back.length = p.line.wire.length ∧ ∀ n b, p.line.wire[n]? = some b → good n b
    (∀ h t, p.line.phase = .sending → p.line.queue = h :: t → whole →
      Takes (.frameSentWhole back) p (p.sentWhole h).settleAll) ∧
    (p.line.phase ≠ .sending ∨ p.line.queue = [] ∨ ¬ whole → Takes (.frameSentWhole back) p p) ∧
    (∀ n b, p.strapRate ≠ 3 → p.line.phase = .sending → p.line.wire[n]? = some b → n < back.length → ¬ good n b →
      (∀ m < n, ∀ c, p.line.wire[m]? = some c → good m c) →
      Takes (.readBackMismatch back) p
        { p with line := { p.line with phase := .breaking, wire := p.line.wire.take (n + 1) } }) ∧
    (p.line.phase ≠ .sending ∨ p.strapRate = 3 ∨ (∀ n b, n < back.length → p.line.wire[n]? = some b → good n b) →
      Takes (.readBackMismatch back) p p) := by
  intro good whole
  have loopback : p.loopback = true ↔ p.strapRate = 3 := by simp [Part.loopback]
  have whole_iff : whole ↔ p.line.readsBack (p.takesBack back) = true := by
    rw [Part.readsBack_takesBack, Bool.or_eq_true, Line.readsBack_iff_each, loopback]
  refine ⟨fun h t sending queue w => takes_frameSentWhole sending queue (whole_iff.1 w), fun h => ?_,
    fun n b apart sending sent heard bad before => ?_, fun h => ?_⟩
  · rw [whole_iff, Bool.not_eq_true] at h
    exact takes_frameSentWhole_idle h
  · refine takes_readBackMismatch sending ?_
    rw [Part.mismatch_takesBack, if_neg (by rwa [loopback])]
    exact Line.mismatch_eq_some sent heard bad before
  · refine takes_readBackMismatch_idle ?_
    rw [Part.mismatch_takesBack]
    rcases h with apart | loop | all
    · exact .inl apart
    · exact .inr (if_pos (loopback.2 loop))
    · exact .inr (by rw [Line.mismatch_eq_none all, ite_self])

theorem breakEnded_part (p : Part) :
    let ended := { p.line with phase := .idle, receiver := .deaf }
    (∀ h t, p.line.phase = .breaking → p.line.queue = h :: t →
      (p.line.lastTry = true → Takes .breakEnded p (Part.settleAll
        { p with line := { ended with queue := t, lastTry := false } })) ∧
      (p.line.lastTry = false → h.attempts < 7 → Takes .breakEnded p (Part.settleAll { p with
        line := { ended with
          queue := orderQueue ({ h with attempts := h.attempts + 1 } :: t),
          counts := { p.line.counts with retries := p.line.counts.retries + 1 } },
        shift := { p.shift with current := p.shift.current.map fun r => { r with retries := r.retries + 1 } } })) ∧
      (p.line.lastTry = false → 7 ≤ h.attempts → Takes .breakEnded p (Part.settleAll { p with
        line := { ended with
          queue := t, txFail := true, counts := { p.line.counts with failures := p.line.counts.failures + 1 } },
        shift := { p.shift with current := p.shift.current.map fun r => { r with failures := r.failures + 1 } },
        claims := Vector.ofFn fun k =>
          if p.claims[k].state = .claiming ∧ p.claims[k].note = some h.tag then
            { p.claims[k] with state := .waiting, settle := none, note := none }
          else p.claims[k] }))) ∧
    (p.line.phase = .breaking → p.line.queue = [] → Takes .breakEnded p { p with line := ended }) ∧
    (p.line.phase ≠ .breaking → Takes .breakEnded p p) := by
  refine ⟨fun h t breaking queue => ?_, fun breaking queue => takes_row rfl ?_, fun apart => ?_⟩
  · have row := takes_breakEnded breaking queue
    have cases_ := Part.failAttempt_cases h t p.endBreak
    rw [Part.endBreak_lastTry] at cases_
    refine ⟨fun last => ?_, fun more few => ?_, fun more many => ?_⟩
    · obtain ⟨-, e⟩ | ⟨no, -⟩ | ⟨no, -⟩ := cases_
      · rw [e] at row
        exact row
      · exact absurd (last.symm.trans no) (by decide)
      · exact absurd (last.symm.trans no) (by decide)
    · obtain ⟨no, -⟩ | ⟨-, -, e⟩ | ⟨-, no, -⟩ := cases_
      · exact absurd (no.symm.trans more) (by decide)
      · rw [e] at row
        exact row
      · omega
    · obtain ⟨no, -⟩ | ⟨-, no, -⟩ | ⟨-, -, e⟩ := cases_
      · exact absurd (no.symm.trans more) (by decide)
      · omega
      · rw [e, Part.claimNotice_eq] at row
        exact row
  · dsimp only
    rw [breaking, queue]
    show p.endBreak = _
    rw [Part.endBreak, Part.updLine, queue]
  · refine takes_row rfl ?_
    dsimp only
    rcases phase : p.line.phase with _ | _ | _
    · rfl
    · rfl
    · exact absurd phase apart

/-- Settles O24: what is read back good is what was sent (`readAsSent_iff`), and the ends of an attempt are those of
`Part.failAttempt_cases`. -/
theorem attemptEnds : Obligations.AttemptEnds := by
  unfold Obligations.AttemptEnds
  refine ⟨fun p back => ?_, breakEnded_part⟩
  have parts := sentWhole_part p back
  simp only [readAsSent_iff] at parts
  obtain ⟨sent, parts⟩ := parts
  refine ⟨fun h t sending queue whole => ?_, parts⟩
  rw [← Part.sentWhole_eq queue]
  exact sent h t sending queue whole

end Sys2Proof.Machine
end

section
/-! OBLIGATIONS O25, O29. The line's own timers, line stuck, and the aging of a peer. -/

namespace Sys2Proof.Machine

-- One proof at a time: the whole package as one text must not start a thread for each of them.
set_option Elab.async false

open Sys2Proof.Config

/-! ## Points 0 to 6 (12.2): armed in every mode, and found again at the end of every event -/

theorem station_armed : ∀ i : Fin 62, i.val < 7 → ((Part.powerUp 0 0 false).pointAttr i).mask = 15 := by decide

theorem Part.effective_of_lt_seven {i : Fin 62} (h : i.val < 7) (p : Part) :
    p.effective i = (p.started && p.condition i) := by
  unfold Part.effective Part.pointArmed
  rw [p.internal_attr (.powerUp 0 0 false) i (by omega), station_armed i h]
  cases p.mode <;> exact Bool.and_true _

theorem Part.condition_one (p : Part) : p.condition 1 = p.line.dupDeadline.isSome := rfl
theorem Part.condition_four (p : Part) : p.condition 4 = p.line.stuck := rfl
theorem Part.condition_five (p : Part) : p.condition 5 = p.anyPeerLost := rfl

/-- Where the end of the event does not move the condition, the point follows it. -/
theorem Part.settleAll_follows {p : Part} {i : Fin 62} (h : i.val < 7) (same : ∀ q, Settles p q → q.condition i = p.condition i) :
    p.settleAll.alarms.points[i].eff = (p.started && p.condition i) := by
  have mem : i ∈ promptPoints := by simp [promptPoints, pointIds]; omega
  rw [Part.settleAll_eff mem fun q settles => settles.effective (same q settles), p.effective_of_lt_seven h]

/-! ## A frame queued (R8) -/

theorem Part.queueFrame_full {p : Part} {body : FrameBody} (started : p.started = true) (heard : p.line.silent = false)
    (fresh : (body == .status && p.line.statusWaiting) = false) (full : 8 ≤ p.line.queue.length) :
    p.queueFrame body = p.transmitFailure := by
  unfold Part.queueFrame
  rw [started, heard, fresh, if_neg (by decide), if_neg (by decide), if_neg (show ¬ p.line.queue.length < queueSize from by
    unfold queueSize; omega)]

theorem Part.queueFrame_place {p : Part} {body : FrameBody} (started : p.started = true) (heard : p.line.silent = false)
    (fresh : (body == .status && p.line.statusWaiting) = false) (room : p.line.queue.length < 8) :
    p.queueFrame body = p.place body := by
  unfold Part.queueFrame
  rw [started, heard, fresh, if_neg (by decide), if_neg (by decide), if_pos (show p.line.queue.length < queueSize from room)]

theorem Part.queueFrame_status_idle {p : Part}
    (h : p.started = false ∨ p.line.silent = true ∨ p.line.statusWaiting = true) : p.queueFrame .status = p := by
  unfold Part.queueFrame
  rcases h with off | silent | waiting
  · exact if_pos (by rw [off]; rfl)
  · exact if_pos (by rw [silent, Bool.or_true])
  · rw [waiting, show (FrameBody.status == FrameBody.status && true) = true from rfl, if_pos rfl, ite_self]

theorem Part.place_holds (body : FrameBody) (p : Part) :
    p.line.queue ⊆ (p.place body).line.queue ∧ ⟨body, 0, none, p.line.nextTag⟩ ∈ (p.place body).line.queue :=
  ⟨fun f mem => (p.place_queue body).mem_iff.2 (by simp [mem]), (p.place_queue body).mem_iff.2 (by simp)⟩

/-- Nothing that `settle` does touches the queue or the transmit-fail condition. -/
theorem Part.settle_sends (p : Part) : p.settle.line.queue = p.line.queue ∧ p.settle.line.txFail = p.line.txFail ∧
    p.settle.line.counts.failures = p.line.counts.failures ∧ p.settle.line.statusDue = p.line.statusDue :=
  ⟨(p.settle_frame.same .queue (by simp [settleBlocks])).1, (p.settle_frame.same .txFail (by simp [settleBlocks])).1,
    (p.settle_frame.same .txFail (by simp [settleBlocks])).2, p.settle_frame.same .statusTimer (by simp [settleBlocks])⟩

/-! ## The obligations -/

/-- The STATUS timer begins again (R20). -/
def Part.againAt (d : Option Time) (p : Part) : Part := p.updLine fun l => { l with statusDue := d }

theorem Part.queueFrame_statusDue (body : FrameBody) (p : Part) : (p.queueFrame body).line.statusDue = p.line.statusDue :=
  (p.queueFrame_frame body).same .statusTimer (by simp [sendBlocks])

/-- Settles O25: `Part.settle` leaves the queue alone, and points 1 and 4 follow their conditions
(`Part.settleAll_follows`). -/
theorem lineTimersAndStuckLine : Obligations.LineTimersAndStuckLine := by
  unfold Obligations.LineTimersAndStuckLine
  refine fun p => ⟨fun none => takes_row rfl (by dsimp only; rw [none]; rfl), fun t due => ?_,
    fun none => takes_row rfl (by dsimp only; rw [none]; rfl), fun t due => ?_,
    fun loop => ⟨takes_row rfl (if_pos ?_), takes_row rfl (if_pos ?_)⟩, fun apart => ⟨?_, ?_⟩⟩
  · obtain ⟨queue, txFail, failures, timer⟩ := Part.settle_sends ((p.againAt (some (later t p.cfg.period))).queueFrame .status)
    have now := ((p.againAt (some (later t p.cfg.period))).queueFrame_frame .status).andThen (Part.settle_frame _) |>.now_eq
    have again : (p.againAt (some (later t p.cfg.period))) =
        p.updLine fun l => { l with statusDue := l.statusDue.map (later · p.cfg.period) } := by
      rw [Part.againAt, Part.updLine, Part.updLine, due]
      rfl
    have facts : ((p.againAt (some (later t p.cfg.period))).queueFrame .status).settle.now = p.now := now
    refine takesAt_row (f := fun p =>
        ((p.updLine fun l => { l with statusDue := l.statusDue.map (later · p.cfg.period) }).queueFrame .status).settle)
      rfl (by rw [← due]) fun _ => ?_
    rw [← again]
    refine ⟨facts, ?_⟩
    rw [queue, txFail, failures, timer, Part.queueFrame_statusDue]
    refine ⟨rfl, fun started heard fresh => ⟨fun room => ?_, fun full => ?_⟩, fun idle => ?_⟩
    · have placed := Part.queueFrame_place (p := p.againAt (some (later t p.cfg.period))) (body := .status) started heard fresh room
      obtain ⟨kept, mem⟩ := (p.againAt (some (later t p.cfg.period))).place_holds .status
      rw [placed]
      exact ⟨(Part.place_queue _ _).length_eq.trans List.length_append, kept, mem⟩
    · have failed := Part.queueFrame_full (p := p.againAt (some (later t p.cfg.period))) (body := .status) started heard fresh full
      rw [failed]
      exact ⟨rfl, rfl, rfl⟩
    · have same := Part.queueFrame_status_idle (p := p.againAt (some (later t p.cfg.period))) idle
      rw [same]
      rfl
  · have frame := Part.settleAll_frame (p.updLine fun l => { l with dupDeadline := none })
    have deadline := frame.same .duplicate (by simp [settleAllBlocks])
    have point := Part.settleAll_follows (p := p.updLine fun l => { l with dupDeadline := none }) (i := 1) (by decide)
      fun q settles => congrArg Option.isSome (settles.frame.same .duplicate (by simp [settleAllBlocks]))
    rw [Part.condition_one, Part.updLine_line, Option.isSome_none, Bool.and_false] at point
    exact takesAt_row (f := fun p => (p.updLine fun l => { l with dupDeadline := none }).settleAll) rfl (by rw [← due])
      fun _ => ⟨frame.now_eq, deadline, point⟩
  · simp [Part.loopback, loop]
  · simp [Part.loopback, loop]
  · have frame := Part.settleAll_frame (p.updLine fun l => { l with stuck := true })
    have stuck := frame.same .stuck (by simp [settleAllBlocks])
    have point := Part.settleAll_follows (p := p.updLine fun l => { l with stuck := true }) (i := 4) (by decide)
      fun q settles => settles.frame.same .stuck (by simp [settleAllBlocks])
    rw [Part.condition_four, Part.updLine_line, Part.updLine_started, Bool.and_true] at point
    have row := takes_row (c := .lineStuckSet) (p := p) rfl (if_neg (by simpa [Part.loopback] using apart))
    generalize (p.updLine fun l => { l with stuck := true }).settleAll = q at stuck point row
    exact ⟨q, row, stuck, point⟩
  · have frame := Part.settleAll_frame (p.updLine fun l => { l with stuck := false })
    have stuck := frame.same .stuck (by simp [settleAllBlocks])
    have point := Part.settleAll_follows (p := p.updLine fun l => { l with stuck := false }) (i := 4) (by decide)
      fun q settles => settles.frame.same .stuck (by simp [settleAllBlocks])
    rw [Part.condition_four, Part.updLine_line, Part.updLine_started, Bool.and_false] at point
    have row := takes_row (c := .lineStuckCleared) (p := p) rfl (if_neg (by simpa [Part.loopback] using apart))
    generalize (p.updLine fun l => { l with stuck := false }).settleAll = q at stuck point row
    exact ⟨q, row, stuck, point⟩

/-! ## A peer is lost (R30, R31) -/

theorem ChangesOnly.peers_eq {T : Set Block} {p q : Part} (h : ChangesOnly T p q) (hT : ∀ x : Fin 16, Block.peer x ∉ T) :
    q.peers = p.peers :=
  Vector.ext fun i lt => h.peer_eq (x := ⟨i, lt⟩) (hT _)

theorem Part.losePeer_peers (x : Fin 16) (p : Part) : (p.losePeer x).peers = p.peers.set x { p.peers[x] with
    state := .lost, stale := p.peers[x].stale || p.peers[x].contents.isSome,
    flags := { p.peers[x].flags with lost := true } } := by
  have views := ChangesOnly.forAll (T := Set.range .view) (f := fun k => Part.dropClaimant k x)
    (fun k r => (r.dropClaimant_frame k x).mono (by simp)) resourceIds
    (p.updPeer x fun e =>
      { e with state := .lost, flags := { e.flags with lost := true }, stale := e.stale || e.contents.isSome })
  exact views.peers_eq (by simp)

/-- Station x is not the claimant of k. -/
def Part.NotClaimant (x : Fin 16) (k : Fin 3) (p : Part) : Prop := ∀ c, p.claims[k].claimant = some c → c.peer ≠ x

theorem Part.dropClaimant_notClaimant (x : Fin 16) (k l : Fin 3) (p : Part) (h : k = l ∨ p.NotClaimant x k) :
    (p.dropClaimant l x).NotClaimant x k := by
  intro c found
  by_cases e : k = l
  · subst e
    rw [Part.dropClaimant, Part.updRes, set_self] at found
    split at found
    · cases found
    · next other =>
      rw [found] at other
      simpa using other
  · refine h.resolve_left e c ?_
    rwa [Part.dropClaimant, Part.updRes, set_other _ _ _ _ e] at found

theorem Part.forAll_notClaimant (x : Fin 16) (k : Fin 3) (l : List (Fin 3)) (p : Part) (h : k ∈ l ∨ p.NotClaimant x k) :
    (p.forAll l fun k => Part.dropClaimant k x).NotClaimant x k := by
  induction l generalizing p with
  | nil => exact h.resolve_left List.not_mem_nil
  | cons a l ih =>
    refine ih _ ?_
    rcases h with mem | free
    · rcases List.mem_cons.1 mem with e | mem
      · exact .inr (p.dropClaimant_notClaimant x k a (.inl e))
      · exact .inl mem
    · exact .inr (p.dropClaimant_notClaimant x k a (.inr free))

/-- A lost peer is claimant of nothing. -/
theorem Part.losePeer_claimant (x : Fin 16) (p : Part) (k : Fin 3) : (p.losePeer x).NotClaimant x k :=
  Part.forAll_notClaimant x k resourceIds _ (.inl (List.mem_finRange k))

/-- What the end of the event leaves of a peer's loss. -/
theorem losePeer_after (x : Fin 16) (p : Part) : ChangesOnly (Set.range .mark ∪ settleAllBlocks) (p.losePeer x)
    ((p.losePeer x).refreshMarks).settleAll :=
  ((Part.refreshMarks_frame _).mono Set.subset_union_left).trans ((Part.settleAll_frame _).mono Set.subset_union_right)

/-- Settles O29. -/
theorem peerAging : Obligations.PeerAging := by
  unfold Obligations.PeerAging
  refine fun p x => ⟨fun idle => takes_row rfl ?_, fun t other live last => ?_⟩
  · dsimp only
    by_cases own : x = p.strapStation
    · exact if_pos own
    · have none : p.agingDeadline x = none := by
        rcases idle.resolve_left own with dead | unheard
        · exact Part.agingDeadline_other dead
        · rw [Part.agingDeadline, unheard, Option.map_none, ite_self]
      rw [if_neg own, none]
      rfl
  · have frame := losePeer_after x p
    have point := Part.settleAll_follows (p := (p.losePeer x).refreshMarks) (i := 5) (by decide) fun q settles => by
      have peers := settles.frame.peers_eq (by simp [settleAllBlocks])
      have straps := (settles.frame.same .straps (by simp [settleAllBlocks])).1
      rw [Part.condition_five, Part.condition_five, Part.anyPeerLost, Part.anyPeerLost, peers, straps]
    have marks := Part.refreshMarks_frame (p.losePeer x)
    have lost : (p.losePeer x).refreshMarks.anyPeerLost = true := by
      refine List.any_eq_true.2 ⟨x, List.mem_finRange x, ?_⟩
      rw [marks.peer_eq (by simp), p.losePeer_self x, (marks.same .straps (by simp)).1,
        ((p.losePeer_frame x).same .straps (by simp)).1]
      simpa using other
    rw [Part.condition_five, lost, Bool.and_true, marks.started_eq, (p.losePeer_frame x).started_eq] at point
    have now := frame.now_eq.trans (p.losePeer_frame x).now_eq
    have peers := (frame.peers_eq (by simp [settleAllBlocks])).trans (p.losePeer_peers x)
    have claimants : ∀ (k : Fin 3) (c : Claimant),
        ((p.losePeer x).refreshMarks).settleAll.claims[k].claimant = some c → c.peer ≠ x := fun k c h =>
      p.losePeer_claimant x k c ((frame.same (.view k) (by simp [settleAllBlocks])).1.symm.trans h)
    have due := Part.agingDeadline_live live last
    refine takesAt_row (f := fun p => ((p.losePeer x).refreshMarks).settleAll) rfl ((if_neg other).trans (by rw [due]; rfl))
      fun _ => ?_
    generalize ((p.losePeer x).refreshMarks).settleAll = q at now peers claimants point
    refine ⟨now, peers, ?_, claimants, point⟩
    have gone : q.peers[x].state = .lost := by rw [peers, set_self]
    exact if_neg (by rw [gone]; exact fun h => nomatch h.2.1)

end Sys2Proof.Machine
end

section
/-! OBLIGATION O30. The timers of the line resources: stagger, claimant, re-claim delay. -/

namespace Sys2Proof.Machine

-- One proof at a time: the whole package as one text must not start a thread for each of them.
set_option Elab.async false

open Sys2Proof.Config

/-! ## Service at the end of an event, one resource by itself (R42) -/

section
variable {T : Set Block} {p q : Part} {k : Fin 3}

/-- The line view of k is of the notes on k and of the fresh contents. -/
theorem ChangesOnly.viewFree_eq (h : ChangesOnly T p q) (hv : Block.view k ∉ T := by simp)
    (hp : ∀ x : Fin 16, Block.peer x ∉ T := by simp) (hs : Block.straps ∉ T := by simp) : q.viewFree k = p.viewFree k := by
  obtain ⟨claimant, released⟩ := h.same (.view k) hv
  have holds : q.holds k = p.holds k := funext fun x => by
    unfold Part.holds
    rw [h.fresh_eq x ⟨hs, hp⟩, released]
  unfold Part.viewFree Part.holder
  rw [holds, claimant, h.strap_eq hs]

theorem ChangesOnly.line_eq (h : ChangesOnly T p q)
    (hT : ∀ b ∈ [Block.queue, .sending, .receiving, .lineCounts, .txFail, .duplicate, .stuck, .silent, .statusTimer], b ∉ T) :
    q.line = p.line := by
  obtain ⟨queue, tag⟩ := h.same .queue (hT _ (by simp))
  obtain ⟨phase, lastTry, wire, sequence, lastSent⟩ := h.same .sending (hT _ (by simp))
  obtain ⟨assembly, receiver⟩ := h.same .receiving (hT _ (by simp))
  obtain ⟨txFail, failures⟩ := h.same .txFail (hT _ (by simp))
  have counts : { q.line.counts with failures := 0 } = { p.line.counts with failures := 0 } :=
    h.same .lineCounts (hT _ (by simp))
  have all : q.line.counts = p.line.counts := by
    have same := congrArg (fun c : LineCounts => { c with failures := q.line.counts.failures }) counts
    dsimp only at same
    rwa [show ({ p.line.counts with failures := q.line.counts.failures } : LineCounts) = p.line.counts by rw [failures]] at same
  have duplicate := h.same .duplicate (hT _ (by simp))
  have stuck := h.same .stuck (hT _ (by simp))
  have silent := h.same .silent (hT _ (by simp))
  have timer := h.same .statusTimer (hT _ (by simp))
  simp only [Block.Same] at duplicate stuck silent timer
  cases e : q.line
  cases e' : p.line
  simp_all

theorem ChangesOnly.claim_eq (h : ChangesOnly T p q)
    (hT : ∀ b ∈ [Block.claim k, .waitList k, .reclaim k, .view k, .mark k], b ∉ T) : q.claims[k] = p.claims[k] := by
  obtain ⟨state, user, settle, note, stagger⟩ := h.same (.claim k) (hT _ (by simp))
  have waiting := h.same (.waitList k) (hT _ (by simp))
  have reclaim := h.same (.reclaim k) (hT _ (by simp))
  obtain ⟨claimant, released⟩ := h.same (.view k) (hT _ (by simp))
  have mark := h.same (.mark k) (hT _ (by simp))
  simp only [Block.Same] at waiting reclaim mark
  cases e : q.claims[k]
  cases e' : p.claims[k]
  simp_all [-Fin.getElem_fin]

/-- Service of k is of its record, the line view, the clock, the station's number, and whether it is STARTED and heard. -/
theorem ChangesOnly.service_eq (h : ChangesOnly (Set.range .claim) p q) (same : q.claims[k] = p.claims[k]) :
    (q.service k).claims[k] = (p.service k).claims[k] := by
  have ready : q.serviceReady k = p.serviceReady k := by
    unfold Part.serviceReady
    rw [same, h.viewFree_eq, h.started_eq, h.silent_eq]
  unfold Part.service
  rw [ready]
  split
  · rw [Part.updRes, Part.updRes, set_self, set_self, same, h.now_eq, Part.own, Part.own, h.strap_eq]
  · exact same

/-- The record of k. -/
def Part.claimOf (k : Fin 3) (p : Part) : Resource := p.claims[k]

theorem Part.service_other {j : Fin 3} (p : Part) (ne : j ≠ k) : (p.service j).claimOf k = p.claimOf k := by
  unfold Part.service Part.claimOf
  split
  · rw [Part.updRes, set_other _ _ _ _ (Ne.symm ne)]
  · rfl

theorem Part.serviceAll_claims (k : Fin 3) (p : Part) : p.serviceAll.claims[k] = (p.service k).claims[k] := by
  obtain ⟨q, upTo, same, found, -⟩ := Part.forAll_at (R := ChangesOnly (Set.range .claim)) (f := Part.service)
    (V := Part.claimOf k) (a := k) (l := resourceIds) (fun _ => .refl) (fun h g => h.trans g)
    (fun b q => (q.service_frame b).mono (by simp)) (fun b q ne => q.service_other ne) (List.nodup_finRange 3)
    (List.mem_finRange k) p
  exact found.trans (upTo.service_eq same)

/-- What `settle` leaves of the record of k: service of k alone. -/
theorem Part.settle_claim (k : Fin 3) (p : Part) : p.settle.claims[k] = (p.service k).claims[k] := by
  have frame := ((Part.freezeAll_frame p.serviceAll).andThen (Part.evaluate_frame _)).andThen (Part.settleQuiet_frame _)
  rw [← p.serviceAll_claims k, p.settle_eq]
  exact frame.claim_eq (by simp)

theorem Part.service_unready (h : p.serviceReady k = false) : p.service k = p := if_neg (by rw [h]; decide)

theorem Part.serviceReady_taken (h : p.viewFree k = false) : p.serviceReady k = false := by
  unfold Part.serviceReady
  simp [h]

theorem Part.serviceReady_claiming (h : p.claims[k].state = .claiming) : p.serviceReady k = false := by
  unfold Part.serviceReady
  dsimp only
  rw [h]
  rfl

/-- A WAITING record stays WAITING, served or not. -/
theorem Part.service_waiting (h : p.claims[k].state = .waiting) : (p.service k).claims[k].state = .waiting := by
  unfold Part.service
  split
  · rw [Part.updRes, set_self]
  · exact h

/-- The head of the list of an IDLE record is served where nothing bars it. -/
theorem Part.service_serves {u : Nat} {us : List Nat} (idle : p.claims[k].state = .idle) (list : p.claims[k].waitList = u :: us)
    (free : p.viewFree k = true) (ended : p.claims[k].reclaim = none) (started : p.started = true) (heard : p.line.silent = false) :
    (p.service k).claims[k].state = .waiting ∧ (p.service k).claims[k].user = some u ∧
    (p.service k).claims[k].stagger = some (later p.now (20 * p.own)) := by
  have ready : p.serviceReady k = true := by
    unfold Part.serviceReady
    dsimp only
    rw [idle, list, free, ended, started, heard]
    rfl
  unfold Part.service
  rw [if_pos ready, Part.updRes, set_self, list]
  exact ⟨rfl, rfl, rfl⟩

end

/-! ## The end of a stagger (R42, R43) -/

section
variable {p : Part} {k : Fin 3}

/-- With the view taken the record goes on WAITING without a stagger, and the line is left alone. -/
theorem Part.endStagger_taken (taken : p.viewFree k = false) (state : p.claims[k].state = .waiting) :
    (p.endStagger k).settle.claims[k].state = .waiting ∧ (p.endStagger k).settle.claims[k].stagger = none ∧
    (p.endStagger k).settle.claims[k].user = p.claims[k].user ∧ (p.endStagger k).settle.line = p.line := by
  have ends : p.endStagger k = p.updRes k fun r => { r with stagger := none } := if_neg (by rw [taken]; decide)
  have frame := p.updRes_frame k (fun r => { r with stagger := none }) {.claim k} (by simp)
  have unready : (p.endStagger k).serviceReady k = false :=
    Part.serviceReady_taken (by rw [ends, frame.viewFree_eq, taken])
  have line := (p.endStagger k).settle_frame.line_eq (by simp [settleBlocks])
  rw [Part.settle_claim, Part.service_unready unready, line, ends, Part.updRes, set_self]
  exact ⟨state, rfl, rfl, rfl⟩

/-- With the view free and a slot of the queue, the record enters CLAIMING, and its CLAIM is queued and noted. -/
theorem Part.endStagger_claims {u : Nat} (free : p.viewFree k = true) (started : p.started = true)
    (heard : p.line.silent = false) (user : p.claims[k].user = some u) (room : p.line.queue.length < 8) :
    (p.endStagger k).settle.claims[k].state = .claiming ∧ (p.endStagger k).settle.claims[k].user = some u ∧
    (p.endStagger k).settle.claims[k].settle = none ∧ (p.endStagger k).settle.claims[k].note = some p.line.nextTag ∧
    ⟨.claim k u, 0, none, p.line.nextTag⟩ ∈ (p.endStagger k).settle.line.queue := by
  have ends : p.endStagger k = (p.updRes k fun r =>
      { r with state := .claiming, stagger := none, settle := none, note := some p.line.nextTag }).place (.claim k u) := by
    rw [Part.endStagger, if_pos free, Part.enterClaiming, user, if_pos (show p.line.queue.length < queueSize from room)]
    exact Part.queueFrame_place started heard rfl room
  have record : (p.endStagger k).claims[k] =
      { p.claims[k] with state := .claiming, stagger := none, settle := none, note := some p.line.nextTag } := by
    rw [ends]
    exact set_self _ _ _
  have unready : (p.endStagger k).serviceReady k = false := Part.serviceReady_claiming (by rw [record])
  have queued : ⟨.claim k u, 0, none, p.line.nextTag⟩ ∈ (p.endStagger k).line.queue := by
    rw [ends]
    exact (Part.place_holds _ _).2
  rw [Part.settle_claim, Part.service_unready unready, record, (Part.settle_sends _).1]
  exact ⟨rfl, user, rfl, rfl, queued⟩

/-- With the view free and the queue full, the CLAIM is a transmit failure, and the record goes on WAITING. -/
theorem Part.endStagger_full {u : Nat} (free : p.viewFree k = true) (started : p.started = true)
    (heard : p.line.silent = false) (user : p.claims[k].user = some u) (full : 8 ≤ p.line.queue.length) :
    (p.endStagger k).settle.claims[k].state = .waiting ∧ (p.endStagger k).settle.line.queue = p.line.queue ∧
    (p.endStagger k).settle.line.counts.failures = p.line.counts.failures + 1 := by
  have ends : p.endStagger k = (p.updRes k fun r =>
      { r with state := .waiting, stagger := none, settle := none, note := none }).transmitFailure := by
    rw [Part.endStagger, if_pos free, Part.enterClaiming, user,
      if_neg (show ¬ p.line.queue.length < queueSize by unfold queueSize; omega)]
    exact Part.queueFrame_full started heard rfl full
  have record : (p.endStagger k).claims[k] =
      { p.claims[k] with state := .waiting, stagger := none, settle := none, note := none } := by
    rw [ends]
    exact set_self _ _ _
  have line : (p.endStagger k).line.queue = p.line.queue ∧
      (p.endStagger k).line.counts.failures = p.line.counts.failures + 1 := by
    rw [ends]
    exact ⟨rfl, rfl⟩
  obtain ⟨queue, -, failures, -⟩ := (p.endStagger k).settle_sends
  rw [queue, failures, Part.settle_claim]
  exact ⟨Part.service_waiting (by rw [record]), line⟩

theorem Part.endStagger_frame (k : Fin 3) (p : Part) : ChangesOnly ({.claim k} ∪ sendBlocks) p (p.endStagger k) :=
  .ite (p.enterClaiming_frame k) (p.updRes_frame k _ _)

end

/-- Settles O30, by what `settle` leaves of one record (`Part.settle_claim`). -/
theorem resourceTimersMove : Obligations.ResourceTimersMove := by
  unfold Obligations.ResourceTimersMove
  refine ⟨fun p k => ⟨fun idle => takes_row rfl ?_, fun t state due => ?_⟩,
    fun p k => ⟨fun none => takes_row rfl ?_, fun none => takes_row rfl ?_, fun c claimant => ?_, fun t due => ?_⟩⟩
  · dsimp only
    by_cases state : p.claims[k].state = .waiting
    · rw [if_pos state, idle.resolve_left (not_not.2 state)]
      rfl
    · exact if_neg state
  · have now := ((p.endStagger_frame k).andThen (Part.settle_frame _)).now_eq
    exact takesAt_row (f := fun p => (p.endStagger k).settle) rfl ((if_pos state).trans (by rw [← due])) fun _ =>
      ⟨now, fun taken => Part.endStagger_taken taken state, fun free started heard u user =>
        ⟨Part.endStagger_claims free started heard user, Part.endStagger_full free started heard user⟩⟩
  · dsimp only
    rw [none]
    rfl
  · dsimp only
    rw [none]
    rfl
  · have frame := Part.settle_frame (p.updRes k fun r => { r with claimant := none })
    have view := (frame.same (.view k) (by simp [settleBlocks])).1
    have reclaim := frame.same (.reclaim k) (by simp [settleBlocks])
    simp only [Block.Same, Part.updRes, set_self] at view reclaim
    exact takesAt_row (f := fun p => (p.updRes k fun r => { r with claimant := none }).settle) rfl (by dsimp only; rw [claimant]; rfl)
      fun _ => ⟨frame.now_eq, view, reclaim⟩
  · have ended := p.updRes_frame k (fun r => { r with reclaim := none }) {.reclaim k} (by simp)
    have frame := Part.settle_frame (p.updRes k fun r => { r with reclaim := none })
    have reclaim := frame.same (.reclaim k) (by simp [settleBlocks])
    have record := Part.settle_claim k (p.updRes k fun r => { r with reclaim := none })
    have now := ended.andThen frame |>.now_eq
    refine takesAt_row (f := fun p => (p.updRes k fun r => { r with reclaim := none }).settle) rfl (by rw [← due]) fun _ =>
      ⟨now, ?_, fun u us idle list free started heard => ?_⟩
    · exact Eq.trans reclaim (by rw [Part.updRes, set_self])
    · rw [record, now]
      exact Part.service_serves (by rw [Part.updRes, set_self]; exact idle) (by rw [Part.updRes, set_self]; exact list)
        (ended.viewFree_eq.trans free) (by rw [Part.updRes, set_self]) started heard

end Sys2Proof.Machine
end

section
/-! SUPPORT. The wait lists at the end of an event: a user enters one only where its burner resumes. -/

namespace Sys2Proof.Machine

-- One proof at a time: the whole package as one text must not start a thread for each of them.
set_option Elab.async false

open Sys2Proof.Config

/-- Nobody has entered the wait list of k. -/
def ListKept (k : Fin 3) (p q : Part) : Prop := ∀ u ∈ q.claims[k].waitList, u ∈ p.claims[k].waitList

namespace ListKept
variable {k : Fin 3} {p q r : Part}

theorem refl (p : Part) : ListKept k p p := fun _ => id

theorem trans (h : ListKept k p q) (g : ListKept k q r) : ListKept k p r := fun u mem => h u (g u mem)

theorem of_frame {T : Set Block} (h : ChangesOnly T p q) (hT : Block.waitList k ∉ T := by simp) : ListKept k p q := fun u mem => by
  have same : q.claims[k].waitList = p.claims[k].waitList := h.same (.waitList k) hT
  rwa [← same]

theorem ite {c : Prop} [Decidable c] (h : c → ListKept k p q) (g : ¬ c → ListKept k p r) : ListKept k p (if c then q else r) := by
  split
  · next hc => exact h hc
  · next hc => exact g hc

end ListKept

section
variable {p : Part} {k : Fin 3} {i : Fin 62}

theorem Part.withdraw_list (j : Fin 3) (u : Nat) (p : Part) : ListKept k p (p.withdraw j u) := by
  by_cases e : k = j
  · subst e
    obtain ⟨f, near, withdrawn⟩ := p.withdraw_near k u
    have list := (near.claims k).2.2
    rw [Part.updRes_claims_self] at list
    intro v mem
    rw [list] at mem
    cases withdrawn with
    | released _ _ _ _ same => rwa [same] at mem
    | dropped _ _ _ _ same | next _ _ _ _ same | left _ _ _ same => exact List.mem_of_mem_erase (same ▸ mem)
  · exact .of_frame (p.withdraw_frame j u) (by simp [leaveBlocks, sendBlocks, e])

theorem Part.endRamp_list (b : Fin 2) (p : Part) : ListKept k p (p.endRamp b) := by
  unfold Part.endRamp
  split
  · next r _ =>
    exact .trans (.of_frame ((p.replaceMix_frame b r.target).andThen (Part.setRamp_frame b none _))) (Part.withdraw_list 2 _ _)
  · exact .refl p

theorem Part.leaveFor_list (b : Fin 2) (s : BurnerState) (p : Part) : ListKept k p (p.leaveFor b s) := by
  have left : ListKept k p (if s = .lightWait ∨ s = .igniting ∨ s = .loading then p else p.withdraw 0 b.val) :=
    .ite (fun _ => .refl p) fun _ => Part.withdraw_list 0 _ p
  exact .ite (fun _ => left) fun _ => left.trans (Part.endRamp_list b _)

theorem Part.burnerTo_list (b : Fin 2) (s : BurnerState) (fix : Burner → Burner) (mark : Bool) (p : Part) :
    ListKept k p (p.burnerTo b s fix mark) := by
  have after := Part.afterBurner_frame b s mark (((p.leaveFor b s).updBurner b fun x => fix (x.cleared s)).updOutput fun o =>
    { o with igniter := o.igniter.set b (s == .igniting) })
  exact fun u mem => p.leaveFor_list b s u (ListKept.of_frame after (by simp) u mem)

theorem Part.tripBurner_list (b : Fin 2) (p : Part) : ListKept k p (p.tripBurner b) :=
  .ite (fun _ => .refl p) fun _ => p.burnerTo_list b _ _ _

theorem Part.tripBound_list (x : Binding) (p : Part) : ListKept k p (p.tripBound x) := by
  cases x with
  | none => exact .refl p
  | station => exact (p.tripBurner_list 0).trans (Part.tripBurner_list 1 _)
  | burner b => exact p.tripBurner_list b

theorem Part.activate_list (i : Fin 62) (p : Part) : ListKept k p (p.activate i) := by
  have counted : ListKept k p ((p.sounded i).record (ShiftRec.activation (p.pointAttr i).cls)) :=
    .of_frame ((p.sounded_frame i).andThen (Part.record_frame _ _))
  rw [Part.activate_eq]
  refine .ite (fun _ => counted.trans ?_) fun _ => counted
  exact (Part.tripBound_list _ _).trans (.of_frame (Part.actTrip_frame_filled i _ _ _ _))

theorem Part.risePoint_list (i : Fin 62) (p : Part) : ListKept k p (p.risePoint i) := by
  unfold Part.risePoint
  split
  · exact p.activate_list i
  · exact p.activate_list i
  · exact .of_frame (p.movePoint_frame i _)
  · exact .refl p

theorem Part.settlePoint_list (i : Fin 62) (same : Bool) (p : Part) : ListKept k p (p.settlePoint i same) := by
  have found : ListKept k p (p.updPoint i fun x => { x with eff := p.effective i }) := .of_frame (p.updPoint_frame i _)
  have fallen := found.trans (.of_frame (Part.fallPoint_frame i _))
  exact .ite (fun _ => .refl p) fun _ => .ite (fun _ => found) fun _ => .ite (fun _ => found.trans (Part.risePoint_list i _))
    fun _ => .ite (fun _ => fallen.trans (.of_frame (Part.hornCheck_frame _))) fun _ => fallen

theorem Part.settlePoints_list (l : List (Fin 62)) (p : Part) : ListKept k p (p.settlePoints l) := by
  unfold Part.settlePoints
  induction l generalizing p with
  | nil => exact .refl p
  | cons i l ih => exact (p.settlePoint_list i false).trans (ih _)

/-! ## Users that resume (R92) -/

/-- Who is in the wait list of k was there, or is a burner that was HELD and waits for LIGHT-OFF again. -/
def ListResumes (k : Fin 3) (p q : Part) : Prop := ∀ u ∈ q.claims[k].waitList,
  u ∈ p.claims[k].waitList ∨ k = 0 ∧ ∃ b : Fin 2, u = b.val ∧ p.burners[b].state = .held

theorem ListKept.resumes {q : Part} (h : ListKept k p q) : ListResumes k p q := fun u mem => .inl (h u mem)

theorem Onward.notHeld {L : Fin 2 → Prop} {q : Part} (h : Onward L p q) {b : Fin 2} (on : p.burners[b].state ≠ .held) :
    q.burners[b].state ≠ .held := by
  rcases h.burners b on with kept | ⟨-, tripped⟩
  · rwa [kept.burner]
  · rw [tripped.burner]
    exact nofun

theorem ListResumes.trans {L : Fin 2 → Prop} {q r : Part} (h : ListResumes k p q) (onward : Onward L p q)
    (g : ListResumes k q r) : ListResumes k p r := fun u mem => by
  rcases g u mem with there | ⟨k0, b, e, held⟩
  · exact h u there
  · exact .inr ⟨k0, b, e, by_contra fun on => onward.notHeld on held⟩

theorem Part.request_list {u v : Nat} (j : Fin 3) (h : v ∈ (p.request j u).claims[k].waitList) :
    v ∈ p.claims[k].waitList ∨ k = j ∧ v = u := by
  by_cases e : k = j
  · subst e
    unfold Part.request at h
    dsimp only at h
    split at h
    · exact .inl h
    split at h
    · exact .inl h
    · have same := (Part.service_frame k (p.updRes k fun r => { r with
        waitList := insertUser u r.waitList
        user := if r.state == .waiting && r.user.any (u < ·) then some u else r.user })).same (.waitList k) (by simp)
      have list := h
      rw [show _ = _ from same, Part.updRes_claims_self] at list
      exact (mem_insertUser.1 list).elim (fun e => .inr ⟨rfl, e⟩) .inl
  · exact .inl (ListKept.of_frame (p.request_frame j u) (by simp [e]) v h)

theorem Part.autoResume_list (b : Fin 2) (p : Part) : ListResumes k p (p.autoResume b) := by
  unfold Part.autoResume
  split
  · next may =>
    have held : p.burners[b].state = .held := by
      simp only [Part.mayAutoResume, Bool.and_eq_true, beq_iff_eq] at may
      exact may.1.1.1.1.1.2
    unfold Part.resume
    split
    · exact (p.burnerTo_list b _ _ _).resumes
    · intro u mem
      rcases Part.request_list 0 mem with there | ⟨k0, e⟩
      · exact .inl (p.burnerTo_list b _ _ _ u there)
      · exact .inr ⟨k0, b, e, held⟩
  · exact (ListKept.refl p).resumes

theorem Part.settleHold_list (b : Fin 2) (p : Part) : ListResumes k p ((p.followCauses b).autoResume b) :=
  (ListKept.of_frame (p.followCauses_frame b)).resumes.trans (L := fun _ => True) (Part.followCauses_onward b p)
    (Part.autoResume_list b _)

theorem Part.settleHolds_list (p : Part) : ListResumes k p p.settleHolds := by
  have onward (b : Fin 2) (p : Part) : Onward (fun _ => True) p ((p.followCauses b).autoResume b) :=
    (Part.followCauses_onward b p).trans (Part.autoResume_onward b _)
  exact (p.settleHold_list 0).trans (onward 0 p) (Part.settleHold_list 1 _)

theorem Part.settleAll_list (p : Part) : ListResumes k p p.settleAll := by
  have found := Part.settlePoints_onward (L := fun _ => True) (p := p) (fun _ _ => trivial) promptPoints
  have held := ((p.settlePoints_list promptPoints).resumes (k := k)).trans found (Part.settleHolds_list _)
  exact fun u mem => held u (ListKept.of_frame (Part.settle_frame _) (by simp [settleBlocks, pointBlocks]) u mem)

end

end Sys2Proof.Machine
end

section
/-! OBLIGATION O31. A resource is granted and its user starts. -/

namespace Sys2Proof.Machine

-- One proof at a time: the whole package as one text must not start a thread for each of them.
set_option Elab.async false

open Sys2Proof.Config

/-! ## What a grant does (R45) -/

/-- The record of k is HELD, and its user leaves the wait list. -/
def Part.enterHeld (k : Fin 3) (u : Nat) (p : Part) : Part :=
  p.updRes k fun r => { r with state := .held, settle := none, note := none, waitList := r.waitList.erase u }

/-- What follows the user's own start: a STATUS requested and the grant reported. -/
def Part.tellLine (k : Fin 3) (p : Part) : Part := (p.queueFrame .status).offer .resource k.val 0

section
variable {p : Part} {k : Fin 3} {u : Nat}

theorem Part.grant_eq (user : p.claims[k].user = some u) :
    p.grant k = (((p.enterHeld k u).tellGranted k u).tellLine k) := by
  unfold Part.grant
  rw [user]
  rfl

theorem Part.enterHeld_frame (k : Fin 3) (u : Nat) (p : Part) : ChangesOnly {.claim k, .waitList k} p (p.enterHeld k u) :=
  p.updRes_frame k _ _

theorem Part.enterHeld_holds (user : p.claims[k].user = some u) : (p.enterHeld k u).holdsFor k u := by
  unfold Part.holdsFor Part.enterHeld
  rw [Part.updRes_claims_self]
  exact ⟨rfl, user⟩

theorem Part.tellLine_frame (k : Fin 3) (p : Part) : ChangesOnly ({.events} ∪ sendBlocks) p (p.tellLine k) :=
  (p.queueFrame_frame .status).mono.next (Part.offer_frame ..)

/-! ## The user leaves the wait list -/

theorem Part.fanTo_list (j : Fin 3) (n : Fin 4) (s : FanState) (p : Part) : ListKept j p (p.fanTo n s) := by
  have left : ListKept j p (p.leaveForFan n s) := .ite (fun _ => .refl p) fun _ => p.withdraw_list 1 _
  rw [Part.fanTo_eq]
  exact fun u mem => left u (ListKept.of_frame (Part.afterFan_frame n s _) (by simp) u mem)

theorem Part.tellGranted_list (j k : Fin 3) (u : Nat) (p : Part) : ListKept j p (p.tellGranted k u) := by
  refine .ite (fun _ => ?_) fun _ => .ite (fun _ => .of_frame (Part.setRamp_frame ..)) fun _ =>
    .ite (fun _ => p.burnerTo_list _ _ _ _) fun _ => p.burnerTo_list _ _ _ _
  exact (p.fanTo_list j _ _).trans (.of_frame (Part.updFan_frame ..))

theorem Part.grant_list (user : p.claims[k].user = some u) (sorted : p.claims[k].waitList.Pairwise (· < ·)) :
    u ∉ (p.grant k).claims[k].waitList := by
  rw [Part.grant_eq user]
  intro mem
  have there := Part.tellGranted_list k k u (p.enterHeld k u) u (ListKept.of_frame (Part.tellLine_frame k _) (by simp) u mem)
  rw [Part.enterHeld, Part.updRes_claims_self] at there
  have once : p.claims[k].waitList.Nodup := sorted.imp fun h => Nat.ne_of_lt h
  exact once.not_mem_erase there

/-! ## The STATUS requested -/

theorem Part.queueFrame_length (body : FrameBody) (p : Part) :
    (p.queueFrame body).line.queue.length ≤ p.line.queue.length + 1 := by
  unfold Part.queueFrame
  split
  · omega
  split
  · omega
  split
  · exact (Eq.trans (p.place_queue body).length_eq List.length_append).le
  · exact Nat.le_succ _

theorem Part.withdraw_length (j : Fin 3) (u : Nat) (p : Part) :
    (p.withdraw j u).line.queue.length ≤ p.line.queue.length + 1 := by
  unfold Part.withdraw
  dsimp only
  split
  · have frame := (((Part.toIdle_frame j (p.queueFrame (.release j))).andThen (Part.offer_frame .resource j.val 1 false 0 none _)).andThen
      (Part.beginReclaim_frame j _)).queue_eq
    exact (congrArg List.length frame).trans_le (p.queueFrame_length _)
  split
  · exact Part.queueFrame_length _ _
  split
  · exact (congrArg List.length (Part.service_frame j _).queue_eq).trans_le (Nat.le_succ _)
  · exact Nat.le_succ _

theorem Part.endRamp_length (b : Fin 2) (p : Part) : (p.endRamp b).line.queue.length ≤ p.line.queue.length + 1 := by
  unfold Part.endRamp
  split
  · next r _ =>
    have frame := ((p.replaceMix_frame b r.target).andThen (Part.setRamp_frame b none _)).queue_eq
    exact (Part.withdraw_length 2 b.val _).trans (by rw [frame])
  · exact Nat.le_succ _

/-- A user that starts queues at most the RELEASE of its mix ramp. -/
theorem Part.tellGranted_length (k : Fin 3) (u : Nat) (p : Part) :
    (p.tellGranted k u).line.queue.length ≤ p.line.queue.length + 1 := by
  have burner (b : Fin 2) (s : BurnerState) (fix : Burner → Burner) (starts : s = .lightWait ∨ s = .igniting ∨ s = .loading) :
      (p.burnerTo b s fix).line.queue.length ≤ p.line.queue.length + 1 := by
    have after := (Part.afterBurner_frame b s false (((p.leaveFor b s).updBurner b fun x => fix (x.cleared s)).updOutput fun o =>
      { o with igniter := o.igniter.set b (s == .igniting) })).queue_eq
    refine (congrArg List.length after).trans_le ?_
    show (p.leaveFor b s).line.queue.length ≤ _
    unfold Part.leaveFor
    rw [if_pos starts]
    split
    · exact Nat.le_succ _
    · exact p.endRamp_length b
  unfold Part.tellGranted
  split
  · have after := (Part.afterFan_frame (Fin.ofNat 4 u) .starting (((p.updFan (Fin.ofNat 4 u) fun x => x.cleared .starting)).updOutput
      (OutputImage.fanTo (Fin.ofNat 4 u) .starting))).queue_eq
    exact (congrArg List.length after).trans_le (Nat.le_succ _)
  split
  · exact Nat.le_succ _
  · dsimp only
    split
    · exact burner _ _ _ (.inr (.inr rfl))
    · exact burner _ _ _ (.inr (.inl rfl))

theorem Part.grant_requests (user : p.claims[k].user = some u) (started : p.started = true) (heard : p.line.silent = false)
    (room : p.line.queue.length < 7) : ∃ f ∈ (p.grant k).line.queue, f.body = .status := by
  have held := p.enterHeld_frame k u
  have told := Part.tellGranted_frame k u (p.enterHeld k u)
  have length := Part.tellGranted_length k u (p.enterHeld k u)
  rw [held.queue_eq] at length
  rw [Part.grant_eq user]
  exact (Part.offer_frame ..).queued (Part.queueFrame_queues ((told.started_eq (by simp [userBlocks])).trans (held.started_eq.trans started))
    ((told.silent_eq (by simp [userBlocks])).trans (held.silent_eq.trans heard)) (by omega))

theorem Part.grant_reported (user : p.claims[k].user = some u) :
    Reported ⟨.resource, k.val, 0, false, p.now, 0, none⟩ (p.grant k) := by
  have now := ((p.enterHeld_frame k u).now_eq)
  have told := (Part.tellGranted_frame k u (p.enterHeld k u)).now_eq (by simp [userBlocks])
  have queued := (((p.enterHeld k u).tellGranted k u).queueFrame_frame .status).now_eq
  rw [Part.grant_eq user, ← now, ← told, ← queued]
  exact Part.offer_reported ..

/-! ## A fan starts (R125) -/

theorem Part.enterStarting_fan (n : Fin 4) (p : Part) :
    (p.enterStarting n).fans[n].state = .starting ∧
    (p.enterStarting n).fans[n].startUntil = some (later p.now (p.fans[n].cfg.startTime * 1000)) ∧
    (p.enterStarting n).field.output.fanRun[n] = true ∧ (p.enterStarting n).field.output.fanSpeed[n] = 200 := by
  have fan : (p.enterStarting n).fans[n] =
      { p.fans[n].cleared .starting with startUntil := some (later p.now (p.fans[n].cfg.startTime * 1000)) } := by
    rw [Part.enterStarting]
    refine (set_self ..).trans ?_
    rw [Part.fanTo_fan]
    rfl
  obtain ⟨speed, run⟩ := p.fanTo_outputs n .starting
  rw [fan]
  refine ⟨rfl, rfl, ?_, ?_⟩
  · exact (congrArg (·[n]) run).trans (set_self ..)
  · exact (congrArg (·[n]) speed).trans (set_self ..)

theorem Part.enterStarting_holds {n : Fin 4} (h : p.holdsFor 1 u) : (p.enterStarting n).holdsFor 1 u := by
  have after := Part.afterFan_frame n .starting ((p.updFan n fun x => x.cleared .starting).updOutput (OutputImage.fanTo n .starting))
  have started := (after.holdsFor 1 u).2 h
  exact started

/-- HEAVY-START is not touched by the end of an event. -/
theorem Part.settleAll_keepsFan (h : p.holdsFor 1 u) : p.settleAll.holdsFor 1 u := by
  rw [p.settleAll_eq]
  have frame := (p.settlePoints_frame promptPoints).andThen (Part.settleHolds_frame _)
  exact Part.settle_keepsHeld ((frame.holdsFor 1 u).2 h)

theorem Part.settled_fan {n : Fin 4} (user : p.claims[(1 : Fin 3)].user = some n.val) :
    (p.grant 1).settleAll.holdsFor 1 n.val ∧ (p.grant 1).settleAll.fans[n].state = .starting ∧
    (p.grant 1).settleAll.fans[n].startUntil = some (later p.now (p.fans[n].cfg.startTime * 1000)) ∧
    (p.grant 1).settleAll.field.output.fanRun[n] = true ∧ (p.grant 1).settleAll.field.output.fanSpeed[n] = 200 := by
  have told : p.grant 1 = ((p.enterHeld 1 n.val).enterStarting n).tellLine 1 := by
    have self : Fin.ofNat 4 n.val = n := Fin.ext (Nat.mod_eq_of_lt n.isLt)
    rw [Part.grant_eq user, Part.tellGranted, if_pos rfl, self]
  obtain ⟨state, deadline, run, speed⟩ := (p.enterHeld 1 n.val).enterStarting_fan n
  have line := Part.tellLine_frame 1 ((p.enterHeld 1 n.val).enterStarting n)
  have after := Part.settleAll_frame (p.grant 1)
  obtain ⟨speeds, runs⟩ := after.same .fanOut (by simp)
  obtain ⟨speeds', runs'⟩ := line.same .fanOut (by simp)
  have holds := Part.enterStarting_holds (n := n) (Part.enterHeld_holds user)
  refine ⟨Part.settleAll_keepsFan (by rw [told]; exact (line.holdsFor 1 _).2 holds), ?_⟩
  rw [after.fan_eq n, speeds, runs, told, line.fan_eq n, speeds', runs']
  exact ⟨state, deadline, run, speed⟩

/-! ## A burner starts or loads (R82, R83) -/

/-- No TRIP condition comes up, so that the burner stays quiet. -/
theorem Part.QuietFor.mono {q : Part} {b : Fin 2} (quiet : p.QuietFor b) (started : q.started = p.started)
    (mode : q.mode = p.mode) (ext : q.alarms.ext = p.alarms.ext)
    (conditions : ∀ i : Fin 62, (p.pointAttr i).cls = .trip → q.condition i = true → p.condition i = true) : q.QuietFor b := by
  have attr (i : Fin 62) : q.pointAttr i = p.pointAttr i := Part.pointAttr_congr (fun n => by rw [ext]) i
  intro i binds
  have same : p.bindsBurner b i = true := by simpa only [Part.bindsBurner, attr] using binds
  have c : (p.pointAttr i).cls = .trip := by
    simp only [Part.bindsBurner, Bool.and_eq_true, beq_iff_eq] at same
    exact same.1
  rw [Bool.eq_false_iff]
  intro e
  simp only [Part.effective, Bool.and_eq_true] at e
  obtain ⟨⟨s, cond⟩, armed⟩ := e
  unfold Part.pointArmed at armed
  rw [attr, mode] at armed
  refine Bool.eq_false_iff.1 (quiet i same) ?_
  rw [Part.effective, ← started, s, conditions i c cond, Part.pointArmed, armed]
  rfl

/-- A burner's move brings no TRIP condition up. -/
theorem Part.burnerTo_quiet {b c : Fin 2} {s : BurnerState} {fix : Burner → Burner}
    (fails : ∀ x, (fix x).flameFail = x.flameFail ∧ (fix x).lightOffFail = x.lightOffFail) (quiet : p.QuietFor c) :
    (p.burnerTo b s fix).QuietFor c := by
  have frame := p.burnerTo_frame b s fix false
  have scan : (p.burnerTo b s fix).field.scanning.state = p.field.scanning.state :=
    congrArg Field.state (frame.same .scan (by simp))
  refine quiet.mono frame.started_eq frame.mode_eq frame.ext_eq (Part.tripCondition_le frame.started_eq scan
    (frame.same .duplicate (by simp)) (frame.same .peerTrips (by simp)).1 (fun d => ?_) (by rw [frame.grate_eq]; exact id)
    frame.ext_eq)
  by_cases e : d = b
  · subst e
    rw [Part.burnerTo_burner, (fails _).1, (fails _).2]
    exact ⟨nofun, nofun⟩
  · rw [Part.burnerTo_other e]
    exact ⟨id, id⟩

/-- What holds of a quiet burner that is not HELD stays at the end of the event. -/
theorem Part.settleAll_quiet {b : Fin 2} (quiet : p.QuietFor b) (on : p.burners[b].state ≠ .held) :
    BurnerKept b p p.settleAll :=
  ((Part.settleAll_onward (L := fun c => ¬ p.QuietFor c) fun _ => id).burners b on).resolve_right fun loud => loud.1 quiet

/-- A move to IGNITING or LOADING keeps LIGHT-OFF. -/
theorem Part.burnerTo_keepsLightOff {b : Fin 2} {s : BurnerState} {fix : Burner → Burner} (starts : s = .igniting ∨ s = .loading)
    (h : p.holdsFor 0 u) : (p.burnerTo b s fix).holdsFor 0 u := by
  refine (Part.burnerTo_holds 0 u).2 ?_
  unfold Part.leaveFor
  dsimp only
  rw [if_pos (Or.inr starts : s = .lightWait ∨ s = .igniting ∨ s = .loading)]
  split
  · exact h
  · exact Part.endRamp_keepsHeld h (.inr (by decide))

/-- What a burner that starts has become. -/
def Burner.lit (now : Time) (x : Burner) : Burner :=
  if x.cont = some .loading then
    { x.cleared .loading with
      loading := some (later now (x.cfg.loading * 1000)), absent := if x.flame then none else some now }
  else
    { x.cleared .igniting with
      ignition := some (later now (x.cfg.ignition * 1000)), proving := if x.flame then some now else none }

theorem Burner.lit_notHeld (now : Time) (x : Burner) : (x.lit now).state ≠ .held := by
  unfold Burner.lit
  split <;> exact nofun

/-- The user of LIGHT-OFF told that it is granted. -/
theorem Part.tellGranted_burner (b : Fin 2) (p : Part) :
    (p.tellGranted 0 b.val).burners[b] = p.burners[b].lit p.now ∧
    (p.tellGranted 0 b.val).field.output.igniter[b] = (p.burners[b].cont != some .loading) ∧
    (p.QuietFor b → (p.tellGranted 0 b.val).QuietFor b) ∧
    (p.holdsFor 0 u → (p.tellGranted 0 b.val).holdsFor 0 u) := by
  have self : Fin.ofNat 2 b.val = b := Fin.ext (Nat.mod_eq_of_lt b.isLt)
  have told : p.tellGranted 0 b.val = if p.burners[b].cont = some .loading then p.enterLoading b else p.enterIgniting b := by
    rw [Part.tellGranted, if_neg (by decide), if_neg (by decide)]
    exact congrArg (fun c : Fin 2 => if p.burners[c].cont = some .loading then p.enterLoading c else p.enterIgniting c) self
  rw [told]
  unfold Burner.lit
  split
  · next loads =>
    have bit : (p.burners[b].cont != some .loading) = false := by simpa [-Fin.getElem_fin] using loads
    rw [bit]
    exact ⟨p.burnerTo_burner b _ _ _, p.burnerTo_igniter b _ _ _, Part.burnerTo_quiet fun _ => ⟨rfl, rfl⟩,
      Part.burnerTo_keepsLightOff (.inr rfl)⟩
  · next lights =>
    have bit : (p.burners[b].cont != some .loading) = true := by simpa [-Fin.getElem_fin] using lights
    rw [bit]
    exact ⟨p.burnerTo_burner b _ _ _, p.burnerTo_igniter b _ _ _, Part.burnerTo_quiet fun _ => ⟨rfl, rfl⟩,
      Part.burnerTo_keepsLightOff (.inl rfl)⟩

theorem ChangesOnly.quietFor {T : Set Block} {q : Part} {b : Fin 2} (h : ChangesOnly T p q) (quiet : p.QuietFor b)
    (hT : ∀ x ∈ onwardBlocks, x ∉ T := by simp [onwardBlocks, or_imp, forall_and]) : q.QuietFor b := by
  have out {x : Block} (hx : x ∈ onwardBlocks := by simp [onwardBlocks]) : x.Same p q := h.same x (hT x hx)
  have burner (c : Fin 2) : q.burners[c] = p.burners[c] := out (x := .burner c)
  have grate : q.grate = p.grate := out (x := .grate)
  have scan : q.field.scanning.state = p.field.scanning.state := congrArg Field.state (out (x := .scan))
  have ext : q.alarms.ext = p.alarms.ext := out (x := .ext)
  have started : q.started = p.started := out (x := .started)
  exact quiet.mono started (out (x := .mode)) ext (Part.tripCondition_le started scan (out (x := .duplicate))
    (out (x := .peerTrips)).1 (fun c => by rw [burner c]; exact ⟨id, id⟩) (by rw [grate]; exact id) ext)

/-- A burner that LIGHT-OFF is granted to, before the event ends. -/
theorem Part.grant_burner {b : Fin 2} (user : p.claims[(0 : Fin 3)].user = some b.val) :
    (p.grant 0).burners[b] = p.burners[b].lit p.now ∧
    (p.grant 0).field.output.igniter[b] = (p.burners[b].cont != some .loading) ∧
    (p.QuietFor b → (p.grant 0).QuietFor b) ∧ (p.grant 0).holdsFor 0 b.val := by
  have held := p.enterHeld_frame 0 b.val
  obtain ⟨burner, igniter, quiet, holds⟩ := (p.enterHeld 0 b.val).tellGranted_burner (u := b.val) b
  have line := Part.tellLine_frame 0 ((p.enterHeld 0 b.val).tellGranted 0 b.val)
  have lamp := congrArg (fun v : Vector Bool 2 => v[b]) (line.same .igniters (by simp))
  rw [Part.grant_eq user]
  exact ⟨(line.burner_eq b).trans burner, lamp.trans igniter, fun q => line.quietFor (quiet (held.quietFor q)),
    (line.holdsFor 0 _).2 (holds (Part.enterHeld_holds user))⟩

theorem Part.settled_burner {b : Fin 2} (user : p.claims[(0 : Fin 3)].user = some b.val) (quiet : p.QuietFor b) :
    (p.grant 0).settleAll.holdsFor 0 b.val ∧ (p.grant 0).settleAll.burners[b] = p.burners[b].lit p.now ∧
    (p.grant 0).settleAll.field.output.igniter[b] = (p.burners[b].cont != some .loading) := by
  obtain ⟨burner, igniter, still, holds⟩ := Part.grant_burner user
  have kept := Part.settleAll_quiet (still quiet) (by rw [burner]; exact Burner.lit_notHeld _ _)
  exact ⟨kept.lightOff holds, kept.burner.trans burner, kept.igniter.trans igniter⟩

/-! ## A mix ramp starts (R116) -/

theorem Part.settled_ramp {b : Fin 2} {r : MixRamp} (user : p.claims[(2 : Fin 3)].user = some b.val) (quiet : p.QuietFor b)
    (fires : p.burners[b].state.fires = true) (ramp : p.ramps[b] = some r) :
    (p.grant 2).settleAll.holdsFor 2 b.val ∧ (p.grant 2).settleAll.ramps[b] =
      some { r with ramping := true, elapsed := 0, nextStep := nextMultiple p.now 1000 } := by
  have self : Fin.ofNat 2 b.val = b := Fin.ext (Nat.mod_eq_of_lt b.isLt)
  have told : p.grant 2 = ((p.enterHeld 2 b.val).startRamp b).tellLine 2 := by
    rw [Part.grant_eq user, Part.tellGranted, if_neg (by decide), if_pos rfl, self]
  have held := p.enterHeld_frame 2 b.val
  have line := Part.tellLine_frame 2 ((p.enterHeld 2 b.val).startRamp b)
  have still : (p.grant 2).QuietFor b := by
    rw [told]
    refine line.quietFor ?_
    have same : ((p.enterHeld 2 b.val).startRamp b).QuietFor b ↔ (p.enterHeld 2 b.val).QuietFor b := Iff.rfl
    exact same.2 (held.quietFor quiet)
  have burner : (p.grant 2).burners[b] = p.burners[b] := by
    rw [told]
    exact line.burner_eq b
  have ramped : (p.grant 2).ramps[b] = some { r with ramping := true, elapsed := 0, nextStep := nextMultiple p.now 1000 } := by
    rw [told]
    refine (line.ramp_eq b).trans ((set_self ..).trans ?_)
    show p.ramps[b].map _ = _
    rw [ramp]
    rfl
  have holds : (p.grant 2).holdsFor 2 b.val := by
    rw [told]
    exact (line.holdsFor 2 _).2 (Part.enterHeld_holds user)
  have kept := Part.settleAll_quiet still (by rw [burner]; intro e; rw [e] at fires; exact nomatch fires)
  exact ⟨kept.mixChange holds, kept.ramp.trans ramped⟩

/-! ## The obligation -/

theorem Part.settled_list (user : p.claims[k].user = some u) (sorted : p.claims[k].waitList.Pairwise (· < ·)) :
    u ∉ (p.grant k).settleAll.claims[k].waitList := fun mem => by
  rcases Part.settleAll_list _ u mem with there | ⟨rfl, b, rfl, held⟩
  · exact Part.grant_list user sorted there
  · rw [(Part.grant_burner user).1] at held
    exact Burner.lit_notHeld _ _ held

end

/-- Settles O31. -/
theorem settleDeadlineGrants : Obligations.SettleDeadlineGrants := by
  unfold Obligations.SettleDeadlineGrants
  refine fun p k => ⟨fun idle => takes_row rfl ?_, fun t u state due user => ?_⟩
  · dsimp only
    by_cases claiming : p.claims[k].state = .claiming
    · rw [if_pos claiming, idle.resolve_left (not_not.2 claiming)]
      rfl
    · exact if_neg claiming
  · have frame := Part.settleAll_frame (p.grant k)
    have now := frame.now_eq.trans ((p.grant_frame k).now_eq (by simp [userBlocks]))
    have list := Part.settled_list user
    have queued := fun s l room => frame.queued (Part.grant_requests user s l room)
    have reported := frame.reported (Part.grant_reported user)
    rw [← now] at reported
    refine takesAt_row (f := fun p => (p.grant k).settleAll) rfl ((if_pos state).trans (by rw [due])) fun _ =>
      ⟨now, list, queued, reported, ?_, ?_, ?_⟩
    · rintro n rfl rfl
      obtain ⟨holds, fan⟩ := Part.settled_fan user
      rw [now]
      refine ⟨holds, ?_⟩
      generalize (p.grant 1).settleAll = q at fan ⊢
      exact fan
    · rintro b rfl rfl quiet
      obtain ⟨holds, burner, igniter⟩ := Part.settled_burner user quiet
      rw [burner, igniter, now]
      refine ⟨holds, fun loads => ?_, fun lights => ?_⟩
      · rw [Burner.lit, if_pos loads, loads]
        exact ⟨rfl, rfl, rfl⟩
      · rw [Burner.lit, if_neg lights]
        exact ⟨rfl, by simpa [-Fin.getElem_fin] using lights, rfl⟩
    · rintro b r rfl rfl quiet fires ramp
      rw [now]
      exact Part.settled_ramp user quiet fires ramp

end Sys2Proof.Machine
end

section
/-! OBLIGATION O41. A mix set, and the steps of a mix ramp. -/

namespace Sys2Proof.Machine

-- One proof at a time: the whole package as one text must not start a thread for each of them.
set_option Elab.async false

open Sys2Proof.Config

section
variable {p : Part} {b : Fin 2} {m : Vector Nat 6}

/-! ## SET MIX (R114, R115, R117) -/

theorem Part.mixGood_iff : p.mixGood b m = true ↔ (∀ f : Fin 6, m[f] ≤ 1000) ∧ (∀ f : Fin 6, f ∉ p.feedersOf b → m[f] = 0) ∧
    ((p.feedersOf b).map fun f => m[f]).sum = 1000 := by
  simp only [Part.mixGood, sumOver_eq_sum, Bool.and_eq_true, beq_iff_eq, List.all_eq_true, decide_eq_true_eq, Bool.or_eq_true,
    List.contains_iff_mem, feederIds, List.mem_finRange, true_imp_iff, ← and_assoc, forall_and]
  refine and_congr_left fun _ => and_congr_right fun _ => forall_congr' fun f => ?_
  exact ⟨fun h out => h.resolve_right out, fun h => (em (f ∈ p.feedersOf b)).elim .inr fun out => .inl (h out)⟩

theorem vector_six (m : Vector Nat 6) : #v[m[0], m[1], m[2], m[3], m[4], m[5]] = m :=
  Vector.ext fun i lt => by
    match i, lt with
    | 0, _ | 1, _ | 2, _ | 3, _ | 4, _ | 5, _ => rfl

theorem takes_setMix {q : Part} (started : p.started = true) (used : p.burners[b].cfg.used = true)
    (h : (if !p.mixGood b m then p.reply 0x34 .badOperand
      else if p.burners[b].state.fires && p.ramps[b].isNone && p.line.silent then p.reply 0x34 .noLine
      else ((p.setMix b m).settle).reply 0x34 .done) = q) :
    Takes (.setMix b.val m[0] m[1] m[2] m[3] m[4] m[5]) p q := by
  refine takes_row rfl ((Part.burnerCommand_used started used _).trans ?_)
  dsimp only
  rw [vector_six]
  exact h

/-- What the end of the event leaves of fractions, mix ramps and who wants MIX-CHANGE. -/
structure MixSettled (q r : Part) : Prop where
  mix : ∀ f : Fin 6, r.feeders[f].mix = q.feeders[f].mix
  ramps : r.ramps = q.ramps
  wants : ∀ u, u ∈ q.claims[(2 : Fin 3)].waitList ∨ q.holdsFor 2 u → u ∈ r.claims[(2 : Fin 3)].waitList ∨ r.holdsFor 2 u
  holds : ∀ u, r.holdsFor 2 u → q.holdsFor 2 u

theorem ChangesOnly.mix_eq {T : Set Block} {q : Part} (h : ChangesOnly T p q) (f : Fin 6)
    (hT : Block.feeder f ∉ T := by simp) : q.feeders[f].mix = p.feeders[f].mix := by
  have measured : q.feeders[f].measured = p.feeders[f].measured := h.same (.feeder f) hT
  have same := congrArg Feeder.mix measured
  exact same

theorem ChangesOnly.ramps_eq {T : Set Block} {q : Part} (h : ChangesOnly T p q) (hT : ∀ b : Fin 2, Block.ramp b ∉ T := by simp) :
    q.ramps = p.ramps := Vector.ext fun i lt => h.ramp_eq ⟨i, lt⟩ (hT _)

theorem Part.settle_mix (q : Part) : MixSettled q q.settle :=
  ⟨fun f => q.settle_frame.mix_eq f, q.settle_frame.ramps_eq, fun _ => Part.settle_wants,
    fun u => (Part.settle_onward (L := fun _ => True) fun _ _ => trivial).holds 2 u⟩

/-- A SET MIX that is taken: what holds of the mix set holds of the part left. -/
theorem setMix_taken {after : Part → Prop} (started : p.started = true) (used : p.burners[b].cfg.used = true)
    (good : p.mixGood b m = true) (line : p.burners[b].state.fires = true → p.ramps[b] = none → p.line.silent = false)
    (h : ∀ r : Part, MixSettled (p.setMix b m) r → after r) :
    ∃ q, Takes (.setMix b.val m[0] m[1] m[2] m[3] m[4] m[5]) p q ∧ q.host = p.host.answered 0x34 .done [] ∧ after q := by
  have frame := (p.setMix_frame b m).andThen (Part.settle_frame _)
  have heard : ¬ ((p.burners[b].state.fires && p.ramps[b].isNone && p.line.silent) = true) := by
    simp only [Bool.and_eq_true, Option.isNone_iff_eq_none]
    rintro ⟨⟨fires, none⟩, silent⟩
    exact absurd (silent.symm.trans (line fires none)) (by decide)
  have taken := takes_setMix (m := m) started used (by rw [good, if_neg (by decide), if_neg heard])
  have settled := (p.setMix b m).settle_mix
  rw [frame.answered_eq 0x34 .done []] at taken
  generalize (p.setMix b m).settle = r at taken settled
  exact ⟨_, taken, rfl, h _ ⟨settled.mix, settled.ramps, settled.wants, settled.holds⟩⟩

/-- A mix ramp removed, and MIX-CHANGE given up. -/
theorem Part.dropRamp_ramp (b : Fin 2) (p : Part) : ((p.setRamp b none).withdraw 2 b.val).ramps[b] = none ∧
    ¬ ((p.setRamp b none).withdraw 2 b.val).holdsFor 2 b.val ∧
    ∀ f : Fin 6, ((p.setRamp b none).withdraw 2 b.val).feeders[f].mix = p.feeders[f].mix := by
  have left := Part.withdraw_frame 2 b.val (p.setRamp b none)
  exact ⟨(left.ramp_eq b).trans (set_self ..), Part.withdraw_holdsNot 2 _ _, fun f => left.mix_eq f⟩

theorem Part.makeRamp_ramp (started : p.started = true) (heard : p.line.silent = false) :
    (p.makeRamp b m).ramps[b] = some ⟨false, p.presentMix b, m, p.cfg.mixTime, 0, 0⟩ ∧
    (b.val ∈ (p.makeRamp b m).claims[(2 : Fin 3)].waitList ∨ (p.makeRamp b m).holdsFor 2 b.val) ∧
    ∀ f : Fin 6, (p.makeRamp b m).feeders[f].mix = p.feeders[f].mix := by
  have asked := Part.request_frame 2 b.val (p.setRamp b (some ⟨false, p.presentMix b, m, p.cfg.mixTime, 0, 0⟩))
  exact ⟨(asked.ramp_eq b).trans (set_self ..), Part.request_wants started heard, fun f => asked.mix_eq f⟩

/-! ## MIX_RAMP_STEP (R116) -/

/-- Of a list without repetitions, f itself is what lies up to f and not below it. -/
theorem sumOver_upTo {l : List (Fin 6)} (once : l.Nodup) {f : Fin 6} (mem : f ∈ l) (g : Fin 6 → Nat) :
    sumOver (l.filter (· ≤ f)) g = sumOver (l.filter (· < f)) g + g f := by
  simp only [sumOver_eq_sum]
  induction l with
  | nil => cases mem
  | cons a l ih =>
    obtain ⟨fresh, once⟩ := List.nodup_cons.1 once
    rcases List.mem_cons.1 mem with rfl | mem
    · have same : l.filter (· ≤ f) = l.filter (· < f) := List.filter_congr fun x hx => by
        have ne : x ≠ f := fun e => fresh (e ▸ hx)
        simp [le_iff_lt_or_eq, ne]
      rw [List.filter_cons_of_pos (by simp), List.filter_cons_of_neg (by simp), same, List.map_cons, List.sum_cons]
      exact Nat.add_comm _ _
    · have ne : a ≠ f := fun e => fresh (e ▸ mem)
      by_cases lt : a < f
      · rw [List.filter_cons_of_pos (by simp [lt.le]), List.filter_cons_of_pos (by simp [lt]), List.map_cons, List.sum_cons,
          List.map_cons, List.sum_cons, ih once mem, Nat.add_assoc]
      · have gt : ¬ a ≤ f := fun le => lt (lt_of_le_of_ne le ne)
        rw [List.filter_cons_of_neg (by simp [gt]), List.filter_cons_of_neg (by simp [lt]), ih once mem]

/-- At its last step a mix ramp stands at its target. -/
theorem Part.steppedMix_last {r : MixRamp} (time : 0 < r.time) (last : r.elapsed = r.time) {f : Fin 6} (mem : f ∈ p.feedersOf b) :
    (p.steppedMix b r)[f] = r.target[f] := by
  have whole (l : List (Fin 6)) : r.cumulativeOver l = sumOver l fun g => r.target[g] := by
    unfold MixRamp.cumulativeOver cumulative
    rw [last, Nat.sub_self, Nat.mul_zero, Nat.zero_add, Nat.mul_div_cancel _ time]
  have once : (p.feedersOf b).Nodup := (List.nodup_finRange 6).filter _
  rw [p.steppedMix_get b r f mem, whole, whole, sumOver_upTo once mem]
  exact Nat.add_sub_cancel_left _ _

/-- The record one step on (R116). -/
def MixRamp.oneStep (r : MixRamp) : MixRamp := { r with elapsed := r.elapsed + 1, nextStep := nextMultiple r.nextStep second }

theorem Part.rampStep_more {r : MixRamp} (more : r.elapsed + 1 < r.time) :
    p.rampStep b r = (p.replaceMix b (p.steppedMix b r.oneStep)).setRamp b (some r.oneStep) :=
  if_neg (show ¬ r.time ≤ r.elapsed + 1 by omega)

theorem Part.rampStep_last {r : MixRamp} (last : r.elapsed + 1 = r.time) :
    p.rampStep b r = ((p.replaceMix b (p.steppedMix b r.oneStep)).setRamp b none).withdraw 2 b.val :=
  if_pos (show r.time ≤ r.elapsed + 1 by omega)

/-- The fractions after a step. -/
theorem Part.rampStep_mix (b : Fin 2) (r : MixRamp) (p : Part) (f : Fin 6) : (p.rampStep b r).feeders[f].mix =
    if f ∈ p.feedersOf b then (p.steppedMix b r.oneStep)[f] else p.feeders[f].mix := by
  rw [← p.replaceMix_mix b (p.steppedMix b r.oneStep) f]
  have ends := Part.dropRamp_ramp b (p.replaceMix b (p.steppedMix b r.oneStep))
  exact ite_keeps (I := fun q => q.feeders[f].mix = (p.replaceMix b (p.steppedMix b r.oneStep)).feeders[f].mix)
    (fun _ => ends.2.2 f) fun _ => rfl

theorem Part.rampStep_ramp (b : Fin 2) (r : MixRamp) (p : Part) :
    (r.elapsed + 1 < r.time → (p.rampStep b r).ramps[b] = some r.oneStep) ∧
    (r.elapsed + 1 = r.time → (p.rampStep b r).ramps[b] = none ∧ ¬ (p.rampStep b r).holdsFor 2 b.val) := by
  refine ⟨fun more => ?_, fun last => ?_⟩
  · rw [Part.rampStep_more more]
    exact set_self ..
  · obtain ⟨ramp, holds, -⟩ := Part.dropRamp_ramp b (p.replaceMix b (p.steppedMix b r.oneStep))
    rw [Part.rampStep_last last]
    exact ⟨ramp, holds⟩

/-- What a step leaves of a part whose fractions are those of `Part.rampStep_mix`. -/
theorem stepped_sums {q : Part} {r : MixRamp} (time : 0 < r.time) (within : r.elapsed < r.time)
    (mix : ∀ f : Fin 6, q.feeders[f].mix = if f ∈ p.feedersOf b then (p.steppedMix b r.oneStep)[f] else p.feeders[f].mix) :
    (∀ f ∈ p.feedersOf b,
      (((p.feedersOf b).filter (· ≤ f)).map fun g => q.feeders[g].mix).sum =
        ((((p.feedersOf b).filter (· ≤ f)).map fun g => r.old[g]).sum * (r.time - (r.elapsed + 1)) +
          (((p.feedersOf b).filter (· ≤ f)).map fun g => r.target[g]).sum * (r.elapsed + 1)) / r.time) ∧
    (∀ f : Fin 6, f ∉ p.feedersOf b → q.feeders[f].mix = p.feeders[f].mix) ∧
    (((p.feedersOf b).map fun f => r.old[f]).sum = 1000 → ((p.feedersOf b).map fun f => r.target[f]).sum = 1000 →
      ((p.feedersOf b).map fun f => q.feeders[f].mix).sum = 1000) ∧
    (r.elapsed + 1 = r.time → ∀ f ∈ p.feedersOf b, q.feeders[f].mix = r.target[f]) := by
  have own {f : Fin 6} (mem : f ∈ p.feedersOf b) : q.feeders[f].mix = (p.steppedMix b r.oneStep)[f] := by rw [mix, if_pos mem]
  refine ⟨fun f _ => ?_, fun f out => by rw [mix, if_neg out], fun old target => ?_, fun last f mem => ?_⟩
  · have upTo := p.steppedMix_upTo b r.oneStep f
    rw [← sumOver_congr fun g hg => own (List.mem_filter.1 hg).1, MixRamp.cumulativeOver, cumulative] at upTo
    simp only [sumOver_eq_sum] at upTo
    exact upTo
  · have whole := p.steppedMix_sum b r.oneStep
    rw [← sumOver_eq_sum] at old target
    rw [MixRamp.cumulativeOver_whole (r := r.oneStep) old target time within, ← sumOver_congr fun g hg => own hg] at whole
    rwa [← sumOver_eq_sum]
  · rw [own mem]
    exact Part.steppedMix_last (r := r.oneStep) time last mem

end

/-! ## The obligation -/

theorem setMix_part (p : Part) (b : Fin 2) (m : Vector Nat 6) (started : p.started = true)
    (used : p.burners[b].cfg.used = true) :
    let row := Instr.setMix b.val m[0] m[1] m[2] m[3] m[4] m[5]
    let good := p.mixGood b m = true
    (¬ good → Takes row p (p.answer 0x34 .badOperand [])) ∧
    (good → p.burners[b].state.fires = true → p.ramps[b] = none → p.line.silent = true →
      Takes row p (p.answer 0x34 .noLine [])) ∧
    (good → p.ramps[b] = none → p.burners[b].state.fires = false → ∃ q, Takes row p q ∧
      q.host = p.host.answered 0x34 .done [] ∧ q.ramps = p.ramps ∧
      ∀ f : Fin 6, q.feeders[f].mix = if f ∈ p.feedersOf b then m[f] else p.feeders[f].mix) ∧
    (good → p.ramps[b] = none → p.burners[b].state.fires = true → p.line.silent = false → ∃ q, Takes row p q ∧
      q.host = p.host.answered 0x34 .done [] ∧ (∀ f : Fin 6, q.feeders[f].mix = p.feeders[f].mix) ∧
      (m = p.presentMix b → q.ramps[b] = none) ∧
      (m ≠ p.presentMix b → q.ramps[b] = some ⟨false, p.presentMix b, m, p.cfg.mixTime, 0, 0⟩ ∧
        (b.val ∈ q.claims[(2 : Fin 3)].waitList ∨ q.holdsFor 2 b.val))) ∧
    (∀ r, good → p.ramps[b] = some r → ∃ q, Takes row p q ∧
      q.host = p.host.answered 0x34 .done [] ∧ (∀ f : Fin 6, q.feeders[f].mix = p.feeders[f].mix) ∧
      (m = p.presentMix b → q.ramps[b] = none ∧ ¬ q.holdsFor 2 b.val) ∧
      (m ≠ p.presentMix b → q.ramps[b] =
        some { r with target := m, old := p.presentMix b, elapsed := 0, nextStep := nextMultiple p.now 1000 })) := by
  refine ⟨fun bad => ?_, fun good fires none silent => ?_, fun good none idle => ?_, fun good none fires heard => ?_,
    fun r good ramp => ?_⟩
  · exact takes_setMix started used (by rw [Bool.eq_false_iff.2 bad]; rfl)
  · exact takes_setMix started used (by rw [good, fires, none, silent]; rfl)
  · have set : p.setMix b m = p.replaceMix b m := by rw [Part.setMix, none, idle]; rfl
    refine setMix_taken started used good (fun fires => absurd (fires.symm.trans idle) (by decide)) fun q settled => ?_
    rw [settled.ramps, set, (p.replaceMix_frame b m).ramps_eq]
    exact ⟨rfl, fun f => by rw [settled.mix, set, p.replaceMix_mix]⟩
  · refine setMix_taken started used good (fun _ _ => heard) fun q settled => ?_
    by_cases same : m = p.presentMix b
    · have set : p.setMix b m = p := by rw [Part.setMix, none, fires]; exact if_pos same
      rw [set] at settled
      exact ⟨settled.mix, fun _ => by rw [settled.ramps, none], fun ne => absurd same ne⟩
    · have set : p.setMix b m = p.makeRamp b m := by rw [Part.setMix, none, fires]; exact if_neg same
      obtain ⟨ramp, wants, mix⟩ := Part.makeRamp_ramp (b := b) (m := m) started heard
      rw [set] at settled
      exact ⟨fun f => (settled.mix f).trans (mix f), fun e => absurd e same, fun _ =>
        ⟨by rw [settled.ramps, ramp], settled.wants _ wants⟩⟩
  · refine setMix_taken started used good (fun _ none => nomatch ramp.symm.trans none) fun q settled => ?_
    by_cases same : m = p.presentMix b
    · have set : p.setMix b m = (p.setRamp b none).withdraw 2 b.val := by rw [Part.setMix, ramp]; exact if_pos same
      obtain ⟨gone, free, mix⟩ := p.dropRamp_ramp b
      rw [set] at settled
      exact ⟨fun f => (settled.mix f).trans (mix f), fun _ => ⟨by rw [settled.ramps, gone], fun h => free (settled.holds _ h)⟩,
        fun ne => absurd same ne⟩
    · have set : p.setMix b m = p.setRamp b (some { r with
          target := m, old := p.presentMix b, elapsed := 0, nextStep := nextMultiple p.now second }) := by
        rw [Part.setMix, ramp]
        exact if_neg same
      rw [set] at settled
      exact ⟨settled.mix, fun e => absurd e same, fun _ => by rw [settled.ramps]; exact set_self ..⟩

/-- Settles O41: a SET MIX by `setMix_taken`, a step by its cumulative mixes (`stepped_sums`). -/
theorem mixChanges : Obligations.MixChanges := by
  unfold Obligations.MixChanges
  refine ⟨fun p b m started used => ?_, fun p b => ⟨fun none => takes_row rfl (by dsimp only; rw [none]), fun r ramp =>
    ⟨fun rests => takes_row rfl ?_, fun ramping time within => ?_⟩⟩⟩
  · have parts := setMix_part p b m started used
    simpa only [Part.mixGood_iff] using parts
  · dsimp only
    rw [ramp]
    exact if_neg (by rw [rests]; decide)
  · have frame := (p.rampStep_frame b r).andThen (Part.settle_frame _)
    have settled := (p.rampStep b r).settle_mix
    have sums := stepped_sums (q := (p.rampStep b r).settle) time within fun f =>
      (settled.mix f).trans (p.rampStep_mix b r f)
    have ramps := p.rampStep_ramp b r
    have now := frame.now_eq
    refine takesAt_row (f := fun p => (p.rampStep b r).settle) rfl (by dsimp only; rw [ramp]; exact if_pos ramping) fun _ => ?_
    generalize (p.rampStep b r).settle = q at settled sums now
    obtain ⟨upTo, others, whole, last⟩ := sums
    refine ⟨now, upTo, others, whole, fun more => ?_, fun ends => ⟨?_, ?_, last ends⟩⟩
    · rw [settled.ramps, ramps.1 more]
      rfl
    · rw [settled.ramps, (ramps.2 ends).1]
    · exact fun h => (ramps.2 ends).2 (settled.holds _ h)

end Sys2Proof.Machine
end

section
/-! OBLIGATION O43. The timers of conditions, and the air hold. -/

namespace Sys2Proof.Machine

-- One proof at a time: the whole package as one text must not start a thread for each of them.
set_option Elab.async false

open Sys2Proof.Config

/-! ## Condition timers -/

theorem timerDue_runs (d : Nat) {t : Time} {x : Option Timer} (runs : x = some ⟨t, false⟩) : timerDue d x = some (later t d) := by
  rw [runs]
  rfl

theorem timerDue_none (d : Nat) {x : Option Timer} (idle : ∀ t, x ≠ some ⟨t, false⟩) : timerDue d x = none := by
  rcases x with _ | ⟨t, _ | _⟩
  · rfl
  · exact absurd rfl (idle t)
  · rfl

section
variable {p : Part} {i : Fin 62}

/-- A point of a list of points that trip nothing is found as the event has left the other registers. -/
theorem Part.settleQuiet_at {l : List (Fin 62)} (quiet : ∀ j ∈ l, j ∈ quietPoints) (once : l.Nodup) (mem : i ∈ l) (p : Part) :
    ∃ q, ChangesOnly pointBlocks p q ∧ (p.settlePoints l).alarms.points[i].eff = q.effective i := by
  induction l generalizing p with
  | nil => cases mem
  | cons a l ih =>
    obtain ⟨fresh, once⟩ := List.nodup_cons.1 once
    have unroll : p.settlePoints (a :: l) = (p.settlePoint a).settlePoints l := rfl
    rw [unroll]
    rcases List.mem_cons.1 mem with rfl | mem
    · exact ⟨p, .refl, by rw [Part.settlePoints_absent fresh, Part.settlePoint_eff]⟩
    · obtain ⟨q, upTo, found⟩ := ih (fun j h => quiet j (List.mem_cons_of_mem a h)) once mem (p.settlePoint a)
      have first := (p.settlePoint_frame a false).2 (p.quiet_attr a (quiet a List.mem_cons_self))
      exact ⟨q, first.trans upTo, found⟩

/-- Where `settle` does not move its condition, a point that trips nothing follows it. -/
theorem Part.settle_eff (mem : i ∈ quietPoints) (same : ∀ q, ChangesOnly settleBlocks p q → q.condition i = p.condition i) :
    p.settle.alarms.points[i].eff = p.effective i := by
  obtain ⟨q, upTo, found⟩ := Part.settleQuiet_at (fun _ => id) quietPoints_nodup mem (((p.serviceAll).freezeAll).evaluate)
  have frame : ChangesOnly settleBlocks p q :=
    (((p.serviceAll_frame.mono).next (Part.freezeAll_frame _)).next (Part.evaluate_frame _)).next upTo
  have attr : q.pointAttr i = p.pointAttr i := Part.pointAttr_congr (fun n => by rw [frame.ext_eq]) i
  rw [p.settle_eq, found, Part.effective, Part.effective, Part.pointArmed, Part.pointArmed, same q frame, frame.started_eq,
    frame.mode_eq, attr]

/-- FLAME WEAK and BED PRESSURE HIGH (R140): armed in HEAT-UP and RUN. -/
theorem running_points : ∀ i : Fin 62, i = 12 ∨ i = 16 ∨ i = 44 →
    ((Part.powerUp 0 0 false).pointAttr i).mask = 6 ∧ i.val < 46 ∧ i ∈ quietPoints := by decide

theorem Part.settle_raises (named : i = 12 ∨ i = 16 ∨ i = 44) (started : p.started = true) (mode : p.mode = .heatUp ∨ p.mode = .run)
    (same : ∀ q, ChangesOnly settleBlocks p q → q.condition i = p.condition i) (condition : p.condition i = true) :
    p.settle.alarms.points[i].eff = true := by
  obtain ⟨mask, internal, quiet⟩ := running_points i named
  rw [Part.settle_eff quiet same, Part.effective, started, condition,
    Part.pointArmed, p.internal_attr (.powerUp 0 0 false) i internal, mask]
  rcases mode with m | m <;> rw [m] <;> rfl

theorem Part.condition_weak (p : Part) (b : Fin 2) : p.condition (if b = 0 then 12 else 16) = p.burners[b].weak.any (·.passed) := by
  match b with
  | 0 | 1 => rfl

theorem Part.condition_bedHigh (p : Part) : p.condition 44 = p.bedHighActive := rfl

end

/-! ## The air hold ends (R61, R62) -/

section
variable {T : Set Block} {p q : Part}

theorem ChangesOnly.airKnown_eq (h : ChangesOnly T p q)
    (hT : Block.straps ∉ T ∧ (∀ y : Fin 16, Block.peer y ∉ T) := by simp) (own : Block.air ∉ T ∧ Block.cfg ∉ T := by simp) :
    q.airKnown = p.airKnown := by
  have air : q.air = p.air := h.same .air own.1
  unfold Part.airKnown
  rw [air, h.cfg_eq own.2, show q.fresh = p.fresh from funext fun x => h.fresh_eq x hT]

theorem Part.stageDemand_ceiling (p : Part) (a : Alloc) : (p.stageDemand a).ceilState = a.ceilState := by
  unfold Part.stageDemand
  split <;> rfl

/-- An evaluation in FALLBACK with no air known stays there (R61), limited by the fallback ceiling (R62). -/
theorem Part.evaluated_fallback (ceiling : p.cfg.airCeiling = true) (unknown : p.airKnown = false)
    (state : p.alloc.ceilState = .fallback) :
    p.evaluated.ceilState = .fallback ∧ p.evaluated.ceiling = some p.cfg.fallback ∧ p.evaluated.holdDeadline = none ∧
    p.evaluated.dEff = min p.evaluated.demand p.cfg.fallback ∧
    p.evaluated.airLimited = decide (p.cfg.fallback < p.evaluated.demand) := by
  have stage : p.stageCeiling (p.stageDemand p.alloc) = { p.stageDemand p.alloc with
      ceilState := .fallback, airSum := p.airSum, ceiling := some p.cfg.fallback, holdDeadline := none } := by
    unfold Part.stageCeiling
    rw [ceiling, unknown, p.stageDemand_ceiling, state]
    rfl
  unfold Part.evaluated
  rw [stage]
  refine ⟨rfl, rfl, rfl, rfl, ?_⟩
  show decide (min (p.stageDemand p.alloc).demand p.cfg.fallback < (p.stageDemand p.alloc).demand) =
    decide (p.cfg.fallback < (p.stageDemand p.alloc).demand)
  exact decide_eq_decide.2 (by omega)

/-- The end of an air hold (R61). -/
def Part.holdEnded (p : Part) : Part :=
  { p with alloc := { p.alloc with ceilState := .fallback, ceiling := some p.cfg.fallback, holdDeadline := none } }

theorem Part.holdEnded_settle (started : p.started = true) (zone : p.cfg.zone ≠ .none) (ceiling : p.cfg.airCeiling = true)
    (unknown : p.airKnown = false) :
    p.holdEnded.settle.alloc.ceilState = .fallback ∧ p.holdEnded.settle.alloc.ceiling = some p.cfg.fallback ∧
    p.holdEnded.settle.alloc.holdDeadline = none ∧
    p.holdEnded.settle.alloc.dEff = min p.holdEnded.settle.alloc.demand p.cfg.fallback ∧
    p.holdEnded.settle.alloc.airLimited = decide (p.cfg.fallback < p.holdEnded.settle.alloc.demand) := by
  have before := p.holdEnded.serviceAll_frame.andThen (Part.freezeAll_frame _)
  have cfg : p.holdEnded.serviceAll.freezeAll.cfg = p.cfg := before.cfg_eq
  have known := before.airKnown_eq
  obtain ⟨z, kept⟩ := p.holdEnded.serviceAll.freezeAll_alloc
  have same : p.holdEnded.serviceAll.alloc = p.holdEnded.alloc := p.holdEnded.serviceAll_frame.alloc_eq
  rw [Part.settle_alloc (p := p.holdEnded) started zone, ← cfg]
  refine Part.evaluated_fallback (by rw [cfg]; exact ceiling) (known.trans unknown) ?_
  rw [kept, same]
  rfl

end

/-- Settles O43. -/
theorem conditionTimersPass : Obligations.ConditionTimersPass := by
  unfold Obligations.ConditionTimersPass
  refine fun p => ⟨fun f => ⟨fun t runs => ?_, fun t runs => ?_, fun idle => takes_row rfl ?_, fun idle => takes_row rfl ?_⟩,
    fun b => ⟨fun t firing runs => ?_, fun idle => takes_row rfl ?_⟩, fun t runs => ?_, fun idle => takes_row rfl ?_,
    fun idle => takes_row rfl ?_, fun t state due => ?_⟩
  · have passed : (p.updFeeder f fun x => { x with devTimer := x.devTimer.map Timer.pass }) =
        { p with feeders := p.feeders.set f { p.feeders[f] with devTimer := some ⟨t, true⟩ } } := by
      rw [Part.updFeeder, runs]
      rfl
    have now := (Part.settle_frame { p with feeders := p.feeders.set f { p.feeders[f] with devTimer := some ⟨t, true⟩ } }).now_eq
    exact takesAt_row (f := fun p => (p.updFeeder f fun x => { x with devTimer := x.devTimer.map Timer.pass }).settle) rfl
      (by dsimp only; rw [timerDue_runs 20000 runs]) fun _ => by rw [passed]; exact ⟨now, rfl⟩
  · have passed : (p.updFeeder f fun x => { x with noFlow := x.noFlow.map Timer.pass }) =
        { p with feeders := p.feeders.set f { p.feeders[f] with noFlow := some ⟨t, true⟩ } } := by
      rw [Part.updFeeder, runs]
      rfl
    have now := (Part.settle_frame { p with feeders := p.feeders.set f { p.feeders[f] with noFlow := some ⟨t, true⟩ } }).now_eq
    exact takesAt_row (f := fun p => (p.updFeeder f fun x => { x with noFlow := x.noFlow.map Timer.pass }).settle) rfl
      (by dsimp only; rw [timerDue_runs 10000 runs]) fun _ => by rw [passed]; exact ⟨now, rfl⟩
  · dsimp only
    rw [timerDue_none 20000 idle]
    rfl
  · dsimp only
    rw [timerDue_none 10000 idle]
    rfl
  · have passed : (p.updBurner b fun x => { x with weak := x.weak.map Timer.pass }) =
        { p with burners := p.burners.set b { p.burners[b] with weak := some ⟨t, true⟩ } } := by
      rw [Part.updBurner, runs]
      rfl
    have frame := Part.settle_frame { p with burners := p.burners.set b { p.burners[b] with weak := some ⟨t, true⟩ } }
    have burner := (frame.burner_eq b).trans (set_self ..)
    have point := fun (started : p.started = true) (mode : p.mode = .heatUp ∨ p.mode = .run) => Part.settle_raises
      (p := { p with burners := p.burners.set b { p.burners[b] with weak := some ⟨t, true⟩ } })
      (i := if b = 0 then 12 else 16) (by split <;> simp) started mode (fun q frame => by
        rw [Part.condition_weak, Part.condition_weak, frame.burner_eq b])
      (by rw [Part.condition_weak, set_self]; rfl)
    have due : p.weakDue b = some (later t 5000) := (if_pos firing).trans (timerDue_runs 5000 runs)
    refine takesAt_row (f := fun p => (p.updBurner b fun x => { x with weak := x.weak.map Timer.pass }).settle) rfl
      (by dsimp only; rw [due]) fun _ => ?_
    rw [passed]
    exact ⟨frame.now_eq, burner, point⟩
  · have none : p.weakDue b = none := by
      unfold Part.weakDue
      split
      · next firing => exact timerDue_none 5000 (idle.resolve_left (not_not.2 firing))
      · rfl
    dsimp only
    rw [none]
    rfl
  · have passed : (p.updGrate fun g => { g with bedHigh := g.bedHigh.map Timer.pass }) =
        { p with grate := { p.grate with bedHigh := some ⟨t, true⟩ } } := by
      rw [Part.updGrate, runs]
      rfl
    have frame := Part.settle_frame { p with grate := { p.grate with bedHigh := some ⟨t, true⟩ } }
    have grate := frame.grate_eq
    have point := fun (started : p.started = true) (used : p.grate.cfg.used = true)
        (mode : p.mode = .heatUp ∨ p.mode = .run) => Part.settle_raises (p := { p with grate := { p.grate with bedHigh := some ⟨t, true⟩ } })
      (i := 44) (.inr (.inr rfl)) started mode (fun q frame => by
        rw [Part.condition_bedHigh, Part.condition_bedHigh, Part.bedHighActive, Part.bedHighActive, frame.grate_eq, frame.started_eq])
      (by rw [Part.condition_bedHigh, Part.bedHighActive, started, used]; rfl)
    refine takesAt_row (f := fun p => (p.updGrate fun g => { g with bedHigh := g.bedHigh.map Timer.pass }).settle) rfl
      (by dsimp only; rw [timerDue_runs 10000 runs]) fun _ => ?_
    rw [passed]
    exact ⟨frame.now_eq, grate, point⟩
  · dsimp only
    rw [timerDue_none 10000 idle]
    rfl
  · dsimp only
    by_cases holds : p.alloc.ceilState = .hold
    · rw [if_pos holds, idle.resolve_left (not_not.2 holds)]
      rfl
    · exact if_neg holds
  · have now := p.holdEnded.settle_frame.now_eq
    have facts := fun started zone ceiling unknown => Part.holdEnded_settle (p := p) started zone ceiling unknown
    exact takesAt_row (f := fun p => p.holdEnded.settle) rfl ((if_pos state).trans (by rw [due]; rfl)) fun _ => ⟨now, facts⟩

end Sys2Proof.Machine
end

section
/-! OBLIGATION O18. RESTART STATION, block by block. -/

namespace Sys2Proof.Machine

-- One proof at a time: the whole package as one text must not start a thread for each of them.
set_option Elab.async false

open Sys2Proof.Config

/-! ## The line: the attempt in hand, then the restart releases (R24) -/

/-- Urgent frames keep their order. -/
theorem orderQueue_urgent {l : List TxFrame} (h : ∀ f ∈ l, f.body.urgent = true) : orderQueue l = l := by
  have none : l.filter (fun f => !f.body.urgent) = [] := List.filter_eq_nil_iff.2 fun f mem => by simp [h f mem]
  rw [orderQueue, List.filter_eq_self.2 h, none, List.append_nil]

/-- Behind urgent frames an urgent frame takes the last place. -/
theorem Line.place_urgent {l : Line} {f : TxFrame} (behind : ∀ g ∈ l.behindAttempt, g.body.urgent = true)
    (urgent : f.body.urgent = true) : l.place f = { l with queue := l.queue ++ [f] } ∧
    ∀ g ∈ (l.place f).behindAttempt, g.body.urgent = true := by
  have placed : l.place f = { l with queue := l.queue ++ [f] } := by
    unfold Line.place
    unfold Line.behindAttempt at behind
    split
    · next idle =>
      rw [if_pos idle] at behind
      rw [orderQueue_urgent (by simpa [or_imp, forall_and, urgent] using behind)]
    · next h t queue apart =>
      rw [if_neg (fun idle => apart idle), queue, List.tail_cons] at behind
      rw [orderQueue_urgent (by simpa [or_imp, forall_and, urgent] using behind), queue]
      rfl
    · next queue _ => rw [queue]; rfl
  refine ⟨placed, ?_⟩
  rw [placed]
  unfold Line.behindAttempt at behind ⊢
  dsimp only
  split
  · next idle =>
    rw [if_pos idle] at behind
    simpa [or_imp, forall_and, urgent] using behind
  · next busy =>
    rw [if_neg busy] at behind
    cases queue : l.queue with
    | nil => simp
    | cons h t =>
      rw [queue] at behind
      simpa [or_imp, forall_and, urgent] using behind

/-- The line with frames put behind those that stand in its queue. -/
def Line.behind (fs : List TxFrame) (tag : Nat) (l : Line) : Line := { l with queue := l.queue ++ fs, nextTag := tag }

/-- Whose resource a restart releases (R53). -/
def Part.releases (p : Part) (l : List (Fin 3)) : List (Fin 3) :=
  if p.line.silent then [] else l.filter fun k => p.claims[k].state = .held ∨ p.claims[k].state = .claiming

theorem Part.restartReleases_line (l : List (Fin 3)) {p : Part} (behind : ∀ g ∈ p.line.behindAttempt, g.body.urgent = true) :
    ∃ fs tag, p.forAll l Part.restartRelease = { p with line := p.line.behind fs tag } ∧
      fs.map TxFrame.body = (p.releases l).map .release := by
  induction l generalizing p with
  | nil =>
    refine ⟨[], p.line.nextTag, ?_, ?_⟩
    · rw [Line.behind, List.append_nil]
      rfl
    · rw [Part.releases, List.filter_nil, ite_self]
      rfl
  | cons k l ih =>
    by_cases taken : ((p.claims[k].state == .held || p.claims[k].state == .claiming) && !p.line.silent) = true
    · obtain ⟨placed, urgent⟩ := Line.place_urgent (f := ⟨.release k, 0, none, p.line.nextTag⟩) behind rfl
      obtain ⟨fs, tag, e, bodies⟩ := ih (p := p.place (.release k)) urgent
      have one : (p.place (.release k)).line = p.line.behind [⟨.release k, 0, none, p.line.nextTag⟩] (p.line.nextTag + 1) := by
        rw [Part.place, Part.updLine_line, placed]
        rfl
      simp only [Bool.and_eq_true, Bool.or_eq_true, beq_iff_eq, Bool.not_eq_true'] at taken
      refine ⟨⟨.release k, 0, none, p.line.nextTag⟩ :: fs, tag, ?_, ?_⟩
      · have unroll : p.forAll (k :: l) Part.restartRelease = (p.place (.release k)).forAll l Part.restartRelease :=
          congrArg (Part.forAll l Part.restartRelease) (if_pos (by simp [taken, -Fin.getElem_fin]))
        rw [unroll, e, one]
        simp only [Line.behind, List.append_assoc, List.singleton_append]
        rfl
      · have rest : (p.place (.release k)).releases l = p.releases l := by
          rw [Part.releases, one]
          rfl
        rw [List.map_cons, bodies, rest, Part.releases, Part.releases, if_neg (by simp [taken.2]), if_neg (by simp [taken.2])]
        have mine : (decide (p.claims[k].state = .held ∨ p.claims[k].state = .claiming)) = true := decide_eq_true taken.1
        rw [List.filter_cons, mine, if_pos rfl]
        rfl
    · obtain ⟨fs, tag, e, bodies⟩ := ih behind
      refine ⟨fs, tag, ?_, ?_⟩
      · have unroll : p.forAll (k :: l) Part.restartRelease = p.forAll l Part.restartRelease :=
          congrArg (Part.forAll l Part.restartRelease) (if_neg taken)
        rw [unroll, e]
      · rw [bodies]
        unfold Part.releases
        split
        · rfl
        · next heard =>
          rw [List.filter_cons_of_neg]
          simpa [heard, -Fin.getElem_fin] using taken

/-- The transmit queue after a restart. -/
theorem Part.restartLine_queued (p : Part) : ∃ fs tag, p.restartLine = { p with line := { p.line with
      queue := (if p.line.phase = .idle then [] else p.line.queue.take 1) ++ fs, nextTag := tag, silent := false,
      lastTry := p.line.phase != .idle, statusDue := none, txFail := false } } ∧
    fs.map TxFrame.body = (p.releases resourceIds).map .release := by
  have behind : ∀ g ∈ (p.updLine fun l => { l.emptyQueue with txFail := false }).line.behindAttempt, g.body.urgent = true := by
    intro g mem
    rw [Part.updLine_line, Line.behindAttempt, Line.emptyQueue] at mem
    dsimp only at mem
    split at mem
    · cases mem
    · cases queue : p.line.queue <;> simp [queue] at mem
  obtain ⟨fs, tag, e, bodies⟩ := Part.restartReleases_line resourceIds behind
  refine ⟨fs, tag, ?_, bodies⟩
  unfold Part.restartLine
  dsimp only
  rw [e]
  rfl

/-! ## Mix ramps end at their targets (R118) -/

/-- The mix ramp of one burner ended. -/
def Part.rampEnded (b : Fin 2) (p : Part) : Part :=
  match p.ramps[b] with
  | some r => (p.replaceMix b r.target).setRamp b none
  | none => p

theorem Part.rampsEnded_eq (p : Part) : p.rampsEnded = (p.rampEnded 0).rampEnded 1 := rfl

/-- The configuration and the lifetime totals of every feeder are as they were. -/
def SameMeters (p q : Part) : Prop := ∀ f : Fin 6, q.feeders[f].cfg = p.feeders[f].cfg ∧ q.feeders[f].kg = p.feeders[f].kg ∧
  q.feeders[f].kWh = p.feeders[f].kWh ∧ q.feeders[f].seconds = p.feeders[f].seconds

section
variable {p : Part} {b : Fin 2}

theorem SameMeters.refl (p : Part) : SameMeters p p := fun _ => ⟨rfl, rfl, rfl, rfl⟩

theorem SameMeters.trans {q r : Part} (h : SameMeters p q) (g : SameMeters q r) : SameMeters p r := fun f => by
  obtain ⟨cfg, kg, kWh, seconds⟩ := h f
  obtain ⟨cfg', kg', kWh', seconds'⟩ := g f
  exact ⟨cfg'.trans cfg, kg'.trans kg, kWh'.trans kWh, seconds'.trans seconds⟩

theorem ChangesOnly.sameMeters {T : Set Block} {q : Part} (h : ChangesOnly T p q) (hT : ∀ f : Fin 6, Block.feeder f ∉ T := by simp) :
    SameMeters p q := fun f => by
  have measured : q.feeders[f].measured = p.feeders[f].measured := h.same (.feeder f) (hT f)
  have cfg := congrArg Feeder.cfg measured
  have kg := congrArg Feeder.kg measured
  have kWh := congrArg Feeder.kWh measured
  have seconds := congrArg Feeder.seconds measured
  exact ⟨cfg, kg, kWh, seconds⟩

theorem Part.replaceMix_meters (b : Fin 2) (m : Vector Nat 6) (p : Part) : SameMeters p (p.replaceMix b m) := by
  have fractions : SameMeters p (p.forAll (p.feedersOf b) fun f => Part.updFeeder f fun x => { x with mix := m[f] }) := by
    refine forAll_keeps (I := SameMeters p) (fun f q h => h.trans fun g => ?_) (.refl p)
    by_cases e : g = f
    · subst e
      rw [Part.updFeeder, set_self]
      exact ⟨rfl, rfl, rfl, rfl⟩
    · rw [Part.updFeeder, set_other _ _ _ _ e]
      exact ⟨rfl, rfl, rfl, rfl⟩
  exact fractions.trans (Part.settleFeedersOf_frame b _).sameMeters

theorem Part.rampEnded_meters (b : Fin 2) (p : Part) : SameMeters p (p.rampEnded b) := by
  unfold Part.rampEnded
  split
  · exact p.replaceMix_meters b _
  · exact .refl p

/-- What a burner's end of ramp leaves of a feeder's fraction. -/
theorem Part.rampEnded_mix (b : Fin 2) (p : Part) (f : Fin 6) :
    (∀ r, f ∈ p.feedersOf b → p.ramps[b] = some r → (p.rampEnded b).feeders[f].mix = r.target[f]) ∧
    (f ∉ p.feedersOf b ∨ p.ramps[b] = none → (p.rampEnded b).feeders[f].mix = p.feeders[f].mix) := by
  cases ramp : p.ramps[b] with
  | some r =>
    have ended : p.rampEnded b = (p.replaceMix b r.target).setRamp b none := by rw [Part.rampEnded, ramp]
    rw [ended]
    refine ⟨fun s mem e => ?_, fun out => ?_⟩
    · obtain rfl : r = s := Option.some.inj e
      exact (p.replaceMix_mix b r.target f).trans (if_pos mem)
    · exact (p.replaceMix_mix b r.target f).trans (if_neg (out.resolve_right nofun))
  | none =>
    have ended : p.rampEnded b = p := by rw [Part.rampEnded, ramp]
    rw [ended]
    exact ⟨nofun, fun _ => rfl⟩

theorem Part.rampEnded_other {c : Fin 2} (ne : c ≠ b) (p : Part) : (p.rampEnded b).ramps[c] = p.ramps[c] := by
  unfold Part.rampEnded
  split
  · next r _ => exact (set_other _ _ _ _ ne).trans ((p.replaceMix_frame b r.target).ramp_eq c)
  · rfl

/-- A restart leaves a feeder the target of its burner's mix ramp, or its fraction where there was none (R118). -/
theorem Part.rampsEnded_mix (p : Part) (f : Fin 6) {c : Fin 2} (own : p.feeders[f].cfg.burner = c) :
    (∀ r, p.feeders[f].cfg.used = true → p.ramps[c] = some r → p.rampsEnded.feeders[f].mix = r.target[f]) ∧
    (p.feeders[f].cfg.used = false ∨ p.ramps[c] = none → p.rampsEnded.feeders[f].mix = p.feeders[f].mix) := by
  have cfg : (p.rampEnded 0).feeders[f].cfg = p.feeders[f].cfg := (p.rampEnded_meters 0 f).1
  have later (d : Fin 2) : f ∈ (p.rampEnded 0).feedersOf d ↔ p.feeders[f].cfg.used = true ∧ c = d := by
    rw [Part.mem_feedersOf, cfg, own]
  have now : f ∈ p.feedersOf 0 ↔ p.feeders[f].cfg.used = true ∧ c = 0 := by rw [Part.mem_feedersOf, own]
  obtain ⟨first, firstOut⟩ := p.rampEnded_mix 0 f
  obtain ⟨second, secondOut⟩ := (p.rampEnded 0).rampEnded_mix 1 f
  have untouched : (p.rampEnded 0).ramps[(1 : Fin 2)] = p.ramps[(1 : Fin 2)] := Part.rampEnded_other (by decide) p
  rw [Part.rampsEnded_eq]
  rw [later, untouched] at second secondOut
  rw [now] at first firstOut
  rcases (by omega : c = 0 ∨ c = 1) with rfl | rfl
  · have apart : ¬ (p.feeders[f].cfg.used = true ∧ (0 : Fin 2) = 1) := fun h => absurd h.2 (by decide)
    have after := secondOut (.inl apart)
    exact ⟨fun r used ramp => after.trans (first r ⟨used, rfl⟩ ramp), fun out =>
      after.trans (firstOut (out.imp (fun off h => absurd (off.symm.trans h.1) (by decide)) id))⟩
  · have apart : ¬ (p.feeders[f].cfg.used = true ∧ (1 : Fin 2) = 0) := fun h => absurd h.2 (by decide)
    have before := firstOut (.inl apart)
    exact ⟨fun r used ramp => second r ⟨used, rfl⟩ ramp, fun out =>
      (secondOut (out.imp (fun off h => absurd (off.symm.trans h.1) (by decide)) id)).trans before⟩

end

/-! ## What a restart keeps until the blocks are cleared -/

/-- The blocks that a restart changes before it shuts the station down. -/
def windBlocks : Set Block := {.queue, .queueOut, .sending, .txFail, .silent, .statusTimer, .record, .shift} ∪ mixBlocks ∪ Set.range .ramp

section
variable {p : Part}

theorem Part.restartLine_frame (p : Part) :
    ChangesOnly {.queue, .queueOut, .sending, .txFail, .silent, .statusTimer} p p.restartLine := by
  obtain ⟨fs, tag, e, -⟩ := p.restartLine_queued
  rw [e]
  refine ⟨fun x hx => ?_⟩
  cases x <;> simp_all [Block.Same]

theorem Part.wound_frame (p : Part) : ChangesOnly windBlocks p p.wound := by
  have wind := (p.restartLine_frame.andThen (Part.closeRecord_frame true _)).andThen (Part.rampsEnded_frame _)
  refine wind.mono fun x hx => ?_
  simp only [windBlocks, Set.mem_union, Set.mem_insert_iff, Set.mem_singleton_iff] at hx ⊢
  tauto

theorem Part.closeRecord_line (p : Part) : (p.closeRecord true).line = p.line ∧ (p.closeRecord true).feeders = p.feeders ∧
    (p.closeRecord true).ramps = p.ramps := by
  unfold Part.closeRecord
  split <;> exact ⟨rfl, rfl, rfl⟩

theorem Part.wound_line (p : Part) : p.wound.line = p.restartLine.line := by
  have same := ((p.restartLine.closeRecord true).rampsEnded_frame).line_eq (by simp)
  exact same.trans (Part.closeRecord_line _).1

theorem ChangesOnly.shifts_eq {T : Set Block} {q : Part} (h : ChangesOnly T p q)
    (hT : Block.record ∉ T ∧ Block.shift ∉ T := by simp) : q.shift = p.shift := by
  have current : q.shift.current = p.shift.current := h.same .record hT.1
  have closed : q.shift.closed = p.shift.closed := h.same .shift hT.2
  cases e : q.shift
  cases e' : p.shift
  simp_all [Shift.closed]

/-- The open record closed by a restart (R170). -/
theorem Part.closeRecord_shift (p : Part) : (p.closeRecord true).shift.number = p.shift.number ∧
    (p.closeRecord true).shift.current = none ∧ ∀ r, p.shift.current = some r →
      (p.closeRecord true).shift.store.head? = some ({ r with closeTime := some p.now, restarted := true }, false) ∧
      (p.closeRecord true).shift.closedCause = true := by
  unfold Part.closeRecord
  split
  · next r current =>
    refine ⟨rfl, rfl, fun s e => ?_⟩
    obtain rfl : r = s := Option.some.inj (current.symm.trans e)
    exact ⟨rfl, rfl⟩
  · next current => exact ⟨rfl, current, fun s e => nomatch current.symm.trans e⟩

theorem Part.wound_shift (p : Part) : p.wound.shift.number = p.shift.number ∧ p.wound.shift.current = none ∧
    ∀ r, p.shift.current = some r →
      p.wound.shift.store.head? = some ({ r with closeTime := some p.now, restarted := true }, false) ∧
      p.wound.shift.closedCause = true := by
  obtain ⟨line, e⟩ := p.restartLine_eq
  have facts := p.restartLine.closeRecord_shift
  rw [e] at facts
  rw [Part.wound, (Part.rampsEnded_frame _).shifts_eq, e]
  exact facts

theorem Part.wound_eq (p : Part) : ∃ q : Part, q.feeders = p.feeders ∧ q.ramps = p.ramps ∧ p.wound = q.rampsEnded := by
  obtain ⟨line, e⟩ := p.restartLine_eq
  obtain ⟨-, feeders, ramps⟩ := Part.closeRecord_line p.restartLine
  refine ⟨p.restartLine.closeRecord true, ?_, ?_, ?_⟩
  · rw [feeders, e]
  · rw [ramps, e]
  · rw [Part.wound]

theorem Part.rampsEnded_meters (p : Part) : SameMeters p p.rampsEnded := by
  rw [Part.rampsEnded_eq]
  exact (p.rampEnded_meters 0).trans (Part.rampEnded_meters 1 _)

theorem Part.wound_feeders (p : Part) : SameMeters p p.wound := by
  obtain ⟨q, feeders, -, e⟩ := p.wound_eq
  have meters := q.rampsEnded_meters
  rw [← e] at meters
  unfold SameMeters at meters ⊢
  rw [feeders] at meters
  exact meters

theorem Part.wound_mix (p : Part) (f : Fin 6) {c : Fin 2} (own : p.feeders[f].cfg.burner = c) :
    (∀ r, p.feeders[f].cfg.used = true → p.ramps[c] = some r → p.wound.feeders[f].mix = r.target[f]) ∧
    (p.feeders[f].cfg.used = false ∨ p.ramps[c] = none → p.wound.feeders[f].mix = p.feeders[f].mix) := by
  obtain ⟨q, feeders, ramps, e⟩ := p.wound_eq
  rw [← feeders] at own ⊢
  rw [← ramps, e]
  exact q.rampsEnded_mix f own

/-! ## The station shut down -/

theorem Part.wound_ramp (p : Part) (b : Fin 2) : p.wound.ramps[b] = none := by
  rw [Part.wound, Part.rampsEnded_ramps]

/-- Feeders after RESTART STATION (R118, R121). -/
theorem Part.restart_feeder (p : Part) (f : Fin 6) {x : Feeder} (feeder : p.restart.feeders[f] = x) :
    x.state = (if p.feeders[f].cfg.used then .stopped else .unused) ∧ x.cfg = p.feeders[f].cfg ∧ x.kg = p.feeders[f].kg ∧
      x.kWh = p.feeders[f].kWh ∧ x.seconds = p.feeders[f].seconds ∧ x.setpoint = 0 ∧ x.rampRem = 0 ∧ x.trim = 0 ∧
      x.ring = [] ∧ x.baseline = none ∧ x.rate = 0 ∧ x.measBad = false ∧ x.devTimer = none ∧ x.noFlow = none ∧
      (∀ r, p.feeders[f].cfg.used = true → p.ramps[p.feeders[f].cfg.burner] = some r → x.mix = r.target[f]) ∧
      (p.feeders[f].cfg.used = false ∨ p.ramps[p.feeders[f].cfg.burner] = none → x.mix = p.feeders[f].mix) := by
  obtain ⟨cfg, kg, kWh, seconds⟩ := p.wound_feeders f
  obtain ⟨target, kept⟩ := p.wound_mix f rfl
  rw [Part.restart_eq, Part.shutDown_feeders] at feeder
  subst feeder
  generalize p.wound.feeders[f] = y at cfg kg kWh seconds target kept ⊢
  have state : y.initial.state = (if p.feeders[f].cfg.used then .stopped else .unused) := by rw [← cfg]; rfl
  exact ⟨state, cfg, kg, kWh, seconds, rfl, rfl, rfl, rfl, rfl, rfl, rfl, rfl, rfl, target, kept⟩

/-- Resources after RESTART STATION (R53). -/
theorem Part.restart_claim (p : Part) (k : Fin 3) {c : Resource} (claim : p.restart.claims[k] = c) :
    c.state = .idle ∧ c.user = none ∧ c.waitList = [] ∧ c.reclaim = none ∧ c.conflict = none ∧
      c.claimant = p.claims[k].claimant ∧ c.released = p.claims[k].released := by
  rw [Part.restart_eq, Part.shutDown_claims, p.wound_frame.claim_eq (by simp [windBlocks])] at claim
  subst claim
  exact ⟨rfl, rfl, rfl, rfl, rfl, rfl, rfl⟩

/-- Fans after RESTART STATION (R123, R138). -/
theorem Part.restart_fan (p : Part) (n : Fin 4) {x : Fan} (fan : p.restart.fans[n] = x) :
    x.state = (if p.fans[n].cfg.used then .stopped else .unused) ∧ x.lastGood = none ∧ x.heldFlow = none ∧
      x.startUntil = none ∧ x.fbLoss = none ∧ x.cfg = p.fans[n].cfg ∧ x.sp = p.fans[n].sp := by
  rw [Part.restart_eq, Part.shutDown_fans, p.wound_frame.fan_eq n (by simp [windBlocks])] at fan
  subst fan
  exact ⟨rfl, rfl, rfl, rfl, rfl, rfl, rfl⟩

end

theorem ChangesOnly.scanState_eq {T : Set Block} {p q : Part} (h : ChangesOnly T p q) (hT : Block.scan ∉ T) :
    q.field.state = p.field.state := by
  have same : q.field.scanning = p.field.scanning := h.same .scan hT
  have state := congrArg Field.state same
  exact state

theorem Part.takes_restart (p : Part) (on : p.started = true) :
    Takes .restartStation p (p.restart.reply 0x12 .done) :=
  takes_row rfl (by dsimp only; rw [if_pos on])

theorem Part.restart_burner (p : Part) (b : Fin 2) :
    p.restart.burners[b] = p.burners[b].cleared .off ∧ p.restart.ramps[b] = none := by
  rw [Part.restart_eq, Part.shutDown_burners, Part.shutDown_ramps, p.wound_frame.burner_eq b (by simp [windBlocks])]
  exact ⟨rfl, p.wound_ramp b⟩

theorem Part.restart_ext (p : Part) (n : Fin 16) : p.restart.alarms.ext[n] = p.alarms.ext[n].restarted := by
  rw [Part.restart_eq, Part.shutDown_ext, p.wound_frame.ext_eq (by simp [windBlocks])]

/-- A restart clears the condition of a HOST-sourced external point (R150). -/
theorem Ext.restarted_cond {e : Ext} (own : e.source = .host) : e.restarted.cond = false := by
  rw [Ext.restarted, own]
  exact Bool.and_false _

/-- What the station keeps through RESTART STATION (R24, R30, R98, R161, R183). -/
theorem Part.wound_keeps (p : Part) : p.wound.host = p.host ∧ p.wound.cfg = p.cfg ∧ p.wound.fuel = p.fuel ∧
    p.wound.peers = p.peers ∧ p.wound.grate = p.grate ∧ p.wound.alarms.peerTrips = p.alarms.peerTrips ∧
    p.wound.alarms.tripSeq = p.alarms.tripSeq ∧ p.wound.field.image = p.field.image ∧
    p.wound.field.state = p.field.state := by
  have frame := p.wound_frame
  generalize p.wound = w at *
  have host : w.host = p.host := frame.host_eq (by simp [windBlocks]) (by simp [windBlocks]) (by simp [windBlocks])
    (by simp [windBlocks]) (by simp [windBlocks])
  have cfg : w.cfg = p.cfg := frame.same .cfg (by simp [windBlocks])
  have fuel : w.fuel = p.fuel := frame.same .fuel (by simp [windBlocks])
  have image : w.field.image = p.field.image := frame.same .image (by simp [windBlocks])
  have trips : w.alarms.peerTrips = p.alarms.peerTrips := (frame.same .peerTrips (by simp [windBlocks])).1
  have seq : w.alarms.tripSeq = p.alarms.tripSeq := frame.same .tripSeq (by simp [windBlocks])
  have grate := frame.grate_eq (by simp [windBlocks])
  have scan := frame.scanState_eq (by simp [windBlocks])
  exact ⟨host, cfg, fuel, frame.peers_eq (by simp [windBlocks]), grate, trips, seq, image, scan⟩

/-- The line after RESTART STATION (R24). -/
theorem Part.wound_queued (p : Part) : p.wound.line.silent = false ∧ p.wound.line.txFail = false ∧
    p.wound.line.statusDue = none ∧ p.wound.line.sequence = p.line.sequence ∧
    (∀ h t, p.line.phase ≠ .idle → p.line.queue = h :: t →
      p.wound.line.queue.head? = some h ∧ p.wound.line.lastTry = true ∧ p.wound.line.phase = p.line.phase) ∧
    p.wound.line.queue.map TxFrame.body =
      (if p.line.phase = .idle then [] else p.line.queue.take 1).map TxFrame.body ++
      (if p.line.silent = true then [] else
        (resourceIds.filter fun k => p.claims[k].state = .held ∨ p.claims[k].state = .claiming).map .release) := by
  obtain ⟨fs, tag, line, bodies⟩ := p.restartLine_queued
  have after := p.wound_line
  rw [line] at after
  dsimp only at after
  have head (h : TxFrame) (t : List TxFrame) (busy : p.line.phase ≠ .idle) (queue : p.line.queue = h :: t) :
      ((if p.line.phase = .idle then [] else p.line.queue.take 1) ++ fs).head? = some h := by
    rw [if_neg busy, queue]
    rfl
  have released : p.releases resourceIds = if p.line.silent = true then [] else
      resourceIds.filter fun k => p.claims[k].state = .held ∨ p.claims[k].state = .claiming := rfl
  have sent : ((if p.line.phase = .idle then [] else p.line.queue.take 1) ++ fs).map TxFrame.body =
      (if p.line.phase = .idle then [] else p.line.queue.take 1).map TxFrame.body ++
      (if p.line.silent = true then [] else
        (resourceIds.filter fun k => p.claims[k].state = .held ∨ p.claims[k].state = .claiming).map .release) := by
    rw [List.map_append, bodies, released]
    by_cases deaf : p.line.silent = true
    · rw [if_pos deaf, if_pos deaf, List.map_nil]
    · rw [if_neg deaf, if_neg deaf]
  rw [after]
  exact ⟨rfl, rfl, rfl, rfl, fun h t busy queue => ⟨head h t busy queue, bne_iff_ne.2 busy, rfl⟩, sent⟩

/-- Settles O18: the line keeps the attempt in hand with the restart releases behind it, the record is closed and the mix
ramps end at their targets; what is left is shut down block by block. -/
theorem restartStationClears : Obligations.RestartStationClears := by
  unfold Obligations.RestartStationClears
  intro p
  refine ⟨fun off => ?_, fun on => ?_⟩
  · exact takes_row rfl (by dsimp only; rw [if_neg (by simp [off])]; rfl)
  obtain ⟨host, cfg, fuel, peers, grate, trips, seq, image, scan⟩ := p.wound_keeps
  have points (i : Fin 62) : p.restart.alarms.points[i] = p.wound.alarms.points[i].restarted := by
    rw [Part.restart_eq, Part.shutDown_points]
  have line := p.wound_queued
  have shift := p.wound_shift
  have burners := p.restart_burner
  have ext := p.restart_ext
  have feeders := fun f => p.restart_feeder f rfl
  have claims := fun k => p.restart_claim k rfl
  have fans := fun n => p.restart_fan n rfl
  have row := p.takes_restart on
  rw [Part.restart_eq] at row points burners ext feeders claims fans
  generalize p.wound = w at *
  have shut : (w.shutDown.reply 0x12 .done).host = { p.host.answered 0x12 .done [] with enables := 0 } := by
    rw [Part.reply_host, ← host]
    rfl
  refine ⟨w.shutDown.reply 0x12 .done, row, rfl, rfl, shut, line, claims, rfl, peers, cfg, fuel, burners, feeders, fans,
    ?_, rfl, fun i => ?_, fun n => ?_, ?_, shift, rfl, image, scan⟩
  · have moved : (w.shutDown.reply 0x12 .done).grate = { p.grate.initial with bedHigh := none } := by rw [← grate]; rfl
    rw [moved]
    exact ⟨rfl, rfl, rfl, rfl, rfl⟩
  · rw [show (w.shutDown.reply 0x12 .done).alarms.points[i] = _ from points i]
    exact ⟨rfl, rfl⟩
  · rw [show (w.shutDown.reply 0x12 .done).alarms.ext[n] = _ from ext n]
    exact ⟨rfl, Ext.restarted_cond⟩
  · have alarms : (w.shutDown.reply 0x12 .done).alarms = w.alarms.restarted := rfl
    rw [alarms, ← trips, ← seq]
    simp only [Alarms.restarted, and_self]

end Sys2Proof.Machine
end

section
/-! SUPPORT. The end of an event while every burner is out: no burner, feeder or ramp moves, and each point follows its
condition. -/

namespace Sys2Proof.Machine

-- One proof at a time: the whole package as one text must not start a thread for each of them.
set_option Elab.async false

open Sys2Proof.Config

/-- Every burner is out. -/
def Part.Idle (p : Part) : Prop := ∀ b : Fin 2, p.burners[b].out

/-- What points may move while every burner is out. -/
def alarmBlocks : Set Block := pointBlocks ∪ {.firstOut, .tripSeq} ∪ sendBlocks

@[simp] theorem mem_alarmBlocks {x : Block} : x ∈ alarmBlocks ↔
    (x ∈ pointBlocks ∨ x ∈ ({.firstOut, .tripSeq} : Set Block)) ∨ x ∈ sendBlocks := Iff.rfl

/-- What the end of an event may change while every burner is out. -/
def idleBlocks : Set Block := alarmBlocks ∪ settleBlocks

@[simp] theorem mem_idleBlocks {x : Block} : x ∈ idleBlocks ↔ x ∈ alarmBlocks ∨ x ∈ settleBlocks := Iff.rfl

theorem Part.idle_of_frame {T : Set Block} {p q : Part} (h : p.Idle) (f : ChangesOnly T p q)
    (hT : ∀ b : Fin 2, Block.burner b ∉ T := by simp) : q.Idle := fun b => by
  rw [Burner.out, f.burner_eq b (hT b)]
  exact h b

section
variable {p : Part}

theorem ChangesOnly.alarms {q : Part} (h : ChangesOnly pointBlocks p q) : ChangesOnly alarmBlocks p q :=
  h.mono fun _ hx => .inl (.inl hx)

theorem Part.Idle.tripBurner (h : p.Idle) (b : Fin 2) : p.tripBurner b = p := by
  have out := h b
  rw [Part.tripBurner, if_pos]
  rcases out with e | e <;> simp [e, -Fin.getElem_fin]

theorem Part.Idle.tripBound (h : p.Idle) (x : Binding) : p.tripBound x = p := by
  cases x with
  | none => rfl
  | station =>
    show (p.tripBurner 0).tripBurner 1 = p
    rw [h.tripBurner, h.tripBurner]
  | burner b => exact h.tripBurner b

theorem Part.Idle.actTrip_frame (h : p.Idle) (i : Fin 62) : ChangesOnly alarmBlocks p (p.actTrip i) := by
  obtain ⟨o, e, eq⟩ := p.actTrip_eq i
  have filled := p.actTrip_frame_filled i o e (p.pointAttr i).lineWide
  rw [eq, h.tripBound]
  exact filled.mono fun x hx => by simp at hx ⊢; tauto

theorem Part.Idle.activate_frame (h : p.Idle) (i : Fin 62) : ChangesOnly alarmBlocks p (p.activate i) := by
  have sounded : ChangesOnly pointBlocks p ((p.sounded i).record (ShiftRec.activation (p.pointAttr i).cls)) :=
    ((p.sounded_frame i).mono).next (Part.record_frame _ _)
  have idle := Part.idle_of_frame h sounded
  rw [Part.activate_eq]
  exact .ite (sounded.alarms.trans (idle.actTrip_frame i)) sounded.alarms

theorem Part.Idle.risePoint_frame (h : p.Idle) (i : Fin 62) : ChangesOnly alarmBlocks p (p.risePoint i) := by
  have moved (s : PointState) : ChangesOnly alarmBlocks p (p.movePoint i s) :=
    (((p.updPoint_frame i fun x => { x with state := s }).mono (U := pointBlocks)).next (Part.offerPoint_frame i s _)).alarms
  unfold Part.risePoint
  split
  · exact h.activate_frame i
  · exact h.activate_frame i
  · exact moved _
  · exact .refl

theorem Part.Idle.settlePoint_frame (h : p.Idle) (i : Fin 62) (same : Bool) :
    ChangesOnly alarmBlocks p (p.settlePoint i same) := by
  by_cases cls : (p.pointAttr i).cls = .trip
  · have found : ChangesOnly pointBlocks p (p.updPoint i fun x => { x with eff := p.effective i }) :=
      (p.updPoint_frame i _).mono
    have fallen := found.trans (Part.fallPoint_frame i (p.updPoint i fun x => { x with eff := p.effective i }))
    have idle := Part.idle_of_frame h found
    exact .ite .refl (.ite found.alarms (.ite (found.alarms.trans (idle.risePoint_frame i))
      (.ite (fallen.next (Part.hornCheck_frame _)).alarms fallen.alarms)))
  · exact ((p.settlePoint_frame i same).2 cls).alarms

theorem Part.Idle.settlePoints_frame (h : p.Idle) (l : List (Fin 62)) : ChangesOnly alarmBlocks p (p.settlePoints l) :=
  (forAll_keeps (I := fun q => ChangesOnly alarmBlocks p q)
    (fun i q hq => hq.trans ((Part.idle_of_frame h hq).settlePoint_frame i false)) .refl)

theorem Part.Idle.settleHolds_eq (h : p.Idle) : p.settleHolds = p := by
  have one (b : Fin 2) : (p.followCauses b).autoResume b = p := by
    have notHeld : ¬ p.burners[b].state = .held := by rcases h b with e | e <;> rw [e] <;> decide
    have same : p.followCauses b = p := by
      unfold Part.followCauses Part.updBurner
      have kept : p.burners.set b p.burners[b] = p.burners := Vector.set_getElem_self _
      dsimp only
      rw [if_neg notHeld, kept]
    rw [same, Part.autoResume, if_neg]
    simp [Part.mayAutoResume, notHeld, -Fin.getElem_fin]
  show (((p.followCauses 0).autoResume 0).followCauses 1).autoResume 1 = p
  rw [one, one]

theorem Part.Idle.settleAll_eq (h : p.Idle) : p.settleAll = (p.settlePoints promptPoints).settle := by
  rw [Part.settleAll_eq, Part.Idle.settleHolds_eq (Part.idle_of_frame h (h.settlePoints_frame promptPoints))]

theorem Part.Idle.settleAll_frame (h : p.Idle) : ChangesOnly idleBlocks p p.settleAll := by
  rw [h.settleAll_eq]
  exact (h.settlePoints_frame promptPoints).andThen (Part.settle_frame _)

end

/-! ## Conditions that a change leaves (R140) -/

section
variable {T : Set Block} {p q : Part} {i : Fin 62}

/-- The registers that the conditions are found from, but for transmit-fail and the results of an evaluation. -/
def conditionBlocks : Set Block := {.straps, .started, .cfg, .scan, .duplicate, .peerTrips, .stuck, .ext, .grate} ∪ Set.range .peer ∪
  Set.range .mark ∪ Set.range .burner ∪ Set.range .feeder ∪ Set.range .drive ∪ Set.range .fan

@[simp] theorem mem_conditionBlocks {x : Block} : x ∈ conditionBlocks ↔
    (((((x ∈ ({.straps, .started, .cfg, .scan, .duplicate, .peerTrips, .stuck, .ext, .grate} : Set Block) ∨
      x ∈ Set.range Block.peer) ∨ x ∈ Set.range Block.mark) ∨ x ∈ Set.range Block.burner) ∨ x ∈ Set.range Block.feeder) ∨
      x ∈ Set.range Block.drive) ∨ x ∈ Set.range Block.fan := Iff.rfl

theorem ChangesOnly.feeders_eq (h : ChangesOnly T p q) (hT : ∀ f : Fin 6, Block.feeder f ∉ T ∧ Block.drive f ∉ T) :
    q.feeders = p.feeders :=
  Vector.ext fun i lt => h.feeder_eq ⟨i, lt⟩ (hT _)

theorem ChangesOnly.condition_eq (h : ChangesOnly T p q) (hT : ∀ b ∈ conditionBlocks, b ∉ T)
    (sends : i = 3 → Block.txFail ∉ T) (heat : i = 7 ∨ i = 8 ∨ i = 9 → Block.alloc ∉ T) : q.condition i = p.condition i := by
  by_cases i3 : i = 3
  · subst i3
    exact (h.same .txFail (sends rfl)).1
  by_cases i789 : i = 7 ∨ i = 8 ∨ i = 9
  · have results : q.alloc.results = p.alloc.results := h.same .alloc (heat i789)
    have shortfall := congrArg Alloc.shortfall results
    have airLimited := congrArg Alloc.airLimited results
    have ceilState := congrArg Alloc.ceilState results
    rcases i789 with rfl | rfl | rfl
    · exact shortfall
    · exact airLimited
    · exact congrArg (· == .fallback) ceilState
  have scan := h.scanState_eq (hT _ (by simp))
  have started := h.started_eq (hT _ (by simp))
  have dup : q.line.dupDeadline = p.line.dupDeadline := h.same .duplicate (hT _ (by simp))
  have trips : q.alarms.peerTrips = p.alarms.peerTrips := (h.same .peerTrips (hT _ (by simp))).1
  have stuck : q.line.stuck = p.line.stuck := h.same .stuck (hT _ (by simp))
  have peers := h.peers_eq fun x => hT (.peer x) (by simp)
  have marks (k : Fin 3) : q.claims[k].conflict = p.claims[k].conflict := h.same (.mark k) (hT _ (by simp))
  have burners : q.burners = p.burners := Vector.ext fun i lt => h.burner_eq ⟨i, lt⟩ (hT _ (by simp))
  have feeders := h.feeders_eq fun f => ⟨hT _ (by simp), hT _ (by simp)⟩
  have fans : q.fans = p.fans := Vector.ext fun i lt => h.fan_eq ⟨i, lt⟩ (hT _ (by simp))
  have grate := h.grate_eq (hT _ (by simp))
  have ext := h.ext_eq (hT _ (by simp))
  obtain ⟨strap, -⟩ := h.same .straps (hT _ (by simp))
  have lost : q.anyPeerLost = p.anyPeerLost := by
    unfold Part.anyPeerLost
    rw [peers, strap]
  have high : q.bedHighActive = p.bedHighActive := by rw [Part.bedHighActive, Part.bedHighActive, started, grate]
  unfold Part.condition
  dsimp only
  have n3 : ¬ i.val = 3 := fun e => i3 (Fin.ext e)
  have n7 : ¬ i.val = 7 := fun e => i789 (.inl (Fin.ext e))
  have n8 : ¬ i.val = 8 := fun e => i789 (.inr (.inl (Fin.ext e)))
  have n9 : ¬ i.val = 9 := fun e => i789 (.inr (.inr (Fin.ext e)))
  simp only [if_neg n3, if_neg n7, if_neg n8, if_neg n9, scan, started, dup, trips, stuck, lost, marks, burners, feeders, fans,
    high, grate, ext]

theorem ChangesOnly.effective_eq (h : ChangesOnly T p q) (hT : ∀ b ∈ conditionBlocks, b ∉ T) (mode : Block.mode ∉ T)
    (sends : i = 3 → Block.txFail ∉ T) (heat : i = 7 ∨ i = 8 ∨ i = 9 → Block.alloc ∉ T) : q.effective i = p.effective i := by
  have attr : q.pointAttr i = p.pointAttr i := Part.pointAttr_congr (fun n => by rw [h.ext_eq (hT _ (by simp))]) i
  rw [Part.effective, Part.effective, Part.pointArmed, Part.pointArmed, h.condition_eq hT sends heat,
    h.started_eq (hT _ (by simp)), h.mode_eq mode, attr]

/-- Moves of points leave every condition. -/
theorem ChangesOnly.points_effective (h : ChangesOnly pointBlocks p q) : q.effective i = p.effective i :=
  h.effective_eq (fun b hb => by rintro (rfl | rfl | rfl | rfl | rfl) <;> simp at hb) (by simp) (by simp) (by simp)

/-- While every burner is out, the end of an event moves the conditions of points 3 and 7 to 9 only. -/
theorem ChangesOnly.idle_effective (h : ChangesOnly idleBlocks p q) (apart : i ≠ 3 ∧ i ≠ 7 ∧ i ≠ 8 ∧ i ≠ 9) :
    q.effective i = p.effective i := by
  obtain ⟨n3, n7, n8, n9⟩ := apart
  refine h.effective_eq (fun b hb => ?_) (by simp) (fun e => absurd e n3) (by simp [n7, n8, n9])
  cases b <;> simp at hb ⊢

end

/-! ## What an activation leaves at the end of the event -/

/-- Point i was raised from NORMAL at time t, and stands so (R142, R145, R146). -/
structure Raised (i : Fin 62) (t : Time) (q : Part) : Prop where
  state : q.alarms.points[i].state = .active
  eff : q.alarms.points[i].eff = true
  time : q.alarms.points[i].lastActivation = some t
  latch : (q.pointAttr i).latching = true → q.alarms.autoResume = false
  firstTrip : (q.pointAttr i).cls = .trip → ∀ r, q.shift.current = some r → r.firstTrip ≠ none

section
variable {p q : Part} {i : Fin 62} {t : Time}

theorem Raised.keep (h : Raised i t p) (settles : Settles p q) (same : q.alarms.points[i] = p.alarms.points[i]) :
    Raised i t q where
  state := by rw [same]; exact h.state
  eff := by rw [same]; exact h.eff
  time := by rw [same]; exact h.time
  latch l := settles.onward.autoResume (h.latch (by rw [← settles.onward.attr]; exact l))
  firstTrip c r e := by
    obtain ⟨s, before, head⟩ := settles.onward.record.before e
    exact head.firstTrip (h.firstTrip (by rw [← settles.onward.attr]; exact c) s before)

/-- A point found risen from NORMAL (R142). -/
theorem Part.settlePoint_raised {same : Bool} (up : p.effective i = true) (e : p.alarms.points[i].eff = false)
    (s : p.alarms.points[i].shelvedUntil = none) (was : p.alarms.points[i].state = .normal) :
    Raised i p.now (p.settlePoint i same) := by
  obtain ⟨state, time⟩ := Part.settlePoint_up (same := same) up e s
  have attr : (p.settlePoint i same).pointAttr i = p.pointAttr i := (Part.settlePoint_settles same i p).onward.attr i
  have before : (p.updPoint i fun x => { x with eff := true }).pointAttr i = p.pointAttr i := p.updPoint_attr i _ i
  refine ⟨by rw [state, was]; rfl, (p.settlePoint_eff i same).trans up, time (.inl was), fun l => ?_, fun c => ?_⟩
  · rw [attr, ← before] at l
    rw [Part.settlePoint_activates up e s (.inl was)]
    exact (Part.activate_activated i _).latch l
  · rw [attr, ← before] at c
    rw [Part.settlePoint_activates up e s (.inl was)]
    exact (Part.activate_activated i _).firstTrip c

/-- The points that the last pass does not find again. -/
theorem loudPoints : ∀ i : Fin 62, i ∉ quietPoints → i ∈ promptPoints := by decide

/-- The points before the last pass of an event's end. -/
theorem Part.settled_points (p : Part) : ((((p.settlePoints promptPoints).serviceAll).freezeAll).evaluate).alarms.points =
    (p.settlePoints promptPoints).alarms.points := Part.evaluated_points _

theorem Part.settleQuiet_finds (mem : i ∈ quietPoints) (s : Part) : ∃ r, ChangesOnly pointBlocks s r ∧
    r.alarms.points[i] = s.alarms.points[i] ∧ Settles s r ∧ Settles (r.settlePoint i) (s.settlePoints quietPoints) ∧
    (s.settlePoints quietPoints).alarms.points[i] = (r.settlePoint i).alarms.points[i] := by
  suffices all : ∀ (l : List (Fin 62)), (∀ j ∈ l, j ∈ quietPoints) → l.Nodup → i ∈ l → ∀ s : Part,
      ∃ r, ChangesOnly pointBlocks s r ∧ r.alarms.points[i] = s.alarms.points[i] ∧ Settles s r ∧
        Settles (r.settlePoint i) (s.settlePoints l) ∧
        (s.settlePoints l).alarms.points[i] = (r.settlePoint i).alarms.points[i] from
    all quietPoints (fun _ => id) quietPoints_nodup mem s
  intro l
  induction l with
  | nil => exact fun _ _ mem => nomatch mem
  | cons a l ih =>
    intro quiet once mem s
    obtain ⟨fresh, once⟩ := List.nodup_cons.1 once
    have unroll : s.settlePoints (a :: l) = (s.settlePoint a).settlePoints l := rfl
    rw [unroll]
    rcases List.mem_cons.1 mem with rfl | mem
    · exact ⟨s, .refl, rfl, .refl s, Part.settlePoints_settles l _, Part.settlePoints_absent fresh _⟩
    · obtain ⟨r, upTo, same, settles, after, found⟩ :=
        ih (fun j h => quiet j (List.mem_cons_of_mem a h)) once mem (s.settlePoint a)
      have ne : i ≠ a := fun e => fresh (e ▸ mem)
      have first := (s.settlePoint_frame a false).2 (s.quiet_attr a (quiet a List.mem_cons_self))
      exact ⟨r, first.trans upTo, same.trans (s.settlePoint_other a false ne),
        (Part.settlePoint_settles false a s).trans settles, after, found⟩

/-- The points that the last pass does not find again are the TRIP points of the table, and the external points. -/
theorem loudPoints_internal : ∀ i : Fin 62, i ∉ quietPoints → i.val < 46 →
    i = 0 ∨ i = 1 ∨ i = 2 ∨ i = 10 ∨ i = 11 ∨ i = 14 ∨ i = 15 ∨ i = 45 := by decide

theorem Part.Idle.loud_effective (h : p.Idle) (settles : Settles p q) (mem : i ∉ quietPoints) :
    q.effective i = p.effective i := by
  by_cases external : 46 ≤ i.val
  · exact settles.external external
  refine settles.effective ?_
  have started := settles.onward.started
  have scan := settles.frame.scanState_eq (by simp)
  have trips : q.alarms.peerTrips = p.alarms.peerTrips := (settles.frame.same .peerTrips (by simp)).1
  have dup : q.line.dupDeadline = p.line.dupDeadline := settles.frame.same .duplicate (by simp)
  have grate := settles.frame.grate_eq
  have first := (settles.onward.out (h 0)).burner
  have second := (settles.onward.out (h 1)).burner
  rcases loudPoints_internal i mem (by omega) with rfl | rfl | rfl | rfl | rfl | rfl | rfl | rfl
  · show (q.field.state == .failed && q.started) = (p.field.state == .failed && p.started)
    rw [scan, started]
  · exact congrArg Option.isSome dup
  · exact congrArg (fun v : Vector (Option PeerTrip) 16 => v.toList.any (·.isSome)) trips
  · exact congrArg Burner.flameFail first
  · exact congrArg Burner.lightOffFail first
  · exact congrArg Burner.flameFail second
  · exact congrArg Burner.lightOffFail second
  · exact congrArg Grate.fault grate

/-- Each point follows its condition at the end of an event in which every burner is out, and one that rises from NORMAL
stands raised. -/
theorem Part.Idle.settleAll_points (h : p.Idle) (i : Fin 62) :
    p.settleAll.alarms.points[i].eff = p.settleAll.effective i ∧
    (p.settleAll.effective i = true → p.alarms.points[i].eff = false → p.alarms.points[i].state = .normal →
      p.alarms.points[i].shelvedUntil = none → Raised i p.now p.settleAll) := by
  by_cases mem : i ∈ quietPoints
  · have prompt := Part.settlePoints_settles promptPoints p
    have middle := Part.evaluated_settles (p.settlePoints promptPoints)
    have points := (p.settlePoints promptPoints).evaluated_points
    -- what the first pass leaves of the point
    have first : (p.settlePoints promptPoints).alarms.points[i] = p.alarms.points[i] ∨
        (p.alarms.points[i].eff = false → p.alarms.points[i].state = .normal → p.alarms.points[i].shelvedUntil = none →
          (p.settlePoints promptPoints).alarms.points[i].eff = true → Raised i p.now (p.settlePoints promptPoints)) := by
      by_cases early : i ∈ promptPoints
      · obtain ⟨t, upTo, same, after, found⟩ := Part.settlePoints_at promptPoints_nodup early p
        refine .inr fun e was shelf up => ?_
        rw [← same] at e was shelf
        rw [found, Part.settlePoint_eff] at up
        have raised := Part.settlePoint_raised (same := false) up e shelf was
        rw [upTo.frame.now_eq] at raised
        exact raised.keep after found
      · exact .inl (Part.settlePoints_absent early p)
    have low : p.alarms.points[i].eff = false → (p.settlePoints promptPoints).alarms.points[i].eff = false →
        (p.settlePoints promptPoints).alarms.points[i] = p.alarms.points[i] := by
      intro e e'
      by_cases early : i ∈ promptPoints
      · obtain ⟨t, upTo, same, after, found⟩ := Part.settlePoints_at promptPoints_nodup early p
        rw [found, Part.settlePoint_eff] at e'
        rw [found, t.settlePoint_steady i (by rw [same, e, e']), same]
      · exact Part.settlePoints_absent early p
    rw [h.settleAll_eq, Part.settle_eq]
    generalize p.settlePoints promptPoints = u at *
    generalize ((u.serviceAll).freezeAll).evaluate = s at *
    obtain ⟨r, upTo, same, settles, after, found⟩ := Part.settleQuiet_finds mem s
    have all := Part.settleQuiet_frame s
    have effective : (s.settlePoints quietPoints).effective i = r.effective i := by
      rw [all.points_effective, upTo.points_effective]
    generalize s.settlePoints quietPoints = q at *
    refine ⟨by rw [found, Part.settlePoint_eff, effective], fun up e was shelf => ?_⟩
    rw [effective] at up
    have now : r.now = p.now := (settles.frame.now_eq.trans middle.frame.now_eq).trans prompt.frame.now_eq
    cases risen : u.alarms.points[i].eff with
    | true =>
      have raised : Raised i p.now u := by
        rcases first with kept | raised
        · rw [kept, e] at risen
          cases risen
        · exact raised e was shelf risen
      have steady : (r.settlePoint i).alarms.points[i] = u.alarms.points[i] := by
        rw [r.settlePoint_steady i (by rw [same, points, risen, up]), same, points]
      exact raised.keep (((middle.trans settles).trans (Part.settlePoint_settles false i r)).trans after) (found.trans steady)
    | false =>
      have at_ : r.alarms.points[i] = p.alarms.points[i] := by rw [same, points, low e risen]
      rw [← at_] at e was shelf
      have raised := Part.settlePoint_raised (same := false) up e shelf was
      rw [now] at raised
      exact raised.keep after found
  · have early := loudPoints i mem
    have steady (x : Part) (settles : Settles p x) : x.effective i = p.effective i := h.loud_effective settles mem
    have settles := p.settleAll_settles
    obtain ⟨t, upTo, same, after, found⟩ := Part.settleAll_at early steady
    generalize p.settleAll = q at *
    have effective : q.effective i = t.effective i := (steady q settles).trans (steady t upTo).symm
    refine ⟨by rw [found, Part.settlePoint_eff, effective], fun up e was shelf => ?_⟩
    rw [effective] at up
    rw [← same] at e was shelf
    have raised := Part.settlePoint_raised (same := false) up e shelf was
    rw [upTo.frame.now_eq] at raised
    exact raised.keep after found

theorem ChangesOnly.auto_eq {T : Set Block} (h : ChangesOnly T p q) (hT : Block.points ∉ T := by simp) :
    q.alarms.autoResume = p.alarms.autoResume := (h.same .points hT).2.2

theorem Part.movePoint_auto (i : Fin 62) (s : PointState) (p : Part) :
    (p.movePoint i s).alarms.autoResume = p.alarms.autoResume :=
  (Part.offerPoint_frame i s (p.updPoint i fun x => { x with state := s })).auto_eq

theorem Part.risePoint_auto (calm : (p.pointAttr i).latching = false) :
    (p.risePoint i).alarms.autoResume = p.alarms.autoResume := by
  unfold Part.risePoint
  split
  · exact (p.activate_activated i).resumes calm
  · exact (p.activate_activated i).resumes calm
  · exact p.movePoint_auto i _
  · rfl

theorem Part.fallPoint_auto (i : Fin 62) (p : Part) : (p.fallPoint i).alarms.autoResume = p.alarms.autoResume := by
  unfold Part.fallPoint
  split
  · exact p.movePoint_auto i _
  · split
    · exact p.movePoint_auto i _
    · exact p.movePoint_auto i _
  · rfl

/-- Only the rise of a latching point takes AUTO-RESUME away (R145). -/
theorem Part.settlePoint_auto {same : Bool} (calm : p.effective i = true → (p.pointAttr i).latching = false) :
    (p.settlePoint i same).alarms.autoResume = p.alarms.autoResume := by
  by_cases steady : p.effective i = p.alarms.points[i].eff
  · rw [p.settlePoint_steady i steady]
  · cases shelved : p.alarms.points[i].shelvedUntil with
    | some t =>
      rw [p.settlePoint_shelved i steady (by rw [shelved]; rfl)]
      rfl
    | none =>
      cases up : p.effective i with
      | true =>
        rw [p.settlePoint_rises i up (by simpa [up] using steady) shelved]
        exact Part.risePoint_auto (by rw [Part.updPoint_attr]; exact calm up)
      | false =>
        rw [p.settlePoint_falls i up (by simpa [up] using steady) shelved]
        have fallen := Part.fallPoint_auto i (p.updPoint i fun x => { x with eff := false })
        split
        · exact (Part.hornCheck_frame _).auto_eq.trans fallen
        · exact fallen

/-- A latching point has no condition that the end of an event moves (R140). -/
theorem Part.latching_apart (l : (p.pointAttr i).latching = true) : i ≠ 3 ∧ i ≠ 7 ∧ i ≠ 8 ∧ i ≠ 9 := by
  refine ⟨?_, ?_, ?_, ?_⟩ <;> rintro rfl <;> cases l

theorem Part.Idle.settlePoints_auto (h : p.Idle) (frame : ChangesOnly idleBlocks p q)
    (calm : ∀ i : Fin 62, p.effective i = true → (p.pointAttr i).latching = false) (l : List (Fin 62)) :
    (q.settlePoints l).alarms.autoResume = q.alarms.autoResume := by
  have all := forAll_keeps (I := fun x => ChangesOnly idleBlocks p x ∧ x.alarms.autoResume = q.alarms.autoResume)
    (l := l) (f := fun i x => x.settlePoint i) (p := q) (fun i x hx => ?_) ⟨frame, rfl⟩
  · exact all.2
  obtain ⟨f, auto⟩ := hx
  refine ⟨f.trans (((Part.idle_of_frame h f).settlePoint_frame i false).mono fun b hb => .inl hb), ?_⟩
  rw [Part.settlePoint_auto fun up => ?_, auto]
  have attr : x.pointAttr i = p.pointAttr i := Part.pointAttr_congr (fun n => by rw [f.ext_eq]) i
  rw [attr]
  by_contra latched
  rw [Bool.not_eq_false] at latched
  rw [f.idle_effective (Part.latching_apart latched)] at up
  rw [calm i up] at latched
  cases latched

/-- AUTO-RESUME stands where no latching point has an effective condition. -/
theorem Part.Idle.settleAll_auto (h : p.Idle)
    (calm : ∀ i : Fin 62, p.settleAll.effective i = true → (p.pointAttr i).latching = false) :
    p.settleAll.alarms.autoResume = p.alarms.autoResume := by
  have before (i : Fin 62) (up : p.effective i = true) : (p.pointAttr i).latching = false := by
    by_contra latched
    rw [Bool.not_eq_false] at latched
    rw [← h.settleAll_frame.idle_effective (Part.latching_apart latched)] at up
    rw [calm i up] at latched
    cases latched
  have first := h.settlePoints_auto .refl before promptPoints
  have prompt : ChangesOnly idleBlocks p (p.settlePoints promptPoints) :=
    (h.settlePoints_frame promptPoints).mono fun b hb => .inl hb
  rw [h.settleAll_eq, Part.settle_eq]
  generalize p.settlePoints promptPoints = u at first prompt
  have middle := ((u.serviceAll_frame).andThen (Part.freezeAll_frame _)).andThen (Part.evaluate_frame _)
  generalize ((u.serviceAll).freezeAll).evaluate = s at middle
  have auto := middle.auto_eq
  have frame : ChangesOnly idleBlocks p s := prompt.trans (middle.mono fun b hb => by simp at hb ⊢; tauto)
  rw [h.settlePoints_auto frame before, auto, first]

end

end Sys2Proof.Machine
end

section
/-! SUPPORT. An evaluation made again on what it has left finds the same results (R55, R56). -/

namespace Sys2Proof.Machine

-- One proof at a time: the whole package as one text must not start a thread for each of them.
set_option Elab.async false

open Sys2Proof.Config

/-- The registers that an evaluation reads, but for its own results. -/
structure SameHeat (p q : Part) : Prop where
  now : q.now = p.now
  strap : q.strapStation = p.strapStation
  started : q.started = p.started
  cfg : q.cfg = p.cfg
  peers : q.peers = p.peers
  mode : q.mode = p.mode
  burners : q.burners = p.burners
  fuel : q.fuel = p.fuel
  feeders : q.feeders = p.feeders
  air : q.air = p.air

section
variable {p q : Part}

theorem ChangesOnly.sameHeat {T : Set Block} (h : ChangesOnly T p q)
    (hT : ∀ b ∈ [Block.clock, .straps, .started, .cfg, .mode, .fuel, .air], b ∉ T)
    (parts : (∀ x : Fin 16, Block.peer x ∉ T) ∧ (∀ b : Fin 2, Block.burner b ∉ T) ∧
      ∀ f : Fin 6, Block.feeder f ∉ T ∧ Block.drive f ∉ T) : SameHeat p q := by
  obtain ⟨peer, burner, feeder⟩ := parts
  exact ⟨h.now_eq (hT _ (by simp)), h.strap_eq (hT _ (by simp)), h.started_eq (hT _ (by simp)), h.cfg_eq (hT _ (by simp)),
    h.peers_eq peer, h.mode_eq (hT _ (by simp)), Vector.ext fun i lt => h.burner_eq ⟨i, lt⟩ (burner _),
    h.same .fuel (hT _ (by simp)), h.feeders_eq feeder, h.same .air (hT _ (by simp))⟩

theorem SameHeat.fresh (h : SameHeat p q) : q.fresh = p.fresh := by
  funext x
  unfold Part.fresh
  rw [h.strap, h.peers]

theorem SameHeat.stageDemand (h : SameHeat p q) (offered : q.alloc.offered = p.alloc.offered)
    (offer : q.alloc.offer = p.alloc.offer) : q.stageDemand = p.stageDemand := by
  funext a
  unfold Part.stageDemand Part.demandSource Part.offers Part.offeredBy
  rw [h.strap, h.started, h.cfg, h.fresh, offered, offer]

theorem SameHeat.stageCeiling (h : SameHeat p q) : q.stageCeiling = p.stageCeiling := by
  funext a
  unfold Part.stageCeiling Part.airKnown Part.airSum
  rw [h.cfg, h.air, h.fresh, h.now]

theorem SameHeat.stageCapacity (h : SameHeat p q) : q.stageCapacity = p.stageCapacity := by
  funext a
  have heat : q.maxHeat = p.maxHeat := by
    funext f
    simp only [Part.maxHeat, Part.cvOf, h.feeders, h.fuel]
  have caps (a : Alloc) : q.burnerCapacity a = p.burnerCapacity a := by
    funext b
    unfold Part.burnerCapacity Part.feedersOf
    rw [h.burners, h.feeders]
  unfold Part.stageCapacity
  dsimp only
  rw [heat, caps, h.mode, h.cfg]

theorem SameHeat.stageTarget (h : SameHeat p q) : q.stageTarget = p.stageTarget := by
  funext a
  unfold Part.stageTarget Part.zoneCapacity
  rw [h.strap, h.cfg, h.fresh]

theorem SameHeat.stageSplit (h : SameHeat p q) : q.stageSplit = p.stageSplit := by
  funext a
  have heat (a : Alloc) : q.heatTarget a = p.heatTarget a := by
    funext f
    simp only [Part.heatTarget, Part.feedersOf, h.burners, h.feeders]
  have mass (a : Alloc) : q.massTarget a = p.massTarget a := by
    funext f
    simp only [Part.massTarget, Part.cvOf, h.burners, h.feeders, h.fuel]
    rfl
  unfold Part.stageSplit
  dsimp only
  rw [heat, mass]

/-- The stages of one evaluation on results a. -/
def Part.stages (p : Part) (a : Alloc) : Alloc :=
  p.stageSplit (p.stageTarget (p.stageCapacity (p.stageCeiling (p.stageDemand a)).stageEffective))

theorem Part.evaluated_eq (p : Part) : p.evaluated = p.stages p.alloc := rfl

theorem SameHeat.stages (h : SameHeat p q) (offered : q.alloc.offered = p.alloc.offered)
    (offer : q.alloc.offer = p.alloc.offer) : q.stages = p.stages := by
  funext a
  rw [Part.stages, Part.stages, h.stageSplit, h.stageTarget, h.stageCapacity, h.stageCeiling, h.stageDemand offered offer]

/-! ## Each stage finds its own results again -/

/-- The demand found again. -/
theorem Part.stageDemand_again (p : Part) {a d : Alloc} (h : d = p.stageDemand a) {x : Alloc} (demand : x.demand = d.demand)
    (held : x.demandHeld = d.demandHeld) : p.stageDemand x = x := by
  subst h
  cases x
  unfold Part.stageDemand at *
  split <;> simp_all

theorem Part.stageCeiling_again (p : Part) {a d : Alloc} (h : d = p.stageCeiling a) {x : Alloc} (state : x.ceilState = d.ceilState)
    (sum : x.airSum = d.airSum) (last : x.lastAir = d.lastAir) (ceiling : x.ceiling = d.ceiling)
    (hold : x.holdDeadline = d.holdDeadline) : p.stageCeiling x = x := by
  subst h
  cases x
  unfold Part.stageCeiling at *
  split at state
  · simp_all
  · split at state
    · simp_all
    · split at state <;> simp_all

/-- The later stages on the capacities find themselves again. -/
theorem Part.burnerCapacity_congr (p : Part) {a c : Alloc} (frozen : c.frozen = a.frozen) (heat : c.maxHeat = a.maxHeat) :
    p.burnerCapacity c = p.burnerCapacity a := by
  funext b
  unfold Part.burnerCapacity
  rw [frozen, heat]

/-- Capacities found already. -/
theorem Part.stageCapacity_self (p : Part) {z : Alloc} (heat : z.maxHeat = Vector.ofFn p.maxHeat)
    (caps : z.capB = Vector.ofFn (p.burnerCapacity z)) (total : z.total = sumOver burnerIds fun b => z.capB[b])
    (capacity : z.capacity = match p.mode with
      | .run => satAt 65535 z.total
      | .heatUp => min (satAt 65535 z.total) p.cfg.heatUpLimit
      | _ => 0) : p.stageCapacity z = z := by
  have same : ({ z with maxHeat := Vector.ofFn p.maxHeat } : Alloc) = z := by rw [← heat]
  unfold Part.stageCapacity
  dsimp only
  rw [same, ← caps, ← total, ← heat]
  exact congrArg (fun c => { z with capacity := c }) capacity.symm

theorem Part.stageCapacity_again (p : Part) {x y : Alloc} (h : y = p.stageCapacity x) :
    p.stageCapacity (p.stageSplit (p.stageTarget y)) = p.stageSplit (p.stageTarget y) := by
  have heat : y.maxHeat = Vector.ofFn p.maxHeat := by rw [h]; rfl
  have caps : y.capB = Vector.ofFn (p.burnerCapacity (p.stageSplit (p.stageTarget y))) := by
    have frozen : y.frozen = x.frozen := by rw [h]; rfl
    have same := p.burnerCapacity_congr (a := { x with maxHeat := Vector.ofFn p.maxHeat })
      (c := p.stageSplit (p.stageTarget y)) frozen heat
    rw [same, h]
    rfl
  have total : y.total = sumOver burnerIds fun b => y.capB[b] := by rw [h]; rfl
  have capacity : y.capacity = match p.mode with
      | .run => satAt 65535 y.total
      | .heatUp => min (satAt 65535 y.total) p.cfg.heatUpLimit
      | _ => 0 := by rw [h]; rfl
  exact p.stageCapacity_self heat caps total capacity

theorem Part.stageTarget_again (p : Part) (x : Alloc) :
    p.stageTarget (p.stageSplit (p.stageTarget x)) = p.stageSplit (p.stageTarget x) := rfl

theorem Part.stageSplit_again (p : Part) (x : Alloc) : p.stageSplit (p.stageSplit x) = p.stageSplit x := rfl

theorem Part.stageEffective_again (p : Part) (x : Alloc) :
    (p.stageSplit (p.stageTarget (p.stageCapacity x.stageEffective))).stageEffective =
      p.stageSplit (p.stageTarget (p.stageCapacity x.stageEffective)) := rfl

/-- The later stages leave the ceiling. -/
theorem Part.later_ceiling (p : Part) (c : Alloc) :
    let x := p.stageSplit (p.stageTarget (p.stageCapacity c.stageEffective))
    x.ceilState = c.ceilState ∧ x.airSum = c.airSum ∧ x.lastAir = c.lastAir ∧ x.ceiling = c.ceiling ∧
      x.holdDeadline = c.holdDeadline := ⟨rfl, rfl, rfl, rfl, rfl⟩

theorem Part.stages_offer (p : Part) (a : Alloc) : (p.stages a).offered = a.offered ∧ (p.stages a).offer = a.offer := by
  have late (c : Alloc) : (p.stageSplit (p.stageTarget (p.stageCapacity c.stageEffective))).offered = c.offered ∧
      (p.stageSplit (p.stageTarget (p.stageCapacity c.stageEffective))).offer = c.offer := ⟨rfl, rfl⟩
  have demand : (p.stageDemand a).offered = a.offered ∧ (p.stageDemand a).offer = a.offer := by
    unfold Part.stageDemand
    split <;> exact ⟨rfl, rfl⟩
  have ceiling (c : Alloc) : (p.stageCeiling c).offered = c.offered ∧ (p.stageCeiling c).offer = c.offer := by
    unfold Part.stageCeiling
    split
    · exact ⟨rfl, rfl⟩
    · split
      · exact ⟨rfl, rfl⟩
      · split <;> exact ⟨rfl, rfl⟩
  obtain ⟨offered, offer⟩ := late (p.stageCeiling (p.stageDemand a))
  exact ⟨(offered.trans (ceiling _).1).trans demand.1, (offer.trans (ceiling _).2).trans demand.2⟩

/-- The stages find their own results again. -/
theorem Part.stages_again (p : Part) (a : Alloc) : p.stages (p.stages a) = p.stages a := by
  have demand := p.stageDemand_again (a := a) rfl (x := p.stages a) (p.stageCeiling_demand (p.stageDemand a)).1
    (p.stageCeiling_demand (p.stageDemand a)).2
  obtain ⟨state, sum, last, limit, hold⟩ := p.later_ceiling (p.stageCeiling (p.stageDemand a))
  have ceiling := p.stageCeiling_again (a := p.stageDemand a) rfl (x := p.stages a) state sum last limit hold
  have effective : (p.stages a).stageEffective = p.stages a := p.stageEffective_again _
  have capacity : p.stageCapacity (p.stages a) = p.stages a :=
    p.stageCapacity_again rfl
  have target : p.stageTarget (p.stages a) = p.stages a := p.stageTarget_again _
  have split : p.stageSplit (p.stages a) = p.stages a := p.stageSplit_again _
  rw [Part.stages, demand, ceiling, effective, capacity, target, split]

/-- An evaluation of what an evaluation has left. -/
theorem SameHeat.evaluated (h : SameHeat p q) (same : q.alloc = p.evaluated) : q.evaluated = q.alloc := by
  have offered : q.alloc.offered = p.alloc.offered := by rw [same, p.evaluated_eq, (p.stages_offer _).1]
  have offer : q.alloc.offer = p.alloc.offer := by rw [same, p.evaluated_eq, (p.stages_offer _).2]
  have stages := h.stages offered offer
  rw [q.evaluated_eq, stages, same, p.evaluated_eq, Part.stages_again]

end

end Sys2Proof.Machine
end

section
/-! OBLIGATION O17. START STATION: what stands when the station has risen, and what its first settling makes of it. -/

namespace Sys2Proof.Machine

-- One proof at a time: the whole package as one text must not start a thread for each of them.
set_option Elab.async false

open Sys2Proof.Config

/-! ## The end of an event finds its evaluation again (log 1) -/

theorem Part.settle_evaluated {p : Part} (started : p.started = true) (zone : p.cfg.zone ≠ .none) :
    p.settle.evaluated = p.settle.alloc := by
  have before := p.serviceAll_frame.andThen (Part.freezeAll_frame _)
  have alloc := Part.settle_alloc started zone
  rw [Part.settle_eq] at alloc ⊢
  generalize p.serviceAll.freezeAll = s at *
  have after := (Part.evaluate_frame s).andThen (Part.settleQuiet_frame _)
  generalize s.evaluate.settlePoints quietPoints = q at *
  exact SameHeat.evaluated (after.sameHeat (by simp) (by simp)) alloc

/-! ## The station risen -/

/-- The blocks that START STATION sets before its first evaluation. -/
def riseBlocks : Set Block := {.started, .shift, .record, .events, .queue, .txFail, .statusTimer, .mode, .grate, .air,
  .feederClock, .fanClock, .driveOut} ∪ Set.range .fan ∪ Set.range .burner ∪ Set.range .feeder ∪ Set.range .drive

@[simp] theorem mem_riseBlocks {x : Block} : x ∈ riseBlocks ↔
    (((x ∈ ({.started, .shift, .record, .events, .queue, .txFail, .statusTimer, .mode, .grate, .air, .feederClock, .fanClock,
      .driveOut} : Set Block) ∨ x ∈ Set.range Block.fan) ∨ x ∈ Set.range Block.burner) ∨ x ∈ Set.range Block.feeder) ∨
      x ∈ Set.range Block.drive := Iff.rfl

section
variable (p : Part)

theorem Part.openAtStart_frame : ChangesOnly {.shift, .record, .events} p p.openAtStart :=
  ((p.openRecord_frame _ _ _ _).mono).next (Part.offer_frame ..)

theorem Part.opened_frame : ChangesOnly {.started, .shift, .record, .events, .queue, .txFail} p p.opened := by
  have begun : ChangesOnly {.started} p { p with started := true } := by
    refine ⟨fun x hx => ?_⟩
    cases x <;> simp_all [Block.Same]
  exact ((begun.andThen (Part.openAtStart_frame _)).andThen (Part.queueFrame_frame .status _)).mono fun x hx => by
    simp at hx ⊢
    tauto

theorem Part.cleaned_frame : ChangesOnly ({.statusTimer, .mode, .grate, .air, .driveOut} ∪ Set.range .fan ∪ Set.range .burner ∪
    Set.range .feeder ∪ Set.range .drive) p p.cleaned := by
  have timed : ChangesOnly {.statusTimer} p (p.updLine fun l => { l with statusDue := some (later p.now p.cfg.period) }) := by
    refine ⟨fun x hx => ?_⟩
    cases x <;> simp_all [Block.Same]
  have initial (q : Part) : ChangesOnly ({.mode, .grate, .air} ∪ Set.range .fan ∪ Set.range .burner ∪ Set.range .feeder ∪
      Set.range .drive) q q.blocksInitial := by
    refine ⟨fun x hx => ?_⟩
    cases x <;> simp_all [Block.Same, Part.blocksInitial]
  exact ((timed.andThen (initial _)).andThen (Part.writeFeeders_frame _)).mono fun x hx => by
    simp at hx ⊢
    tauto

theorem Part.risen_frame : ChangesOnly riseBlocks p p.risen := by
  have clocks (q : Part) (a b : Nat) : ChangesOnly {.feederClock, .fanClock} q { q with nextFeeder := a, nextCool := b } := by
    refine ⟨fun x hx => ?_⟩
    cases x <;> simp_all [Block.Same]
  exact ((p.opened_frame.andThen (Part.cleaned_frame _)).andThen (clocks _ _ _)).mono fun x hx => by
    simp at hx ⊢
    tauto

/-- A record opened by START STATION, under the highest shift number known (R169). -/
structure Part.FirstRecord (r : ShiftRec) : Prop where
  number : r.number = max p.highestShift p.shift.number
  origin : r.origin = .start
  openTime : r.openTime = p.now
  closeTime : r.closeTime = none
  incomplete : r.incomplete = true
  unreadLost : r.unreadLost = p.shift.pendingLoss
  note : r.note = none

variable {p} in
theorem Part.FirstRecord.head {r t : ShiftRec} (h : p.FirstRecord r) (same : r.SameHead t) : p.FirstRecord t :=
  ⟨same.number.trans h.number, same.origin.trans h.origin, same.openTime.trans h.openTime, same.closeTime.trans h.closeTime,
    same.incomplete.trans h.incomplete, same.unreadLost.trans h.unreadLost, same.note.trans h.note⟩

/-- The first record, under the highest shift number known (R169). -/
theorem Part.openAtStart_record : ∃ r, p.openAtStart.shift.current = some r ∧ p.FirstRecord r := by
  have current := (Part.offer_frame .shift (max p.highestShift p.shift.number) 0 false
    (if p.shift.number < p.highestShift then
      stationNumber (stations.find? fun q => (p.fresh q).any fun c => statShift c == p.highestShift) else 0) none
    (p.openRecord (max p.highestShift p.shift.number) .start true
      (decide (p.shift.number ≠ 0 ∧ p.shift.number + 1 < max p.highestShift p.shift.number)))).current_eq
  exact ⟨_, current, rfl, rfl, rfl, rfl, rfl, rfl, rfl⟩

theorem Part.openAtStart_shift : p.openAtStart.shift.number = max p.highestShift p.shift.number ∧
    p.openAtStart.shift.pendingLoss = 0 := by
  obtain ⟨number, -, loss, -⟩ := (Part.offer_frame .shift (max p.highestShift p.shift.number) 0 false
    (if p.shift.number < p.highestShift then
      stationNumber (stations.find? fun q => (p.fresh q).any fun c => statShift c == p.highestShift) else 0) none
    (p.openRecord (max p.highestShift p.shift.number) .start true
      (decide (p.shift.number ≠ 0 ∧ p.shift.number + 1 < max p.highestShift p.shift.number)))).shift_eq
  exact ⟨number, loss⟩

/-- What the settling of the event's end starts from. -/
theorem Part.ready_frame : ChangesOnly (riseBlocks ∪ {.alloc, .points}) p p.ready := by
  have evaluated := (p.risen_frame.andThen (Part.evaluate_frame _)).andThen
    (Part.points_frame (fun a => { a with autoResume := true }) _)
  exact evaluated.mono fun x hx => by
    simp at hx ⊢
    tauto

theorem Part.ready_after : ChangesOnly {.alloc, .record, .points} p.risen p.ready :=
  ((Part.evaluate_frame _).andThen (Part.points_frame (fun a => { a with autoResume := true }) _)).mono fun x hx => by
    simp at hx ⊢
    tauto

theorem Part.risen_registers : p.risen.started = true ∧ p.risen.mode = .stop ∧ p.risen.air = .reset ∧
    p.risen.grate = p.grate.initial ∧ p.risen.alloc = p.alloc ∧ p.risen.nextFeeder = nextMultiple p.now 200 ∧
    p.risen.nextCool = nextMultiple p.now 1000 ∧ p.risen.line.statusDue = some (later p.now p.cfg.period) := by
  have opened := p.opened_frame
  have alloc : p.opened.alloc = p.alloc := opened.alloc_eq
  have grate := opened.grate_eq
  have now := opened.now_eq
  have cfg := opened.cfg_eq
  have started : p.opened.started = true := by
    have after := ((Part.openAtStart_frame { p with started := true }).andThen (Part.queueFrame_frame .status _)).started_eq
    exact after
  unfold Part.risen
  generalize p.opened = o at *
  have clean : o.cleaned.now = o.now := o.cleaned_frame.now_eq
  have mode : o.cleaned.mode = .stop := by rw [Part.cleaned_eq]; rfl
  have air : o.cleaned.air = .reset := by rw [Part.cleaned_eq]; rfl
  have kept : o.cleaned.alloc = o.alloc := o.cleaned_frame.alloc_eq
  have due : o.cleaned.line.statusDue = some (later o.now o.cfg.period) := by rw [Part.cleaned_eq]; rfl
  have clock : o.cleaned.now = p.now := clean.trans now
  refine ⟨o.cleaned_started.trans started, mode, air, (o.cleaned_grate).trans (by rw [grate]), kept.trans alloc, ?_, ?_,
    due.trans (by rw [now, cfg])⟩
  · show nextMultiple o.cleaned.now 200 = _
    rw [clock]
  · show nextMultiple o.cleaned.now 1000 = _
    rw [clock]

theorem Part.risen_vectors : (∀ b : Fin 2, p.risen.burners[b] = p.burners[b].cleared .off) ∧
    (∀ f : Fin 6, p.risen.feeders[f] = p.feeders[f].initial) ∧ ∀ n : Fin 4, p.risen.fans[n] = p.fans[n].initial := by
  have opened := p.opened_frame
  unfold Part.risen
  generalize p.opened = o at *
  exact ⟨fun b => (o.cleaned_burners b).trans (by rw [opened.burner_eq b]),
    fun f => (o.cleaned_feeders f).trans (by rw [opened.feeder_eq f]),
    fun n => (o.cleaned_fans n).trans (by rw [opened.fan_eq n])⟩

theorem Part.ready_auto : p.ready.alarms.autoResume = true := rfl

theorem Part.risen_opened : p.risen.line.queue = p.opened.line.queue ∧ p.risen.shift = p.opened.shift := by
  unfold Part.risen
  generalize p.opened = o
  have queue := o.cleaned_queue
  have shift := o.cleaned_shift
  generalize o.cleaned = c at *
  exact ⟨queue, shift⟩

theorem Part.ready_queued (heard : p.line.silent = false) (room : p.line.queue.length < 8) :
    ∃ f ∈ p.ready.line.queue, f.body = .status := by
  have before := Part.openAtStart_frame { p with started := true }
  have queued : ∃ f ∈ p.opened.line.queue, f.body = .status := by
    refine Part.queueFrame_queues (before.started_eq) (before.silent_eq.trans heard) ?_
    rw [before.queue_eq]
    exact room
  have cleaned := p.risen_opened.1
  rw [← cleaned] at queued
  exact p.ready_after.queued queued

theorem Part.ready_shift : p.ready.shift.number = max p.highestShift p.shift.number ∧ p.ready.shift.pendingLoss = 0 ∧
    ∃ r, p.ready.shift.current = some r ∧ p.FirstRecord r := by
  obtain ⟨number, loss⟩ := Part.openAtStart_shift { p with started := true }
  obtain ⟨r, current, first⟩ := Part.openAtStart_record { p with started := true }
  have queued := (Part.queueFrame_frame .status ({ p with started := true } : Part).openAtStart).shift_eq
  have kept : RecordKept ({ p with started := true } : Part).openAtStart p.opened := Part.queueFrame_kept _ _
  have cleaned := p.risen_opened.2
  have evaluated : RecordKept p.risen p.ready := (Part.evaluate_kept p.risen).trans (.of_eq rfl)
  obtain ⟨number', -, loss', -⟩ := p.ready_after.shift_eq
  obtain ⟨number'', -, loss'', -⟩ := queued
  obtain ⟨t, opened, head⟩ := (kept.trans ((RecordKept.of_eq (congrArg Shift.current cleaned)).trans evaluated)).current current
  have same : p.risen.shift.number = p.opened.shift.number ∧ p.risen.shift.pendingLoss = p.opened.shift.pendingLoss := by
    rw [cleaned]
    exact ⟨rfl, rfl⟩
  have mine : p.FirstRecord r := ⟨first.number, first.origin, first.openTime, first.closeTime, first.incomplete,
    first.unreadLost, first.note⟩
  exact ⟨number'.trans (same.1.trans (number''.trans number)), loss'.trans (same.2.trans (loss''.trans loss)), t, opened,
    mine.head head⟩

end

/-! ## The first evaluation (R61, R73) -/

section
variable {p : Part}

theorem Part.evaluated_ceiling (p : Part) : p.evaluated.ceilState = (p.stageCeiling (p.stageDemand p.alloc)).ceilState ∧
    p.evaluated.ceiling = (p.stageCeiling (p.stageDemand p.alloc)).ceiling := by
  obtain ⟨state, -, -, limit, -⟩ := p.later_ceiling (p.stageCeiling (p.stageDemand p.alloc))
  exact ⟨state, limit⟩

/-- The ceiling of an evaluation (R61). -/
theorem Part.evaluated_air (p : Part) :
    (p.cfg.airCeiling = false → p.evaluated.ceilState = .disabled ∧ p.evaluated.ceiling = none) ∧
    (p.cfg.airCeiling = true → p.airKnown = true → p.evaluated.ceilState = .air ∧ p.evaluated.ceiling = some p.airSum) ∧
    (p.cfg.airCeiling = true → p.airKnown = false → p.alloc.ceilState = .disabled ∨ p.alloc.ceilState = .fallback →
      p.evaluated.ceilState = .fallback ∧ p.evaluated.ceiling = some p.cfg.fallback) := by
  obtain ⟨state, limit⟩ := p.evaluated_ceiling
  rw [state, limit]
  refine ⟨fun off => ?_, fun on known => ?_, fun on unknown was => ?_⟩
  · unfold Part.stageCeiling
    rw [off]
    exact ⟨rfl, rfl⟩
  · unfold Part.stageCeiling
    rw [on, known]
    exact ⟨rfl, rfl⟩
  · unfold Part.stageCeiling
    rw [on, unknown, p.stageDemand_ceiling]
    rcases was with was | was <;> rw [was] <;> exact ⟨rfl, rfl⟩

/-- The zone demand of an evaluation (R58). -/
theorem Part.evaluated_source (p : Part) :
    (∀ x, p.demandSource = some x → p.evaluated.demand = p.offeredBy x ∧ p.evaluated.demandHeld = false) ∧
    (p.demandSource = none → p.evaluated.demand = p.alloc.demand ∧ p.evaluated.demandHeld = true) := by
  obtain ⟨demand, held⟩ := p.evaluated_demand
  rw [demand, held]
  unfold Part.stageDemand
  refine ⟨fun x e => ?_, fun e => ?_⟩
  · rw [e]
    exact ⟨rfl, rfl⟩
  · rw [e]
    exact ⟨rfl, rfl⟩

theorem Part.ready_idle (p : Part) : p.ready.Idle := fun b => by
  refine .inl ?_
  rw [p.ready_after.burner_eq b, p.risen_vectors.1 b]
  rfl

/-- The start's end: the settling of the station risen and evaluated. -/
theorem Part.start_idle (p : Part) : ChangesOnly idleBlocks p.ready p.start := by
  rw [Part.start_eq]
  exact p.ready_idle.settleAll_frame

theorem Part.start_alloc (p : Part) (zone : p.cfg.zone ≠ .none) : p.start.alloc = p.start.evaluated ∧
    (∀ x, p.start.demandSource = some x → p.start.alloc.demand = p.start.offeredBy x ∧ p.start.alloc.demandHeld = false) ∧
    (p.start.demandSource = none → p.start.alloc.demand = p.alloc.demand ∧ p.start.alloc.demandHeld = true) ∧
    (p.cfg.airCeiling = false → p.start.alloc.ceilState = .disabled ∧ p.start.alloc.ceiling = none) ∧
    (p.cfg.airCeiling = true → p.start.airKnown = true →
      p.start.alloc.ceilState = .air ∧ p.start.alloc.ceiling = some p.start.airSum) ∧
    (p.cfg.airCeiling = true → p.start.airKnown = false → p.alloc.ceilState = .disabled →
      p.start.alloc.ceilState = .fallback ∧ p.start.alloc.ceiling = some p.cfg.fallback) := by
  -- the first evaluation
  obtain ⟨started, -, -, -, alloc, -, -, -⟩ := p.risen_registers
  have cfg : p.risen.cfg = p.cfg := p.risen_frame.cfg_eq
  have zoned : p.risen.cfg.zone ≠ .none := by rw [cfg]; exact zone
  have first : p.ready.alloc = p.risen.evaluated := Part.evaluate_alloc started zoned
  obtain ⟨-, firstNone⟩ := p.risen.evaluated_source
  obtain ⟨-, -, firstFallback⟩ := p.risen.evaluated_air
  rw [← first] at firstNone firstFallback
  rw [alloc] at firstNone firstFallback
  have after := p.ready_after
  -- the last evaluation
  have idle := p.ready_idle
  have prompt := idle.settlePoints_frame promptPoints
  have eq := p.start_eq
  rw [idle.settleAll_eq] at eq
  rw [eq]
  generalize p.ready.settlePoints promptPoints = u at prompt
  have frame := after.andThen prompt
  have ucfg : u.cfg = p.cfg := frame.cfg_eq.trans cfg
  have kept : u.alloc = p.ready.alloc := prompt.alloc_eq
  have ustarted := frame.started_eq.trans started
  have uzone : u.cfg.zone ≠ .none := by rw [ucfg]; exact zone
  have evaluated := Part.settle_evaluated ustarted uzone
  obtain ⟨-, lastNone⟩ := Part.settle_demand ustarted uzone
  have settled := u.settle_frame
  have middle := u.serviceAll_frame.andThen (Part.freezeAll_frame _)
  obtain ⟨z, frozen⟩ := u.serviceAll.freezeAll_alloc
  rw [show u.serviceAll.alloc = u.alloc from u.serviceAll_frame.alloc_eq, kept] at frozen
  have last := Part.settle_alloc ustarted uzone
  obtain ⟨-, -, fallback⟩ := u.serviceAll.freezeAll.evaluated_air
  rw [← last, frozen] at fallback
  have mcfg : u.serviceAll.freezeAll.cfg = p.cfg := middle.cfg_eq.trans ucfg
  have mknown : u.serviceAll.freezeAll.airKnown = u.airKnown := middle.airKnown_eq
  rw [mcfg, mknown] at fallback
  generalize u.settle = q at *
  have source : q.demandSource = u.demandSource := settled.demandSource_eq
  have source' : u.demandSource = p.risen.demandSource := frame.demandSource_eq
  have known : q.airKnown = u.airKnown := settled.airKnown_eq
  have known' : u.airKnown = p.risen.airKnown := frame.airKnown_eq
  obtain ⟨found, -⟩ := q.evaluated_source
  obtain ⟨off, air, -⟩ := q.evaluated_air
  rw [evaluated] at found off air
  rw [show q.cfg = p.cfg from settled.cfg_eq.trans ucfg] at off air
  refine ⟨evaluated.symm, found, fun none => ?_, off, air, fun on unknown was => ?_⟩
  · rw [source] at none
    obtain ⟨demand, held⟩ := lastNone none
    rw [kept] at demand
    exact ⟨demand.trans (firstNone (source'.symm.trans none)).1, held⟩
  · have unknown : u.airKnown = false := known.symm.trans unknown
    have first := (firstFallback (by rw [cfg]; exact on) (known'.symm.trans unknown) (.inl was)).1
    exact fallback on unknown (.inr first)

end

/-! ## The registers of a station that has started -/

section
variable {T : Set Block} {p q : Part}

theorem ChangesOnly.heat_eq (h : ChangesOnly T p q) (hT : ∀ b ∈ [Block.clock, .straps, .started, .cfg, .mode, .fuel, .air], b ∉ T)
    (parts : (∀ x : Fin 16, Block.peer x ∉ T) ∧ (∀ b : Fin 2, Block.burner b ∉ T) ∧
      ∀ f : Fin 6, Block.feeder f ∉ T ∧ Block.drive f ∉ T) (offer : Block.offer ∉ T) (alloc : q.alloc = p.alloc) :
    q.evaluated = p.evaluated ∧ q.airSum = p.airSum ∧ q.airKnown = p.airKnown ∧ q.demandSource = p.demandSource ∧
      q.offeredBy = p.offeredBy := by
  have same := h.sameHeat hT parts
  obtain ⟨offered, offer⟩ := h.same .offer offer
  refine ⟨by rw [q.evaluated_eq, p.evaluated_eq, same.stages offered offer, alloc], ?_, ?_, ?_, ?_⟩
  · unfold Part.airSum
    rw [same.air, same.cfg, same.fresh]
  · unfold Part.airKnown
    rw [same.air, same.cfg, same.fresh]
  · unfold Part.demandSource Part.offers
    rw [same.strap, same.started, same.cfg, same.fresh, offered]
  · funext x
    unfold Part.offeredBy
    rw [same.strap, same.fresh, offer]

end

/-- The blocks that START STATION may change. -/
def startBlocks : Set Block := riseBlocks ∪ {.alloc, .points} ∪ idleBlocks

@[simp] theorem mem_startBlocks {x : Block} : x ∈ startBlocks ↔
    (x ∈ riseBlocks ∨ x ∈ ({.alloc, .points} : Set Block)) ∨ x ∈ idleBlocks := Iff.rfl

section
variable (p : Part)

theorem Part.start_blocks : ChangesOnly startBlocks p p.start := p.ready_frame.andThen p.start_idle

/-- What stands behind the station risen: the settling changes no block but these. -/
theorem Part.start_after : ChangesOnly ({.alloc, .record, .points} ∪ idleBlocks) p.risen p.start :=
  p.ready_after.andThen p.start_idle

/-- The demand source counts an own offer from the start on (R34). -/
theorem Part.start_source : p.start.demandSource = if p.cfg.zone = .none then none
    else stations.find? fun x => if x = p.strapStation then p.alloc.offered else p.offers x := by
  have frame := p.start_blocks
  have started : p.start.started = true := p.start_after.started_eq.trans p.risen_registers.1
  generalize p.start = q at *
  have offers : q.offers = fun x => if x = p.strapStation then p.alloc.offered else p.offers x := by
    funext x
    unfold Part.offers
    rw [frame.strap_eq, started, frame.cfg_eq, frame.fresh_eq x, (frame.same .offer (by simp)).1, Bool.true_and]
    split <;> rfl
  unfold Part.demandSource
  rw [frame.cfg_eq, offers]

theorem Part.start_parts : (∀ b : Fin 2, p.start.burners[b] = p.burners[b].cleared .off) ∧
    (∀ f : Fin 6, p.start.feeders[f] = p.feeders[f].initial) ∧ (∀ n : Fin 4, p.start.fans[n] = p.fans[n].initial) ∧
    p.start.grate = p.grate.initial ∧ p.start.air = .reset ∧ p.start.nextFeeder = nextMultiple p.now 200 ∧
    p.start.nextCool = nextMultiple p.now 1000 ∧ p.start.started = true ∧ p.start.mode = .stop ∧
    p.start.line.statusDue = some (later p.now p.cfg.period) := by
  obtain ⟨started, mode, air, grate, -, feeder, cool, due⟩ := p.risen_registers
  obtain ⟨burners, feeders, fans⟩ := p.risen_vectors
  have after := p.start_after
  generalize p.start = q at *
  have air' : q.air = p.risen.air := after.same .air (by simp)
  have feeder' : q.nextFeeder = p.risen.nextFeeder := after.same .feederClock (by simp)
  have cool' : q.nextCool = p.risen.nextCool := after.same .fanClock (by simp)
  have due' : q.line.statusDue = p.risen.line.statusDue := after.same .statusTimer (by simp)
  exact ⟨fun b => (after.burner_eq b).trans (burners b), fun f => (after.feeder_eq f).trans (feeders f),
    fun n => (after.fan_eq n).trans (fans n), after.grate_eq.trans grate, air'.trans air, feeder'.trans feeder,
    cool'.trans cool, after.started_eq.trans started, after.mode_eq.trans mode, due'.trans due⟩

theorem Part.start_shift : p.start.shift.number = max p.highestShift p.shift.number ∧ p.start.shift.pendingLoss = 0 ∧
    ∃ r, p.start.shift.current = some r ∧ p.FirstRecord r := by
  obtain ⟨number, loss, r, current, first⟩ := p.ready_shift
  obtain ⟨number', -, loss', -⟩ := p.start_idle.shift_eq
  have kept : RecordKept p.ready p.start := by
    rw [Part.start_eq]
    exact p.ready.settleAll_kept
  obtain ⟨s, current', head⟩ := kept.current current
  exact ⟨number'.trans number, loss'.trans loss, s, current', first.head head⟩

/-- Points, AUTO-RESUME and the record after a start (R141, R145, R155). -/
theorem Part.start_points (i : Fin 62) : p.start.alarms.points[i].eff = p.start.effective i ∧
    (p.start.effective i = true → p.alarms.points[i].eff = false → p.alarms.points[i].state = .normal →
      p.alarms.points[i].shelvedUntil = none → Raised i p.now p.start) := by
  have points : p.ready.alarms.points = p.alarms.points := by
    have rise : p.risen.alarms.points = p.alarms.points := p.risen_frame.points_eq
    have evaluated : p.risen.evaluate.alarms.points = p.risen.alarms.points := (Part.evaluate_frame _).points_eq
    exact evaluated.trans rise
  have found := p.ready_idle.settleAll_points i
  rw [points, p.ready_frame.now_eq, ← Part.start_eq] at found
  exact found

theorem Part.start_auto (calm : ∀ i : Fin 62, p.start.effective i = true → (p.pointAttr i).latching = false) :
    p.start.alarms.autoResume = true := by
  have attr (i : Fin 62) : p.ready.pointAttr i = p.pointAttr i :=
    Part.pointAttr_congr (fun n => by rw [p.ready_frame.ext_eq]) i
  have kept := p.ready_idle.settleAll_auto fun i up => by
    rw [attr]
    rw [← Part.start_eq] at up
    exact calm i up
  rw [← Part.start_eq] at kept
  exact kept.trans p.ready_auto

end

/-- Settles O17: the station risen (`risen_registers`, `ready_shift`), its evaluation found again (`start_alloc`), and the
points that its conditions raise (`Idle.settleAll_points`, `Idle.settleAll_auto`). -/
theorem startStationStarts : Obligations.StartStationStarts := by
  unfold Obligations.StartStationStarts
  intro p unstarted single accepted
  have row : Takes .startStation p (p.start.reply 0x11 .done) := takes_row rfl (by
    dsimp only
    rw [if_neg (by simp [unstarted]), if_neg (by simp [single]), accepted])
  have alloc := p.start_alloc
  have frame := p.start_blocks
  have source := p.start_source
  obtain ⟨burners, feeders, fans, grate, air, feeder, cool, started, mode, due⟩ := p.start_parts
  obtain ⟨number, loss, r, current, first⟩ := p.start_shift
  have points := p.start_points
  have auto := p.start_auto
  have queued := fun heard room => p.start_idle.queued (p.ready_queued heard room)
  generalize p.start = t at *
  have replied := Part.reply_frame 0x11 .done [] t
  have host := Part.reply_host 0x11 .done [] t
  have same : ∀ i : Fin 62, (t.reply 0x11 .done []).effective i = t.effective i := fun i =>
    replied.effective_eq (fun b hb => by rintro rfl; simp at hb) (by simp) (by simp) (by simp)
  obtain ⟨evaluated, sum, known, src, offered⟩ := replied.heat_eq (by simp) (by simp) (by simp) rfl
  have hostSame : t.host = p.host := frame.host_eq (by simp) (by simp) (by simp) (by simp) (by simp)
  rw [hostSame] at host
  have latching (i : Fin 62) : t.pointAttr i = p.pointAttr i := Part.pointAttr_congr (fun n => by rw [frame.ext_eq]) i
  have peers : t.peers = p.peers := frame.peers_eq (by simp)
  have own : (t.reply 0x11 .done []).ownEntry.state = .live := if_pos started
  refine ⟨t.reply 0x11 .done [], row, started, mode, host, number, loss,
    ⟨r, current, first.number, first.origin, first.openTime, first.closeTime, first.incomplete, first.unreadLost, first.note⟩,
    due, queued, ⟨peers, own, src.trans source⟩, fun zone => ?_, burners, fun f => ?_, fun n => ?_, ?_, ?_, air, feeder, cool,
    fun i => ?_, fun calm => auto fun i up => calm i ((same i).trans up)⟩
  · obtain ⟨again, found, absent, off, on, fallback⟩ := alloc zone
    rw [evaluated, src, offered, known, sum]
    exact ⟨again, found, absent, off, on, fallback⟩
  · rw [show (t.reply 0x11 .done []).feeders[f] = _ from feeders f]
    exact ⟨rfl, rfl, rfl, rfl, rfl, rfl, rfl, rfl⟩
  · rw [show (t.reply 0x11 .done []).fans[n] = _ from fans n]
    rfl
  · rw [show (t.reply 0x11 .done []).grate = _ from grate]
    rfl
  · rw [show (t.reply 0x11 .done []).grate = _ from grate]
    rfl
  · rw [same i]
    obtain ⟨eff, raised⟩ := points i
    refine ⟨eff, fun up low was shelf => ?_⟩
    obtain ⟨state, -, time, latch, trip⟩ := raised up low was shelf
    rw [latching] at latch trip
    exact ⟨state, time, latch, trip⟩

end Sys2Proof.Machine
end

section
/-! OBLIGATION O28. Characters that are no whole frame, and what makes one whole. -/

namespace Sys2Proof.Machine

-- One proof at a time: the whole package as one text must not start a thread for each of them.
set_option Elab.async false

open Sys2Proof.Config

/-! ## The tests of a frame behind which more is heard -/

theorem getD_append_of_lt {l more : List Byte} {i : Nat} (h : i < l.length) : (l ++ more).getD i 0 = l.getD i 0 := by
  simp [List.getD_eq_getElem?_getD, List.getElem?_append_left h]

theorem byteAt_append_of_lt {l more : List Byte} {i : Nat} (h : i < l.length) : byteAt (l ++ more) i = byteAt l i := by
  rw [byteAt, byteAt, getD_append_of_lt h]

theorem headerGood_append {l more : List Byte} (long : 3 ≤ l.length) : headerGood (l ++ more) = headerGood l := by
  have filled : l.isEmpty = false ∧ (l ++ more).isEmpty = false := by cases l <;> simp at long ⊢
  have two : ¬ l.length < 2 ∧ ¬ (l ++ more).length < 2 := by rw [List.length_append]; omega
  have three : ¬ l.length < 3 ∧ ¬ (l ++ more).length < 3 := by rw [List.length_append]; omega
  simp only [headerGood, filled, two, three, byteAt_append_of_lt (show 0 < l.length by omega),
    byteAt_append_of_lt (show 2 < l.length by omega), getD_append_of_lt (show 1 < l.length by omega)]

theorem frameSize_append {l more : List Byte} (long : 3 ≤ l.length) : frameSize (l ++ more) = frameSize l := by
  rw [frameSize, frameSize, byteAt_append_of_lt (by omega)]

/-! ## Characters taken in -/

section
variable {p : Part} {chars : List Byte}

/-- The frame made whole, with the receiver behind it. -/
def Part.wholeTaken (l : List Byte) (p : Part) : Part :=
  (p.updLine fun x => { x with assembly := [], receiver := .behind }).wholeFrame l

/-- A frame made whole by a row, with or without characters behind it (R13). -/
theorem Part.assemble_whole {l more : List Byte} (heard : p.line.assembly ++ chars = l ++ more) (good : headerGood l = true)
    (size : l.length = frameSize l) :
    p.assemble chars = if more = [] then p.wholeTaken l else (p.wholeTaken l).discardPartial .deaf := by
  have long : 3 ≤ l.length := by rw [size, frameSize]; omega
  have same : frameSize (l ++ more) = l.length := by rw [frameSize_append long, size]
  unfold Part.assemble
  dsimp only
  rw [heard, headerGood_append long, good, same, List.length_append, List.take_left, if_neg (by decide), if_neg (by omega)]
  by_cases none : more = []
  · subst none
    rw [if_pos rfl, if_neg (by simp)]
    rfl
  · have some : 0 < more.length := List.length_pos_iff.2 none
    rw [if_neg none, if_pos (by omega)]
    rfl

theorem Part.takeChars_ready (ready : p.line.receiver = .ready) : p.takeChars chars = p.assemble chars := by
  unfold Part.takeChars
  rw [ready]

/-- A row of reception whose characters leave the fans alone (R15). -/
theorem takes_received (apart : p.strapRate ≠ 3) (idle : p.line.phase = .idle) (fans : (p.takeChars chars).fans = p.fans) :
    Takes (.frameReceived chars) p (p.takeChars chars).settleAll ∧
    Takes (.badHeaderDiscard chars) p (p.takeChars chars).settleAll := by
  have listening : p.listening = true := (p.listening_iff).2 ⟨apart, idle⟩
  have settled : (p.takeChars chars).settleAll.fans = p.fans := by
    rw [← fans]
    exact Vector.ext fun i lt => (Part.settleAll_frame _).fan_eq ⟨i, lt⟩
  have kept := Part.keepAborted_same p.fans _ settled
  exact ⟨takes_row rfl ((if_pos listening).trans kept), takes_row rfl ((if_pos listening).trans kept)⟩

theorem takes_deafened (cut : p.strapRate = 3 ∨ p.line.phase ≠ .idle) : Takes (.frameReceived chars) p p ∧
    Takes (.badHeaderDiscard chars) p p ∧ Takes (.interCharacterGap chars) p p ∧
    ∀ cause, Takes (.partialFrameDiscard cause chars) p p := by
  have silent : ¬ p.listening = true := by
    rw [p.listening_iff]
    tauto
  exact ⟨takes_row rfl (if_neg silent), takes_row rfl (if_neg silent), takes_row rfl (if_neg silent), fun cause =>
    takes_row rfl (if_pos (by simp [silent]))⟩

/-- A disturbance that cuts characters short (R14). -/
theorem takes_discard {cause : Disturbance} (apart : p.strapRate ≠ 3) (idle : p.line.phase = .idle)
    (open_ : p.line.receiver ≠ .deaf) (real : disturbs cause = true)
    (counts : p.partialStands chars = true ∨ spellsBreak cause = false) :
    Takes (.partialFrameDiscard cause chars) p (p.discardPartial .deaf) := by
  have listening : p.listening = true := (p.listening_iff).2 ⟨apart, idle⟩
  refine takes_row rfl ?_
  dsimp only
  rw [if_neg (by simp [listening, real, open_]), if_neg (by rcases counts with c | c <;> simp [c])]

/-- A break with no partial frame (R14). -/
theorem takes_break {cause : Disturbance} (apart : p.strapRate ≠ 3) (idle : p.line.phase = .idle)
    (open_ : p.line.receiver ≠ .deaf) (real : disturbs cause = true) (none : p.partialStands chars = false)
    (spacing : spellsBreak cause = true) :
    Takes (.partialFrameDiscard cause chars) p { p with line := { p.line with receiver := .deaf } } := by
  have listening : p.listening = true := (p.listening_iff).2 ⟨apart, idle⟩
  refine takes_row rfl ?_
  dsimp only
  rw [if_neg (by simp [listening, real, open_]), if_pos (by simp [none, spacing])]
  rfl

theorem disturbs_iff (c : Character) : disturbs (.badCharacter c) = true ↔ c.getLsbD 0 = false ∧
    (c.getLsbD 10 = false ∨ ((List.range 9).filter fun i => c.getLsbD (1 + i)).length % 2 = 0) := by
  simp only [disturbs, Bool.and_eq_true, Bool.not_eq_true', Bool.or_eq_true, framingError_iff, parityError_iff]
  rfl

/-- The gap's row (R14). -/
theorem takes_gap (apart : p.strapRate ≠ 3) (idle : p.line.phase = .idle) :
    (p.partialStands chars = true → Takes (.interCharacterGap chars) p (p.discardPartial .ready)) ∧
    (p.partialStands chars = false →
      Takes (.interCharacterGap chars) p { p with line := { p.line with receiver := .ready } }) := by
  have listening : p.listening = true := (p.listening_iff).2 ⟨apart, idle⟩
  refine ⟨fun some => takes_row rfl ((if_pos listening).trans ?_), fun none => takes_row rfl ((if_pos listening).trans ?_)⟩
  · exact if_pos some
  · unfold Part.lineIdled
    rw [if_neg (by simp [none])]
    rfl

theorem Part.partialStands_eq_false (h : p.line.receiver = .waiting ∨ p.line.receiver = .deaf ∨
    p.line.assembly ++ chars = []) : p.partialStands chars = false := by
  rw [Bool.eq_false_iff, ne_eq, p.partialStands_iff]
  rintro ⟨takes, some⟩
  rcases h with h | h | h
  · rw [h] at takes; simp at takes
  · rw [h] at takes; simp at takes
  · exact some h

/-- A frame with a wrong CHECK and the partial frame behind it, both counted (R14, R15). -/
theorem Part.discarded_twice (p : Part) :
    ((p.updLine fun x => { x with assembly := [], receiver := .behind }).badFrame).discardPartial .deaf = { p with
      line := { p.line with
        assembly := [], receiver := .deaf, counts := { p.line.counts with bad := p.line.counts.bad + 2 } },
      shift := { p.shift with current := p.shift.current.map fun x => { x with bad := x.bad + 2 } } } := by
  have two (n : Count) : n + 1 + 1 = n + 2 := by bv_omega
  simp only [Part.discardPartial, Part.badFrame, Part.updLine, Part.record, Option.map_map, two]
  congr 3
  funext r
  exact congrArg (fun b => { r with bad := b }) (two r.bad)

end

/-- Settles O28: each event of R14 by its law (`takes_discard`, `takes_break`, `takes_gap`), the rows of reception by
`takes_received`. -/
theorem discardedCharacters : Obligations.DiscardedCharacters := by
  unfold Obligations.DiscardedCharacters
  intro p chars discarded next faulty received alone
  have break_ : faulty 0 := ⟨rfl, .inl rfl⟩
  -- with no partial frame a break counts nothing, and a faulty character counts by itself
  have byItself (apart : p.strapRate ≠ 3) (idle : p.line.phase = .idle) (open_ : p.line.receiver ≠ .deaf)
      (none : p.partialStands chars = false) : alone :=
    ⟨takes_break apart idle open_ rfl none rfl, takes_break apart idle open_ ((disturbs_iff 0).2 break_) none rfl,
      fun c bad some => takes_discard apart idle open_ ((disturbs_iff c).2 bad) (.inr (beq_eq_false_iff_ne.2 some)),
      (takes_gap apart idle).2 none⟩
  have quiet {q : Part} (apart : p.strapRate ≠ 3) (idle : p.line.phase = .idle) (e : p.takeChars chars = q)
      (fans : q.fans = p.fans) : received q := by
    subst e
    exact takes_received apart idle fans
  refine ⟨fun c sound => takes_row rfl (if_pos ?_), takes_deafened, fun apart idle => ⟨fun deaf => ⟨?_, fun cause =>
    takes_row rfl (if_pos ?_), ?_⟩, fun waiting => ⟨?_, ?_⟩, fun behind => ⟨fun none => ?_, fun some => ?_⟩, fun ready => ⟨fun bad => ?_,
    fun good short => ?_, fun l more heard some good size check => ?_⟩, fun takes => ⟨fun some => ?_, fun none empty => ?_⟩⟩⟩
  · have none : disturbs (.badCharacter c) = false := by
      rw [Bool.eq_false_iff, ne_eq, disturbs_iff]
      exact sound
    rw [none]
    simp
  · exact quiet apart idle (by rw [Part.takeChars, deaf]) rfl
  · simp [deaf]
  · exact (takes_gap apart idle).2 (Part.partialStands_eq_false (.inr (.inl deaf)))
  · exact quiet apart idle (by rw [Part.takeChars, waiting]) rfl
  · exact byItself apart idle (by rw [waiting]; decide) (Part.partialStands_eq_false (.inl waiting))
  · exact quiet apart idle (by rw [Part.takeChars, behind]; exact if_pos none) rfl
  · exact quiet apart idle (by rw [Part.takeChars, behind]; exact if_neg some) rfl
  · refine quiet apart idle ((Part.takeChars_ready ready).trans ?_) rfl
    exact if_pos (by simp [bad])
  · refine quiet apart idle ((Part.takeChars_ready ready).trans ?_) rfl
    exact (if_neg (by simp [good])).trans (if_pos short)
  · refine quiet apart idle ((Part.takeChars_ready ready).trans ?_) rfl
    rw [Part.assemble_whole heard good size, if_neg some, Part.wholeTaken, Part.wholeFrame, if_neg (by simp [check])]
    exact Part.discarded_twice _
  · have stands : p.partialStands chars = true := (p.partialStands_iff chars).2 ⟨takes, some⟩
    have open_ : p.line.receiver ≠ .deaf := by rcases takes with t | t <;> rw [t] <;> decide
    exact ⟨takes_discard apart idle open_ rfl (.inl stands),
      fun c bad => takes_discard apart idle open_ ((disturbs_iff c).2 bad) (.inl stands), (takes_gap apart idle).1 stands⟩
  · have open_ : p.line.receiver ≠ .deaf := by rcases takes with t | t <;> rw [t] <;> decide
    exact byItself apart idle open_ (Part.partialStands_eq_false (.inr (.inr (by rw [none, empty]; rfl))))

end Sys2Proof.Machine
end

section
/-! SUPPORT. A relation of parts that the moves of points and the end of an event carry, walked once; and what becomes of a
claim record and of a mix ramp when they do. -/

namespace Sys2Proof.Machine

-- One proof at a time: the whole package as one text must not start a thread for each of them.
set_option Elab.async false

open Sys2Proof.Config

/-! ## Relations that points and the end of an event carry -/

/-- What R does not look at, and that it is carried from before to after a trip of a burner. -/
structure PointCarries (T : Set Block) (R : Part → Part → Prop) : Prop where
  alarms : alarmBlocks ⊆ T
  refl : ∀ p, R p p
  trans : ∀ {p q r}, R p q → R q r → R p r
  frame : ∀ {p q}, ChangesOnly T p q → R p q
  tripBurner : ∀ (b : Fin 2) (p : Part), R p (p.tripBurner b)

/-- And through the rest of an event's end. -/
structure Carries (T : Set Block) (R : Part → Part → Prop) : Prop extends PointCarries T R where
  alloc : Block.alloc ∈ T
  burners : ∀ b : Fin 2, Block.burner b ∈ T
  service : ∀ (k : Fin 3) (p : Part), R p (p.service k)
  autoResume : ∀ (b : Fin 2) (p : Part), R p (p.autoResume b)

namespace PointCarries

variable {T : Set Block} {R : Part → Part → Prop} (w : PointCarries T R)
include w

theorem points {p q : Part} (h : ChangesOnly pointBlocks p q) : R p q := w.frame (h.alarms.mono w.alarms)

theorem forAll {α : Type} {f : α → Part → Part} (h : ∀ a p, R p (f a p)) (l : List α) (p : Part) : R p (p.forAll l f) := by
  induction l generalizing p with
  | nil => exact w.refl p
  | cons a l ih => exact w.trans (h a p) (ih _)

theorem tripBound (x : Binding) (p : Part) : R p (p.tripBound x) := by
  cases x with
  | none => exact w.refl p
  | station => exact w.trans (w.tripBurner 0 p) (w.tripBurner 1 _)
  | burner b => exact w.tripBurner b p

theorem actTrip (i : Fin 62) (p : Part) : R p (p.actTrip i) := by
  obtain ⟨o, e, eq⟩ := p.actTrip_eq i
  have filled := (p.tripBound (p.pointAttr i).binding).actTrip_frame_filled i o e (p.pointAttr i).lineWide
  rw [eq]
  refine w.trans (w.tripBound _ p) (w.frame (filled.mono fun x hx => w.alarms ?_))
  simp at hx ⊢
  tauto

theorem activate (i : Fin 62) (p : Part) : R p (p.activate i) := by
  have counted : ChangesOnly pointBlocks p ((p.sounded i).record (ShiftRec.activation (p.pointAttr i).cls)) :=
    ((p.sounded_frame i).mono).next (Part.record_frame _ _)
  rw [Part.activate_eq]
  exact ite_keeps (I := R p) (fun _ => w.trans (w.points counted) (w.actTrip i _)) fun _ => w.points counted

theorem movePoint (i : Fin 62) (s : PointState) (p : Part) : R p (p.movePoint i s) :=
  w.points (((p.updPoint_frame i fun x => { x with state := s }).mono (U := pointBlocks)).next (Part.offerPoint_frame i s _))

theorem risePoint (i : Fin 62) (p : Part) : R p (p.risePoint i) := by
  unfold Part.risePoint
  split
  · exact w.activate i p
  · exact w.activate i p
  · exact w.movePoint i _ p
  · exact w.refl p

theorem settlePoint (i : Fin 62) (same : Bool) (p : Part) : R p (p.settlePoint i same) := by
  have found : ChangesOnly pointBlocks p (p.updPoint i fun x => { x with eff := p.effective i }) :=
    (p.updPoint_frame i _).mono
  have fallen := found.trans (Part.fallPoint_frame i (p.updPoint i fun x => { x with eff := p.effective i }))
  exact ite_keeps (fun _ => w.refl p) fun _ => ite_keeps (fun _ => w.points found) fun _ =>
    ite_keeps (fun _ => w.trans (w.points found) (w.risePoint i _)) fun _ =>
      ite_keeps (I := R p) (fun _ => w.points (fallen.next (Part.hornCheck_frame _))) fun _ => w.points fallen

theorem settlePoints (l : List (Fin 62)) (p : Part) : R p (p.settlePoints l) :=
  w.forAll (fun i p => w.settlePoint i false p) l p

end PointCarries

namespace Carries

variable {T : Set Block} {R : Part → Part → Prop} (w : Carries T R)
include w

theorem settleHolds (p : Part) : R p p.settleHolds :=
  w.toPointCarries.forAll (fun b p => w.trans
    (w.frame ((p.followCauses_frame b).mono fun x hx => by
      rw [Set.mem_singleton_iff] at hx
      exact hx ▸ w.burners b)) (w.autoResume b _)) burnerIds p

theorem settle (p : Part) : R p p.settle := by
  have served : R p p.serviceAll := w.toPointCarries.forAll w.service resourceIds p
  have found : ChangesOnly ({.alloc} ∪ pointBlocks) p.serviceAll (p.serviceAll.freezeAll.evaluate.settlePoints quietPoints) :=
    (((Part.freezeAll_frame _).andThen (Part.evaluate_frame _)).andThen (Part.settleQuiet_frame _)).mono fun x hx => by
      simp at hx ⊢
      tauto
  rw [p.settle_eq]
  refine w.trans served (w.frame (found.mono fun x hx => ?_))
  rcases hx with rfl | hx
  · exact w.alloc
  · exact w.alarms (.inl (.inl hx))

theorem settleAll (p : Part) : R p p.settleAll := by
  rw [p.settleAll_eq]
  exact w.trans (w.trans (w.toPointCarries.settlePoints promptPoints p) (w.settleHolds _)) (w.settle _)

end Carries

/-! ## A burner's moves, by what it gives up -/

/-- The blocks a burner's change of state writes besides LIGHT-OFF, MIX-CHANGE and its mix. -/
def burnerOwnBlocks (b : Fin 2) : Set Block := {.burner b, .igniters, .driveOut, .record, .events} ∪ Set.range .drive

theorem Part.burnerTo_own (b : Fin 2) (s : BurnerState) (fix : Burner → Burner) (mark : Bool) (p : Part) :
    ChangesOnly (burnerOwnBlocks b) (p.leaveFor b s) (p.burnerTo b s fix mark) := by
  have moved : ChangesOnly (burnerOwnBlocks b) (p.leaveFor b s) (((p.leaveFor b s).updBurner b fun x => fix (x.cleared s)).updOutput
      fun o => { o with igniter := o.igniter.set b (s == .igniting) }) := by
    exact (((p.leaveFor b s).updBurner_frame b _).andThen
      (Part.igniter_frame (fun v => v.set b (s == .igniting)) _)).mono fun x hx => by
      simp only [burnerOwnBlocks, Set.mem_union, Set.mem_insert_iff, Set.mem_singleton_iff] at hx ⊢
      tauto
  have after := Part.afterBurner_frame b s mark (((p.leaveFor b s).updBurner b fun x => fix (x.cleared s)).updOutput fun o =>
    { o with igniter := o.igniter.set b (s == .igniting) })
  exact moved.trans (after.mono fun x hx => by
    simp only [burnerOwnBlocks, Set.mem_union, Set.mem_insert_iff, Set.mem_singleton_iff] at hx ⊢
    tauto)

@[simp] theorem mem_burnerOwnBlocks {b : Fin 2} {x : Block} : x ∈ burnerOwnBlocks b ↔
    x ∈ ({.burner b, .igniters, .driveOut, .record, .events} : Set Block) ∨ x ∈ Set.range Block.drive := Iff.rfl

/-! ## A claim record gives way (R48, R49, R51) -/

/-- From p to q no user has been granted k, and while the station is SILENT nobody enters its wait list and its record goes on or
is IDLE. -/
structure Quits (k : Fin 3) (p q : Part) : Prop where
  held : q.claims[k].state = .held → p.claims[k].state = .held ∧ q.claims[k].user = p.claims[k].user
  hush : p.line.silent = true → q.line.silent = true ∧ ListKept k p q ∧
    (q.claims[k].state = .idle ∨ (q.claims[k].state = p.claims[k].state ∧ q.claims[k].user = p.claims[k].user))

section
variable {k : Fin 3} {p q r : Part}

theorem Quits.refl (p : Part) : Quits k p p := ⟨fun h => ⟨h, rfl⟩, fun s => ⟨s, .refl p, .inr ⟨rfl, rfl⟩⟩⟩

theorem Quits.trans (h : Quits k p q) (g : Quits k q r) : Quits k p r := by
  refine ⟨fun e => ?_, fun s => ?_⟩
  · obtain ⟨held, user⟩ := g.held e
    obtain ⟨held', user'⟩ := h.held held
    exact ⟨held', user.trans user'⟩
  · obtain ⟨silent, list, goes⟩ := h.hush s
    obtain ⟨silent', list', goes'⟩ := g.hush silent
    refine ⟨silent', list.trans list', ?_⟩
    rcases goes' with idle | ⟨state, user⟩
    · exact .inl idle
    · rcases goes with idle | ⟨state', user'⟩
      · exact .inl (state.trans idle)
      · exact .inr ⟨state.trans state', user.trans user'⟩

theorem Quits.of_same (state : q.claims[k].state = p.claims[k].state) (user : q.claims[k].user = p.claims[k].user)
    (list : ListKept k p q) (silent : q.line.silent = p.line.silent) : Quits k p q :=
  ⟨fun e => ⟨state.symm.trans e, user⟩, fun s => ⟨silent.trans s, list, .inr ⟨state, user⟩⟩⟩

theorem Quits.of_frame {T : Set Block} (h : ChangesOnly T p q)
    (hT : Block.claim k ∉ T ∧ Block.waitList k ∉ T ∧ Block.silent ∉ T := by simp) : Quits k p q := by
  obtain ⟨claim, list, silent⟩ := hT
  obtain ⟨state, user, -⟩ := h.same (.claim k) claim
  exact .of_same state user (.of_frame h list) (h.silent_eq silent)

/-- A record that leaves its state for IDLE. -/
theorem Quits.of_idle (state : q.claims[k].state = .idle) (list : ListKept k p q) (silent : q.line.silent = p.line.silent) :
    Quits k p q :=
  ⟨fun e => absurd (state.symm.trans e) nofun, fun s => ⟨silent.trans s, list, .inl state⟩⟩

/-- Service grants nothing, and serves nobody while the station is SILENT (R42). -/
theorem Part.service_quits (j : Fin 3) (p : Part) : Quits k p (p.service j) := by
  rcases Part.service_eq j p with same | ⟨was, -, heard, served⟩
  · rw [same]
    exact .refl p
  · rw [served]
    by_cases e : k = j
    · subst e
      refine ⟨fun held => ?_, fun s => absurd (heard.symm.trans s) nofun⟩
      rw [Part.updRes_claims_self] at held
      exact nomatch held
    · exact .of_same (by rw [Part.updRes_claims_other _ _ e]) (by rw [Part.updRes_claims_other _ _ e])
        (fun u mem => by rwa [Part.updRes_claims_other _ _ e] at mem) rfl

theorem Part.withdraw_quits (j : Fin 3) (u : Nat) (p : Part) : Quits k p (p.withdraw j u) := by
  have silent : (p.withdraw j u).line.silent = p.line.silent := (p.withdraw_frame j u).silent_eq
  have list : ListKept k p (p.withdraw j u) := p.withdraw_list j u
  by_cases e : k = j
  · subst e
    -- the record left WAITING is served only where the station is heard
    by_cases waiting : p.claims[k].user = some u ∧ p.claims[k].state = .waiting
    · obtain ⟨user, state⟩ := waiting
      have gone : p.withdraw k u = (p.updRes k fun r => { r.toIdle with waitList := r.waitList.erase u }).service k := by
        unfold Part.withdraw
        simp only [user, state, beq_self_eq_true, Bool.true_and, Bool.and_true]
        rfl
      have idle : Quits k p (p.updRes k fun r => { r.toIdle with waitList := r.waitList.erase u }) :=
        .of_idle (by rw [Part.updRes_claims_self]; rfl) (fun v mem => by
          rw [Part.updRes_claims_self] at mem
          exact List.mem_of_mem_erase mem) rfl
      rw [gone]
      exact idle.trans (Part.service_quits k _)
    · obtain ⟨f, near, withdrawn⟩ := p.withdraw_near k u
      obtain ⟨state, user, -⟩ := near.claims k
      rw [Part.updRes_claims_self] at state user
      cases withdrawn with
      | released _ _ idle | dropped _ _ idle => exact .of_idle (state.trans idle) list silent
      | next own was => exact absurd ⟨own, was⟩ waiting
      | left _ same own => exact .of_same (state.trans same) (user.trans own) list silent
  · exact .of_frame (p.withdraw_frame j u) (by simp [leaveBlocks, sendBlocks, e])

theorem Part.endRamp_quits (b : Fin 2) (p : Part) : Quits k p (p.endRamp b) := by
  unfold Part.endRamp
  split
  · next r _ =>
    exact .trans (.of_frame ((p.replaceMix_frame b r.target).andThen (Part.setRamp_frame b none _))) (Part.withdraw_quits 2 _ _)
  · exact .refl p

theorem Part.leaveFor_quits (b : Fin 2) (s : BurnerState) (p : Part) : Quits k p (p.leaveFor b s) := by
  have left : Quits k p (if s = .lightWait ∨ s = .igniting ∨ s = .loading then p else p.withdraw 0 b.val) :=
    ite_keeps (I := Quits k p) (fun _ => .refl p) fun _ => Part.withdraw_quits 0 _ p
  exact ite_keeps (I := Quits k p) (fun _ => left) fun _ => left.trans (Part.endRamp_quits b _)

theorem Part.burnerTo_quits (b : Fin 2) (s : BurnerState) (fix : Burner → Burner) (mark : Bool) (p : Part) :
    Quits k p (p.burnerTo b s fix mark) :=
  (p.leaveFor_quits b s).trans (.of_frame (p.burnerTo_own b s fix mark))

theorem Part.request_quits (j : Fin 3) (u : Nat) (p : Part) : Quits k p (p.request j u) := by
  by_cases silent : p.line.silent = true
  · have same : p.request j u = p := if_pos (by simp [silent])
    rw [same]
    exact .refl p
  · by_cases e : k = j
    · subst e
      unfold Part.request
      dsimp only
      refine ite_keeps (fun _ => .refl p) fun _ => ite_keeps (fun _ => .refl p) fun _ => .trans ?_ (Part.service_quits k _)
      refine ⟨fun held => ?_, fun s => absurd s silent⟩
      rw [Part.updRes_claims_self] at held ⊢
      exact ⟨held, by dsimp only at held ⊢; rw [held]; rfl⟩
    · exact .of_frame (p.request_frame j u) (by simp [e])

/-- Neither the moves of points nor the end of an event grants a resource. -/
theorem quits_carries (k : Fin 3) : Carries (alarmBlocks ∪ {.alloc} ∪ Set.range .burner) (Quits k) where
  alarms x hx := .inl (.inl hx)
  refl := .refl
  trans := .trans
  frame h := .of_frame h
  tripBurner b p := ite_keeps (I := Quits k p) (fun _ => .refl p) fun _ => p.burnerTo_quits b _ _ _
  alloc := .inl (.inr rfl)
  burners b := .inr ⟨b, rfl⟩
  service j p := p.service_quits j
  autoResume b p := by
    refine ite_keeps (I := Quits k p) (fun _ => ?_) fun _ => .refl p
    unfold Part.resume
    split
    · exact p.burnerTo_quits b _ _ _
    · exact (p.burnerTo_quits b _ _ _).trans (Part.request_quits 0 _ _)

end

end Sys2Proof.Machine
end

section
/-! SUPPORT. The station becomes SILENT: every waiting user is refused (R19, R51). -/

namespace Sys2Proof.Machine

-- One proof at a time: the whole package as one text must not start a thread for each of them.
set_option Elab.async false

open Sys2Proof.Config

/-! ## A mix ramp stands, or has ended at its target (R118) -/

/-- From p to q the mix ramp of burner b stands, with its mix and its place in the wait list of MIX-CHANGE, or it has ended at
its target. -/
structure RampGoes (b : Fin 2) (p q : Part) : Prop where
  feeders : q.feedersOf b = p.feedersOf b
  goes : (q.ramps[b] = p.ramps[b] ∧ (∀ f ∈ p.feedersOf b, q.feeders[f].mix = p.feeders[f].mix) ∧
      (b.val ∈ p.claims[(2 : Fin 3)].waitList → p.ramps[b] ≠ none → b.val ∈ q.claims[(2 : Fin 3)].waitList)) ∨
    (q.ramps[b] = none ∧ ∃ r, p.ramps[b] = some r ∧ ∀ f ∈ p.feedersOf b, q.feeders[f].mix = r.target[f])

section
variable {b : Fin 2} {p q r : Part} {T : Set Block}

theorem RampGoes.refl (p : Part) : RampGoes b p p := ⟨rfl, .inl ⟨rfl, fun _ _ => rfl, fun mem _ => mem⟩⟩

theorem RampGoes.trans (h : RampGoes b p q) (g : RampGoes b q r) : RampGoes b p r := by
  refine ⟨g.feeders.trans h.feeders, ?_⟩
  have back (f : Fin 6) (mem : f ∈ p.feedersOf b) : f ∈ q.feedersOf b := by rw [h.feeders]; exact mem
  rcases h.goes with ⟨ramp, mix, list⟩ | ⟨none, x, some, target⟩
  · rcases g.goes with ⟨ramp', mix', list'⟩ | ⟨none', y, some', target'⟩
    · exact .inl ⟨ramp'.trans ramp, fun f mem => (mix' f (back f mem)).trans (mix f mem),
        fun mem some => list' (list mem some) (by rw [ramp]; exact some)⟩
    · exact .inr ⟨none', y, ramp.symm.trans some', fun f mem => target' f (back f mem)⟩
  · rcases g.goes with ⟨ramp', mix', -⟩ | ⟨-, y, some', -⟩
    · exact .inr ⟨ramp'.trans none, x, some, fun f mem => (mix' f (back f mem)).trans (target f mem)⟩
    · exact absurd (none.symm.trans some') nofun

theorem ChangesOnly.feedersOf_eq (h : ChangesOnly T p q) (hT : ∀ f : Fin 6, Block.feeder f ∉ T) :
    q.feedersOf b = p.feedersOf b := by
  unfold Part.feedersOf
  refine List.filter_congr fun f _ => ?_
  rw [(h.sameMeters hT f).1]

theorem RampGoes.of_frame (h : ChangesOnly T p q) (hT : (∀ f : Fin 6, Block.feeder f ∉ T) ∧ Block.ramp b ∉ T := by simp)
    (list : b.val ∈ p.claims[(2 : Fin 3)].waitList → b.val ∈ q.claims[(2 : Fin 3)].waitList) : RampGoes b p q := by
  refine ⟨h.feedersOf_eq hT.1, .inl ⟨h.ramp_eq b hT.2, fun f _ => ?_, fun mem _ => list mem⟩⟩
  have measured : q.feeders[f].measured = p.feeders[f].measured := h.same (.feeder f) (hT.1 f)
  have mix := congrArg Feeder.mix measured
  exact mix

theorem RampGoes.of_frame' (h : ChangesOnly T p q) (hT : (∀ f : Fin 6, Block.feeder f ∉ T) ∧ Block.ramp b ∉ T := by simp)
    (list : Block.waitList 2 ∉ T := by simp) : RampGoes b p q :=
  .of_frame h hT fun mem => by
    have same : q.claims[(2 : Fin 3)].waitList = p.claims[(2 : Fin 3)].waitList := h.same (.waitList 2) list
    rwa [same]

/-- A withdrawal of another user leaves a user in the list. -/
theorem Part.withdraw_stays {k j : Fin 3} {u v : Nat} (apart : k = j → v ≠ u) (mem : v ∈ p.claims[k].waitList) :
    v ∈ (p.withdraw j u).claims[k].waitList := by
  by_cases e : k = j
  · subst e
    obtain ⟨f, near, withdrawn⟩ := p.withdraw_near k u
    have list := (near.claims k).2.2
    rw [Part.updRes_claims_self] at list
    rw [list]
    cases withdrawn with
    | released _ _ _ _ same => rwa [same]
    | dropped _ _ _ _ same | next _ _ _ _ same | left _ _ _ same =>
      rw [same]
      exact (List.mem_erase_of_ne (apart rfl)).2 mem
  · have same : (p.withdraw j u).claims[k].waitList = p.claims[k].waitList :=
      (p.withdraw_frame j u).same (.waitList k) (by simp [e])
    rwa [same]

theorem Part.endRamp_goes (c : Fin 2) (p : Part) : RampGoes b p (p.endRamp c) ∧ (c = b → (p.endRamp c).ramps[b] = none) := by
  cases ramp : p.ramps[c] with
  | none =>
    have same : p.endRamp c = p := by rw [Part.endRamp, ramp]
    rw [same]
    exact ⟨.refl p, fun e => e ▸ ramp⟩
  | some x =>
    have ended : p.endRamp c = ((p.replaceMix c x.target).setRamp c none).withdraw 2 c.val := by rw [Part.endRamp, ramp]
    rw [ended]
    have left := Part.withdraw_frame 2 c.val ((p.replaceMix c x.target).setRamp c none)
    have goes : RampGoes b ((p.replaceMix c x.target).setRamp c none) (((p.replaceMix c x.target).setRamp c none).withdraw 2 c.val) ∨
        c = b := by
      by_cases e : c = b
      · exact .inr e
      · exact .inl (.of_frame left (by simp) (Part.withdraw_stays fun _ => fun same => e (Fin.ext same.symm)))
    have mixes (f : Fin 6) := p.replaceMix_mix c x.target f
    have feeders : (p.replaceMix c x.target).feedersOf b = p.feedersOf b := p.replaceMix_feedersOf c b x.target
    have list : (p.replaceMix c x.target).claims[(2 : Fin 3)].waitList = p.claims[(2 : Fin 3)].waitList :=
      (p.replaceMix_frame c x.target).same (.waitList 2) (by simp)
    have ramps := (p.replaceMix_frame c x.target).ramp_eq b
    by_cases e : c = b
    · subst e
      have none : (((p.replaceMix c x.target).setRamp c none).withdraw 2 c.val).ramps[c] = none :=
        (left.ramp_eq c).trans (set_self ..)
      refine ⟨⟨(left.feedersOf_eq (by simp)).trans feeders, .inr ⟨none, x, ramp, fun f mem => ?_⟩⟩, fun _ => none⟩
      exact ((left.mix_eq f).trans (mixes f)).trans (if_pos mem)
    · have ramp' : ((p.replaceMix c x.target).setRamp c none).ramps[b] = p.ramps[b] :=
        (set_other _ _ _ _ (Ne.symm e)).trans ramps
      have mid : RampGoes b p ((p.replaceMix c x.target).setRamp c none) :=
        ⟨feeders, .inl ⟨ramp', fun f mem => ?_, fun mem _ => ?_⟩⟩
      · exact ⟨mid.trans (goes.resolve_right e), fun same => absurd same e⟩
      · refine (mixes f).trans (if_neg fun other => e ?_)
        exact ((p.mem_feedersOf.1 other).2.symm.trans (p.mem_feedersOf.1 mem).2)
      · show b.val ∈ (p.replaceMix c x.target).claims[(2 : Fin 3)].waitList
        rw [list]
        exact mem

theorem Part.burnerTo_goes (c : Fin 2) (s : BurnerState) (fix : Burner → Burner) (mark : Bool) (p : Part) :
    RampGoes b p (p.burnerTo c s fix mark) := by
  have left : RampGoes b p (if s = .lightWait ∨ s = .igniting ∨ s = .loading then p else p.withdraw 0 c.val) :=
    ite_keeps (I := RampGoes b p) (fun _ => .refl p) fun _ => .of_frame' (p.withdraw_frame 0 _)
  have leaves : RampGoes b p (p.leaveFor c s) :=
    ite_keeps (I := RampGoes b p) (fun _ => left) fun _ => left.trans (Part.endRamp_goes c _).1
  exact leaves.trans (.of_frame' (p.burnerTo_own c s fix mark))

theorem rampGoes_carries (b : Fin 2) : Carries (alarmBlocks ∪ {.alloc} ∪ Set.range .burner ∪ Set.range .claim) (RampGoes b) where
  alarms x hx := .inl (.inl (.inl hx))
  refl := .refl
  trans := .trans
  frame h := .of_frame' h
  tripBurner c p := ite_keeps (I := RampGoes b p) (fun _ => .refl p) fun _ => p.burnerTo_goes c _ _ _
  alloc := .inl (.inl (.inr rfl))
  burners c := .inl (.inr ⟨c, rfl⟩)
  service j p := .of_frame' (p.service_frame j)
  autoResume c p := by
    refine ite_keeps (I := RampGoes b p) (fun _ => ?_) fun _ => .refl p
    unfold Part.resume
    split
    · exact p.burnerTo_goes c _ _ _
    · exact (p.burnerTo_goes c _ _ _).trans (.of_frame' (Part.request_frame 0 _ _))

end

/-! ## A burner that waits for LIGHT-OFF, or is out -/

/-- Another user stays in the wait list of LIGHT-OFF when burner c moves. -/
theorem Part.burnerTo_stays {p : Part} {c : Fin 2} {u : Nat} (s : BurnerState) (fix : Burner → Burner) (mark : Bool)
    (apart : u ≠ c.val) (mem : u ∈ p.claims[(0 : Fin 3)].waitList) :
    u ∈ (p.burnerTo c s fix mark).claims[(0 : Fin 3)].waitList := by
  have left : u ∈ (if s = .lightWait ∨ s = .igniting ∨ s = .loading then p else p.withdraw 0 c.val).claims[(0 : Fin 3)].waitList :=
    ite_keeps (I := fun q : Part => u ∈ q.claims[(0 : Fin 3)].waitList) (fun _ => mem)
      fun _ => Part.withdraw_stays (fun _ => apart) mem
  have ramped (q : Part) : (q.endRamp c).claims[(0 : Fin 3)].waitList = q.claims[(0 : Fin 3)].waitList :=
    (q.endRamp_frame c).same (.waitList 0) (by simp)
  have leaves : u ∈ (p.leaveFor c s).claims[(0 : Fin 3)].waitList :=
    ite_keeps (I := fun q : Part => u ∈ q.claims[(0 : Fin 3)].waitList) (fun _ => left) fun _ => by rwa [ramped]
  have own : (p.burnerTo c s fix mark).claims[(0 : Fin 3)].waitList = (p.leaveFor c s).claims[(0 : Fin 3)].waitList :=
    (p.burnerTo_own c s fix mark).same (.waitList 0) (by simp)
  rwa [own]

/-- Burner b goes on waiting for LIGHT-OFF, or is out. -/
def WaitsOrOut (b : Fin 2) (p q : Part) : Prop := b.val ∈ p.claims[(0 : Fin 3)].waitList ∨ p.burners[b].out →
  b.val ∈ q.claims[(0 : Fin 3)].waitList ∨ q.burners[b].out

theorem waitsOrOut_carries (b : Fin 2) : PointCarries (alarmBlocks ∪ {.alloc}) (WaitsOrOut b) where
  alarms x hx := .inl hx
  refl p := id
  trans h g := g ∘ h
  frame {p q} h waits := by
    have list : q.claims[(0 : Fin 3)].waitList = p.claims[(0 : Fin 3)].waitList := h.same (.waitList 0) (by simp)
    have burner := h.burner_eq b
    rw [list, burner]
    exact waits
  tripBurner c p waits := by
    unfold Part.tripBurner
    by_cases out : p.burners[b].out
    · refine .inr ?_
      split
      · exact out
      · next going =>
        by_cases e : b = c
        · subst e
          rw [Part.burnerTo_burner]
          exact .inr rfl
        · rw [Part.burnerTo_other e]
          exact out
    · have mem := waits.resolve_right out
      split
      · exact .inl mem
      · by_cases e : b = c
        · subst e
          refine .inr ?_
          rw [Part.burnerTo_burner]
          exact .inr rfl
        · exact .inl (Part.burnerTo_stays _ id false (fun same => e (Fin.ext same)) mem)

/-! ## The waiting users refused (R51) -/

section
variable {p : Part}

/-- A burner told that it is refused is OFF; another stays as it is. -/
theorem Part.tellRefused_burner (u : Nat) (b : Fin 2) (p : Part) : (p.tellRefused 0 u).burners[b] =
    if Fin.ofNat 2 u = b then p.burners[b].cleared .off else p.burners[b] := by
  have told : p.tellRefused 0 u = p.enterOff (Fin.ofNat 2 u) := by
    unfold Part.tellRefused
    rw [if_neg (by decide), if_neg (by decide)]
  rw [told, Part.enterOff]
  split
  · next e =>
    subst e
    rw [Part.burnerTo_burner]
    rfl
  · next e => exact Part.burnerTo_other (Ne.symm e) _ _ _ _

theorem Part.tellRefused_fan (u : Nat) (n : Fin 4) (p : Part) : (p.tellRefused 1 u).fans[n].state =
    if Fin.ofNat 4 u = n then .stopped else p.fans[n].state := by
  have told : p.tellRefused 1 u = p.fanTo (Fin.ofNat 4 u) .stopped := if_pos rfl
  rw [told]
  generalize Fin.ofNat 4 u = m
  split
  · next e =>
    subst e
    rw [Part.fanTo_fan]
    rfl
  · next e =>
    have frame := p.fanTo_frame m .stopped
    rw [frame.fan_eq n (by simp [Ne.symm e])]

theorem Part.tellRefused_goes (k : Fin 3) (u : Nat) (b : Fin 2) (p : Part) : RampGoes b p (p.tellRefused k u) ∧
    (k = 2 → Fin.ofNat 2 u = b → (p.tellRefused k u).ramps[b] = none) := by
  unfold Part.tellRefused
  split
  · next e => exact ⟨.of_frame' (p.fanTo_frame _ _), fun e' => absurd (e.symm.trans e') (by decide)⟩
  · split
    · exact ⟨(p.endRamp_goes _).1, fun _ own => (p.endRamp_goes (b := b) (Fin.ofNat 2 u)).2 own⟩
    · next e => exact ⟨p.burnerTo_goes _ _ _ _, fun e' => absurd e' e⟩

theorem Part.tellRefused_quits (k j : Fin 3) (u : Nat) (p : Part) : Quits j p (p.tellRefused k u) := by
  have fan (n : Fin 4) : Quits j p (p.fanTo n .stopped) := by
    rw [Part.fanTo_eq]
    have left : Quits j p (p.leaveForFan n .stopped) := p.withdraw_quits 1 n.val
    have moved : Quits j (p.leaveForFan n .stopped)
        (((p.leaveForFan n .stopped).updFan n fun x => x.cleared .stopped).updOutput (OutputImage.fanTo n .stopped)) :=
      .of_same rfl rfl (fun _ mem => mem) rfl
    exact (left.trans moved).trans (.of_frame (Part.afterFan_frame n .stopped _))
  exact ite_keeps (I := Quits j p) (fun _ => fan _) fun _ => ite_keeps (I := Quits j p) (fun _ => p.endRamp_quits _)
    fun _ => p.burnerTo_quits _ _ _ _

/-- The list of k emptied and its record HELD or IDLE, before its users are told. -/
def Resource.refused (r : Resource) : Resource :=
  if r.state = .held then { r with waitList := [] } else { r.toIdle with waitList := [] }

theorem Part.refuseSilent_eq (k : Fin 3) (p : Part) :
    p.refuseSilent k = (p.updRes k Resource.refused).forAll p.claims[k].waitList (Part.tellRefused k) := rfl

theorem Part.updRes_refused (k j : Fin 3) (p : Part) : Quits j p (p.updRes k Resource.refused) := by
  by_cases e : j = k
  · subst e
    have list : ListKept j p (p.updRes j Resource.refused) := fun u mem => by
      rw [Part.updRes_claims_self, Resource.refused] at mem
      split at mem <;> cases mem
    by_cases held : p.claims[j].state = .held
    · have same : (p.updRes j Resource.refused).claims[j] = { p.claims[j] with waitList := [] } := by
        rw [Part.updRes_claims_self, Resource.refused, if_pos held]
      exact .of_same (by rw [same]) (by rw [same]) list rfl
    · have same : (p.updRes j Resource.refused).claims[j] = { p.claims[j].toIdle with waitList := [] } := by
        rw [Part.updRes_claims_self, Resource.refused, if_neg held]
      exact .of_idle (by rw [same]; rfl) list rfl
  · have same := Part.updRes_claims_other Resource.refused p e
    exact .of_same (by rw [same]) (by rw [same]) (fun u mem => by rwa [same] at mem) rfl

theorem Part.refuseSilent_quits (k j : Fin 3) (p : Part) : Quits j p (p.refuseSilent k) := by
  rw [Part.refuseSilent_eq]
  exact (p.updRes_refused k j).trans ((quits_carries j).toPointCarries.forAll (fun u q => q.tellRefused_quits k j u) _ _)

/-- What the refusal of its users makes of k. -/
theorem Part.refuseSilent_claim (k : Fin 3) {p : Part} (silent : p.line.silent = true) :
    (p.refuseSilent k).claims[k].waitList = [] ∧
      ((p.refuseSilent k).claims[k].state = .idle ∨ (p.refuseSilent k).claims[k].state = .held) := by
  have first : (p.updRes k Resource.refused).claims[k].waitList = [] ∧
      ((p.updRes k Resource.refused).claims[k].state = .idle ∨ (p.updRes k Resource.refused).claims[k].state = .held) := by
    rw [Part.updRes_claims_self, Resource.refused]
    split
    · next held => exact ⟨rfl, .inr held⟩
    · exact ⟨rfl, .inl rfl⟩
  have told := (quits_carries k).toPointCarries.forAll (fun u q => q.tellRefused_quits k k u) p.claims[k].waitList
    (p.updRes k Resource.refused)
  obtain ⟨-, list, goes⟩ := told.hush silent
  rw [Part.refuseSilent_eq]
  obtain ⟨empty, state⟩ := first
  refine ⟨List.eq_nil_iff_forall_not_mem.2 fun u mem => ?_, goes.elim .inl fun same => state.imp same.1.trans same.1.trans⟩
  have was := list u mem
  rw [empty] at was
  cases was

/-- What every step keeps, and some step brings about, stands at the end. -/
theorem forAll_brings {I : Part → Prop} {α : Type} {l : List α} {f : α → Part → Part} {a : α} (mem : a ∈ l)
    (keeps : ∀ x q, I q → I (f x q)) (brings : ∀ q, I (f a q)) (p : Part) : I (p.forAll l f) := by
  induction l generalizing p with
  | nil => cases mem
  | cons x l ih =>
    have unroll : p.forAll (x :: l) f = (f x p).forAll l f := rfl
    rw [unroll]
    rcases List.mem_cons.1 mem with rfl | mem
    · exact forAll_keeps keeps (brings p)
    · exact ih mem _

theorem Part.tellRefused_out (k : Fin 3) (u : Nat) (b : Fin 2) {p : Part} (out : p.burners[b].out) :
    (p.tellRefused k u).burners[b].out := by
  match k with
  | 0 =>
    rw [Part.tellRefused_burner]
    split
    · exact .inl rfl
    · exact out
  | 1 =>
    have same := (p.fanTo_frame (Fin.ofNat 4 u) .stopped).burner_eq b
    rw [show p.tellRefused 1 u = p.fanTo (Fin.ofNat 4 u) .stopped from if_pos rfl, same]
    exact out
  | 2 =>
    have same := (p.endRamp_frame (Fin.ofNat 2 u)).burner_eq b
    rw [show p.tellRefused 2 u = p.endRamp (Fin.ofNat 2 u) from if_neg (by decide), same]
    exact out

theorem Part.refuseSilent_out (k : Fin 3) (b : Fin 2) {p : Part}
    (out : (k = 0 ∧ b.val ∈ p.claims[(0 : Fin 3)].waitList) ∨ p.burners[b].out) : (p.refuseSilent k).burners[b].out := by
  rw [Part.refuseSilent_eq]
  rcases out with ⟨rfl, mem⟩ | out
  · refine forAll_brings (I := fun q : Part => q.burners[b].out) mem (fun u q h => Part.tellRefused_out 0 u b h) (fun q => ?_) _
    rw [Part.tellRefused_burner, if_pos (Fin.ofNat_val_eq_self b)]
    exact .inl rfl
  · exact forAll_keeps (I := fun q : Part => q.burners[b].out) (fun u q h => Part.tellRefused_out k u b h) out

theorem Part.tellRefused_stopped (k : Fin 3) (u : Nat) (n : Fin 4) {p : Part} (stopped : p.fans[n].state = .stopped) :
    (p.tellRefused k u).fans[n].state = .stopped := by
  match k with
  | 0 =>
    have same := (p.burnerTo_frame (Fin.ofNat 2 u) .off id false).fan_eq n
    rw [show p.tellRefused 0 u = p.burnerTo (Fin.ofNat 2 u) .off id false from if_neg (by decide), same]
    exact stopped
  | 1 =>
    rw [Part.tellRefused_fan]
    split
    · rfl
    · exact stopped
  | 2 =>
    have same := (p.endRamp_frame (Fin.ofNat 2 u)).fan_eq n
    rw [show p.tellRefused 2 u = p.endRamp (Fin.ofNat 2 u) from if_neg (by decide), same]
    exact stopped

theorem Part.refuseSilent_stopped (k : Fin 3) (n : Fin 4) {p : Part}
    (stopped : (k = 1 ∧ n.val ∈ p.claims[(1 : Fin 3)].waitList) ∨ p.fans[n].state = .stopped) :
    (p.refuseSilent k).fans[n].state = .stopped := by
  rw [Part.refuseSilent_eq]
  rcases stopped with ⟨rfl, mem⟩ | stopped
  · refine forAll_brings (I := fun q : Part => q.fans[n].state = .stopped) mem
      (fun u q h => Part.tellRefused_stopped 1 u n h) (fun q => ?_) _
    rw [Part.tellRefused_fan, if_pos (Fin.ofNat_val_eq_self n)]
  · exact forAll_keeps (I := fun q : Part => q.fans[n].state = .stopped) (fun u q h => Part.tellRefused_stopped k u n h) stopped

/-- The refusal of the users of LIGHT-OFF leaves the wait list of HEAVY-START. -/
theorem Part.refuseSilent_fans (p : Part) : (p.refuseSilent 0).claims[(1 : Fin 3)].waitList = p.claims[(1 : Fin 3)].waitList := by
  rw [Part.refuseSilent_eq]
  refine forAll_keeps (I := fun q : Part => q.claims[(1 : Fin 3)].waitList = p.claims[(1 : Fin 3)].waitList) (fun u q h => ?_) ?_
  · have same : (q.burnerTo (Fin.ofNat 2 u) .off id false).claims[(1 : Fin 3)].waitList = q.claims[(1 : Fin 3)].waitList :=
      (q.burnerTo_frame (Fin.ofNat 2 u) .off id false).same (.waitList 1) (by simp)
    rw [show q.tellRefused 0 u = q.burnerTo (Fin.ofNat 2 u) .off id false from if_neg (by decide), same]
    exact h
  · rw [Part.updRes_claims_other _ _ (by decide)]

theorem Part.updRes_goes (k : Fin 3) (f : Resource → Resource) (b : Fin 2) (ne : k ≠ 2) (p : Part) : RampGoes b p (p.updRes k f) :=
  ⟨rfl, .inl ⟨rfl, fun _ _ => rfl, fun mem _ => by rwa [Part.updRes_claims_other _ _ (Ne.symm ne)]⟩⟩

theorem Part.refuseSilent_goes (k : Fin 3) (b : Fin 2) (ne : k ≠ 2) (p : Part) : RampGoes b p (p.refuseSilent k) := by
  rw [Part.refuseSilent_eq]
  exact (p.updRes_goes k _ b ne).trans
    ((rampGoes_carries b).toPointCarries.forAll (fun u q => (q.tellRefused_goes k u b).1) _ _)

/-- A mix ramp whose burner waits for MIX-CHANGE ends at its target (R51, R118). -/
theorem Part.refuseSilent_ramp (b : Fin 2) {p : Part} (waits : b.val ∈ p.claims[(2 : Fin 3)].waitList) {r : MixRamp}
    (ramp : p.ramps[b] = some r) : (p.refuseSilent 2).ramps[b] = none ∧
      ∀ f ∈ p.feedersOf b, (p.refuseSilent 2).feeders[f].mix = r.target[f] := by
  have told := (rampGoes_carries b).toPointCarries.forAll (fun u q => (q.tellRefused_goes 2 u b).1) p.claims[(2 : Fin 3)].waitList
    (p.updRes 2 Resource.refused)
  have none : (p.refuseSilent 2).ramps[b] = none := by
    rw [Part.refuseSilent_eq]
    refine forAll_brings (I := fun q : Part => q.ramps[b] = none) waits (fun u q h => ?_)
      (fun q => (q.tellRefused_goes 2 b.val b).2 rfl (Fin.ofNat_val_eq_self b)) _
    rcases (q.tellRefused_goes 2 u b).1.goes with ⟨same, -⟩ | ⟨none, -⟩
    · exact same.trans h
    · exact none
  refine ⟨none, fun f mem => ?_⟩
  rw [Part.refuseSilent_eq] at none ⊢
  rcases told.goes with ⟨same, -⟩ | ⟨-, x, some, target⟩
  · exact absurd ((none.symm.trans same).trans ramp) nofun
  · obtain rfl : r = x := Option.some.inj (ramp.symm.trans some)
    exact target f mem

end

end Sys2Proof.Machine
end

section
/-! OBLIGATION O26. A whole frame: a wrong CHECK, the own SOURCE, a peer's. -/

namespace Sys2Proof.Machine

-- One proof at a time: the whole package as one text must not start a thread for each of them.
set_option Elab.async false

open Sys2Proof.Config

/-! ## SILENT (R19, R51) -/

/-- The mix ramp r of burner b has ended at its target, since p. -/
def RampEnded (b : Fin 2) (r : MixRamp) (p q : Part) : Prop :=
  q.ramps[b] = none ∧ ∀ f ∈ p.feedersOf b, q.feeders[f].mix = r.target[f]

section
variable {b : Fin 2} {r : MixRamp} {p q t : Part}

theorem RampEnded.next (h : RampEnded b r p q) (same : q.feedersOf b = p.feedersOf b) (g : RampGoes b q t) :
    RampEnded b r p t := by
  obtain ⟨none, mixes⟩ := h
  rcases g.goes with ⟨ramp, mix, -⟩ | ⟨-, x, some, -⟩
  · exact ⟨ramp.trans none, fun f mem => (mix f (by rw [same]; exact mem)).trans (mixes f mem)⟩
  · exact absurd (none.symm.trans some) nofun

/-- Where its burner waited for MIX-CHANGE, the ramp is over once the waiting users are refused. -/
theorem RampGoes.refused (h : RampGoes b p q) (ramp : p.ramps[b] = some r) (waits : b.val ∈ p.claims[(2 : Fin 3)].waitList) :
    RampEnded b r p (q.refuseSilent 2) ∧ (q.refuseSilent 2).feedersOf b = p.feedersOf b := by
  have told := (rampGoes_carries b).toPointCarries.forAll (fun u q => (q.tellRefused_goes 2 u b).1)
    q.claims[(2 : Fin 3)].waitList (q.updRes 2 Resource.refused)
  have feeders : (q.refuseSilent 2).feedersOf b = q.feedersOf b := told.feeders
  refine ⟨?_, feeders.trans h.feeders⟩
  rcases h.goes with ⟨same, -, list⟩ | ⟨none, x, some, mixes⟩
  · obtain ⟨none, mixes⟩ := q.refuseSilent_ramp b (list waits (by rw [ramp]; nofun)) (same.trans ramp)
    exact ⟨none, fun f mem => mixes f (by rw [h.feeders]; exact mem)⟩
  · obtain rfl : r = x := Option.some.inj (ramp.symm.trans some)
    have ended : RampEnded b r p (q.updRes 2 Resource.refused) := ⟨none, mixes⟩
    exact ended.next h.feeders told

/-- The line hushed, before its waiting users are refused (R19). -/
def Part.hushed (p : Part) : Part := p.updLine fun l => { l.emptyQueue with silent := true }

theorem Part.setSilent_eq (p : Part) : p.setSilent = ((p.hushed.refuseSilent 0).refuseSilent 1).refuseSilent 2 := rfl

/-- k is neither asked for nor waited for. -/
def Part.Refused (k : Fin 3) (p : Part) : Prop :=
  p.claims[k].waitList = [] ∧ (p.claims[k].state = .idle ∨ p.claims[k].state = .held)

/-- Once refused, k is neither asked for nor granted by a SILENT station. -/
theorem Quits.refused {k : Fin 3} (h : Quits k p q) (silent : p.line.silent = true) (was : p.Refused k) : q.Refused k := by
  obtain ⟨empty, state⟩ := was
  obtain ⟨-, list, goes⟩ := h.hush silent
  refine ⟨List.eq_nil_iff_forall_not_mem.2 fun u mem => ?_, goes.elim .inl fun same => state.imp same.1.trans same.1.trans⟩
  have had := list u mem
  rw [empty] at had
  cases had

theorem Part.refuseSilent_all (k : Fin 3) (silent : p.line.silent = true) :
    (((p.refuseSilent 0).refuseSilent 1).refuseSilent 2).line.silent = true ∧
    (((p.refuseSilent 0).refuseSilent 1).refuseSilent 2).Refused k := by
  have heard0 := ((p.refuseSilent_quits 0 k).hush silent).1
  have heard1 := (((p.refuseSilent 0).refuseSilent_quits 1 k).hush heard0).1
  have second := (p.refuseSilent 0).refuseSilent_quits 1 k
  have third := ((p.refuseSilent 0).refuseSilent 1).refuseSilent_quits 2 k
  refine ⟨(third.hush heard1).1, ?_⟩
  rcases (by omega : k = 0 ∨ k = 1 ∨ k = 2) with rfl | rfl | rfl
  · exact third.refused heard1 (second.refused heard0 (Part.refuseSilent_claim 0 silent))
  · exact third.refused heard1 (Part.refuseSilent_claim 1 heard0)
  · exact Part.refuseSilent_claim 2 heard1

/-- What a station that becomes SILENT makes of its resources (R51). -/
theorem Part.setSilent_claim (k : Fin 3) (p : Part) : p.setSilent.line.silent = true ∧ p.setSilent.claims[k].waitList = [] ∧
    (p.setSilent.claims[k].state = .idle ∨ (p.setSilent.claims[k].state = .held ∧ p.claims[k].state = .held ∧
      p.setSilent.claims[k].user = p.claims[k].user)) := by
  have hushed : p.hushed.line.silent = true := rfl
  have claims : p.hushed.claims = p.claims := rfl
  rw [Part.setSilent_eq, ← claims]
  generalize p.hushed = h at hushed
  have all := ((h.refuseSilent_quits 0 k).trans ((h.refuseSilent 0).refuseSilent_quits 1 k)).trans
    (((h.refuseSilent 0).refuseSilent 1).refuseSilent_quits 2 k)
  obtain ⟨silent, empty, state⟩ := h.refuseSilent_all k hushed
  exact ⟨silent, empty, state.imp id fun held => ⟨held, (all.held held).1, (all.held held).2⟩⟩

theorem Part.setSilent_out (b : Fin 2) {p : Part} (waits : b.val ∈ p.claims[(0 : Fin 3)].waitList ∨ p.burners[b].out) :
    p.setSilent.burners[b].out := by
  rw [Part.setSilent_eq]
  have first : (p.hushed.refuseSilent 0).burners[b].out :=
    Part.refuseSilent_out 0 b (waits.imp (fun mem => ⟨rfl, mem⟩) id)
  exact Part.refuseSilent_out 2 b (.inr (Part.refuseSilent_out 1 b (.inr first)))

theorem Part.setSilent_stopped (n : Fin 4) {p : Part} (waits : n.val ∈ p.claims[(1 : Fin 3)].waitList) :
    p.setSilent.fans[n].state = .stopped := by
  rw [Part.setSilent_eq]
  refine Part.refuseSilent_stopped 2 n (.inr (Part.refuseSilent_stopped 1 n (.inl ⟨rfl, ?_⟩)))
  rw [Part.refuseSilent_fans]
  exact waits

theorem RampGoes.silent (h : RampGoes b p q) (ramp : p.ramps[b] = some r) (waits : b.val ∈ p.claims[(2 : Fin 3)].waitList) :
    RampEnded b r p q.setSilent ∧ q.setSilent.feedersOf b = p.feedersOf b := by
  rw [Part.setSilent_eq]
  have hushed : RampGoes b q q.hushed := ⟨rfl, .inl ⟨rfl, fun _ _ => rfl, fun mem _ => mem⟩⟩
  exact (((h.trans hushed).trans (Part.refuseSilent_goes 0 b (by decide) _)).trans
    (Part.refuseSilent_goes 1 b (by decide) _)).refused ramp waits

end

/-! ## The row around a whole frame -/

/-- What a row does behind a whole frame (R13): more characters are a partial frame. -/
def Part.behindFrame (more : List Byte) (p : Part) : Part := if more = [] then p else p.discardPartial .deaf

theorem Part.behindFrame_frame (more : List Byte) (p : Part) : ChangesOnly {.lineCounts, .record, .receiving} p (p.behindFrame more) :=
  .ite .refl (p.discardPartial_frame .deaf)

/-- The receiver and the count of bad frames behind a whole frame. -/
theorem Part.behindFrame_line (more : List Byte) {p : Part} (empty : p.line.assembly = []) (behind : p.line.receiver = .behind) :
    (p.behindFrame more).line.assembly = [] ∧ (p.behindFrame more).line.receiver = (if more = [] then .behind else .deaf) ∧
    (p.behindFrame more).line.counts.bad = p.line.counts.bad + (if more = [] then 0 else 1) ∧
    (p.behindFrame more).line.counts.duplicates = p.line.counts.duplicates ∧
    (p.behindFrame more).line.counts.accepted = p.line.counts.accepted := by
  unfold Part.behindFrame
  split
  · exact ⟨empty, behind, (BitVec.add_zero _).symm, rfl, rfl⟩
  · exact ⟨rfl, rfl, rfl, rfl, rfl⟩

section
variable {p : Part} {chars l more : List Byte}

theorem takes_whole (apart : p.strapRate ≠ 3) (idle : p.line.phase = .idle) (ready : p.line.receiver = .ready)
    (heard : p.line.assembly ++ chars = l ++ more) (good : headerGood l = true) (size : l.length = frameSize l) :
    Takes (.frameReceived chars) p ((((p.wholeTaken l).behindFrame more).settleAll).keepAborted p.fans) := by
  have listening : p.listening = true := (p.listening_iff).2 ⟨apart, idle⟩
  have taken : p.takeChars chars = (p.wholeTaken l).behindFrame more :=
    (Part.takeChars_ready ready).trans (Part.assemble_whole heard good size)
  refine takes_row rfl ((if_pos listening).trans ?_)
  rw [taken]

/-- The end of a row of reception. -/
theorem Part.received_settles (before : Vector Fan 4) (p : Part) : Settles p ((p.settleAll).keepAborted before) := by
  have aborted := (p.settleAll).keepAborted_frame before
  refine p.settleAll_settles.trans ⟨aborted.mono, ?_, .of_frame aborted⟩
  exact aborted.onward

/-- The registers of the line that the end of an event leaves. -/
theorem Settles.line {p q : Part} (h : Settles p q) : q.line.assembly = p.line.assembly ∧ q.line.receiver = p.line.receiver ∧
    q.line.stuck = p.line.stuck ∧ q.line.counts.bad = p.line.counts.bad ∧
    q.line.counts.duplicates = p.line.counts.duplicates ∧ q.line.counts.accepted = p.line.counts.accepted ∧
    q.line.dupDeadline = p.line.dupDeadline ∧ q.line.silent = p.line.silent := by
  obtain ⟨assembly, receiver⟩ := h.frame.same .receiving (by simp)
  have counts : { q.line.counts with failures := 0 } = { p.line.counts with failures := 0 } := h.frame.same .lineCounts (by simp)
  have bad := congrArg LineCounts.bad counts
  have duplicates := congrArg LineCounts.duplicates counts
  have accepted := congrArg LineCounts.accepted counts
  exact ⟨assembly, receiver, h.frame.same .stuck (by simp), bad, duplicates, accepted, h.frame.same .duplicate (by simp),
    h.frame.silent_eq⟩

end

/-- What has been heard of the line's frames stands. -/
structure HeardKept (p q : Part) : Prop where
  assembly : q.line.assembly = p.line.assembly
  receiver : q.line.receiver = p.line.receiver
  stuck : q.line.stuck = p.line.stuck
  bad : q.line.counts.bad = p.line.counts.bad
  duplicates : q.line.counts.duplicates = p.line.counts.duplicates
  accepted : q.line.counts.accepted = p.line.counts.accepted
  dupDeadline : q.line.dupDeadline = p.line.dupDeadline

theorem ChangesOnly.heard {T : Set Block} {p q : Part} (h : ChangesOnly T p q)
    (hT : Block.receiving ∉ T ∧ Block.lineCounts ∉ T ∧ Block.stuck ∉ T ∧ Block.duplicate ∉ T := by simp) : HeardKept p q := by
  obtain ⟨receiving, counting, stuck, duplicate⟩ := hT
  obtain ⟨assembly, receiver⟩ := h.same .receiving receiving
  have counts : { q.line.counts with failures := 0 } = { p.line.counts with failures := 0 } := h.same .lineCounts counting
  have bad := congrArg LineCounts.bad counts
  have duplicates := congrArg LineCounts.duplicates counts
  have accepted := congrArg LineCounts.accepted counts
  exact ⟨assembly, receiver, h.same .stuck stuck, bad, duplicates, accepted, h.same .duplicate duplicate⟩

theorem HeardKept.trans {p q r : Part} (h : HeardKept p q) (g : HeardKept q r) : HeardKept p r :=
  ⟨g.assembly.trans h.assembly, g.receiver.trans h.receiver, g.stuck.trans h.stuck, g.bad.trans h.bad,
    g.duplicates.trans h.duplicates, g.accepted.trans h.accepted, g.dupDeadline.trans h.dupDeadline⟩

/-! ## The own SOURCE (R18, R19) -/

/-- A valid frame with the own SOURCE, before anything comes of it. -/
def Part.duplicated (p : Part) : Part := p.updLine fun x =>
  { x with assembly := [], receiver := .behind, stuck := false,
           counts := { x.counts with duplicates := x.counts.duplicates + 1 },
           dupDeadline := some (later p.now (4 * p.cfg.period)) }

/-- SILENT since p: every waiting and claiming user has been refused (R51). -/
structure Silenced (p q : Part) : Prop where
  silent : q.line.silent = true
  claims : ∀ k : Fin 3, q.claims[k].waitList = [] ∧ (q.claims[k].state = .idle ∨
    (q.claims[k].state = .held ∧ p.claims[k].state = .held ∧ q.claims[k].user = p.claims[k].user))
  burners : ∀ b : Fin 2, b.val ∈ p.claims[(0 : Fin 3)].waitList → q.burners[b].out
  fans : ∀ n : Fin 4, n.val ∈ p.claims[(1 : Fin 3)].waitList → q.fans[n].state = .stopped
  ramps : ∀ (b : Fin 2) (r : MixRamp), b.val ∈ p.claims[(2 : Fin 3)].waitList → p.ramps[b] = some r →
    RampEnded b r p q ∧ q.feedersOf b = p.feedersOf b

theorem Part.setSilent_silenced (p : Part) : Silenced p (p.settlePoint 1).setSilent := by
  have moved : ChangesOnly tripBlocks p (p.settlePoint 1) := (Part.settlePoint_frame 1 p false).1
  refine ⟨((p.settlePoint 1).setSilent_claim 0).1, fun k => ?_, fun b waits => ?_, fun n waits => ?_, fun b r waits ramp => ?_⟩
  · obtain ⟨-, empty, state⟩ := (p.settlePoint 1).setSilent_claim k
    have quits : Quits k p (p.settlePoint 1) := (quits_carries k).toPointCarries.settlePoint 1 false p
    refine ⟨empty, state.imp id fun ⟨held, before, user⟩ => ?_⟩
    obtain ⟨was, own⟩ := quits.held before
    exact ⟨held, was, user.trans own⟩
  · exact Part.setSilent_out b ((waitsOrOut_carries b).settlePoint 1 false p (.inl waits))
  · have list : (p.settlePoint 1).claims[(1 : Fin 3)].waitList = p.claims[(1 : Fin 3)].waitList := moved.same (.waitList 1) (by simp)
    exact Part.setSilent_stopped n (by rwa [list])
  · exact ((rampGoes_carries b).toPointCarries.settlePoint 1 false p).silent ramp waits

/-- What is SILENT and refused stays so to the end of the event. -/
theorem Silenced.next {p q r : Part} (h : Silenced p q) (quits : ∀ k, Quits k q r) (out : ∀ b : Fin 2, q.burners[b].out → r.burners[b].out)
    (fans : r.fans = q.fans) (ramps : ∀ b, RampGoes b q r) : Silenced p r := by
  refine ⟨((quits 0).hush h.silent).1, fun k => ?_, fun b waits => out b (h.burners b waits), fun n waits => ?_,
    fun b x waits ramp => ?_⟩
  · obtain ⟨empty, state⟩ := h.claims k
    have gone : r.Refused k := (quits k).refused h.silent ⟨empty, state.imp id And.left⟩
    refine ⟨gone.1, gone.2.imp id fun held => ?_⟩
    obtain ⟨before, user⟩ := (quits k).held held
    rcases state with idle | ⟨-, was, own⟩
    · exact absurd (before.symm.trans idle) nofun
    · exact ⟨held, was, user.trans own⟩
  · rw [fans]
    exact h.fans n waits
  · obtain ⟨ended, feeders⟩ := h.ramps b x waits ramp
    exact ⟨ended.next feeders (ramps b), (ramps b).feeders.trans feeders⟩

theorem Silenced.of_frame {T : Set Block} {p q r : Part} (h : Silenced p q) (frame : ChangesOnly T q r)
    (hT : (∀ k, Block.claim k ∉ T) ∧ (∀ k, Block.waitList k ∉ T) ∧ Block.silent ∉ T ∧ (∀ b, Block.burner b ∉ T) ∧
      (∀ n, Block.fan n ∉ T) ∧ (∀ f, Block.feeder f ∉ T) ∧ ∀ b, Block.ramp b ∉ T := by simp) : Silenced p r := by
  obtain ⟨claim, list, silent, burner, fan, feeder, ramp⟩ := hT
  refine h.next (fun k => .of_frame frame ⟨claim k, list k, silent⟩) (fun b => ?_)
    (Vector.ext fun n lt => frame.fan_eq ⟨n, lt⟩ (fan _)) fun b => .of_frame' frame ⟨feeder, ramp b⟩ (list 2)
  rw [frame.burner_eq b (burner b)]
  exact id

theorem Silenced.settleAll {p q : Part} (h : Silenced p q) : Silenced p q.settleAll :=
  h.next (fun k => (quits_carries k).settleAll q) (fun b out => by
      rw [(q.settleAll_settles.onward.out out).burner]
      exact out)
    (Vector.ext fun n lt => (q.settleAll_frame).fan_eq ⟨n, lt⟩) fun b => (rampGoes_carries b).settleAll q

section
variable {p : Part} {l : List Byte}

theorem Part.wholeTaken_own (check : checkGood l = true) (own : byteAt l 0 = p.strapStation.val + 1) :
    p.wholeTaken l = if p.started then
      (if (p.duplicated.settlePoint 1).line.silent then p.duplicated.settlePoint 1 else (p.duplicated.settlePoint 1).setSilent)
      else p.duplicated := by
  unfold Part.wholeTaken Part.wholeFrame
  rw [if_pos check, own, stationIndex_succ]
  exact if_pos rfl

theorem Part.wholeTaken_heard (check : checkGood l = true) (own : byteAt l 0 = p.strapStation.val + 1) :
    HeardKept p.duplicated (p.wholeTaken l) := by
  rw [p.wholeTaken_own check own]
  have moved := (Part.settlePoint_frame 1 p.duplicated false).1
  refine ite_keeps (I := HeardKept p.duplicated) (fun _ => ite_keeps (I := HeardKept p.duplicated) (fun _ => moved.heard)
    fun _ => moved.heard.trans ((Part.setSilent_frame _).heard (by simp [silentBlocks, userBlocks]))) fun _ => ChangesOnly.refl (T := ∅).heard

end

/-! ## A peer's frame (R16, R26 to R28) -/

/-- What the hand-on of a peer's frame may change, besides the contents of its entry. -/
def handBlocks : Set Block := {.shift, .peerTrips} ∪ Set.range .view ∪ userBlocks

@[simp] theorem mem_handBlocks {x : Block} : x ∈ handBlocks ↔
    (x = .shift ∨ x = .peerTrips) ∨ x ∈ Set.range Block.view ∨ x ∈ userBlocks := by
  simp [handBlocks, or_assoc]

/-- The entry of sender x, with the payload c of a frame of that kind taken into it (R28). -/
def Part.contentsTaken (x : Fin 16) (kind : Byte) (c : List Byte) (p : Part) : Part :=
  if kind = 0x51 ∧ statusTakeable c = true then p.updPeer x (Peer.take c) else p

theorem Part.handOn_hands (x : Fin 16) (kind : Byte) (c : List Byte) (p : Part) :
    ChangesOnly handBlocks (p.contentsTaken x kind c) (p.handOn x kind c) := by
  unfold Part.contentsTaken Part.handOn
  by_cases status : kind = 0x51
  · rw [if_pos status]
    unfold Part.takeStatus
    by_cases taken : statusTakeable c = true
    · rw [if_pos ⟨status, taken⟩, if_pos taken]
      have sets : ChangesOnly handBlocks (p.updPeer x (Peer.take c)) ((p.updPeer x (Peer.take c)).hearSets c x) :=
        (Part.hearSets_frame c x _).mono fun b hb => by
          simp only [Set.mem_union, mem_handBlocks] at hb ⊢
          tauto
      exact ((sets.next (Part.hearTripFlag_frame c x _) (fun b hb => by simp at hb ⊢; tauto)).next
        (Part.settlePoint_frame 2 _ false).1 (fun b hb => by
          simp only [mem_handBlocks]
          exact .inr (.inr (.inl hb)))).next (Part.hearShift_frame _ _ _) (fun b hb => by simp [userBlocks] at hb ⊢; tauto)
    · rw [if_neg fun both => taken both.2, if_neg taken]
      exact .refl
  · rw [if_neg status, if_neg fun both => status both.1]
    refine .ite ?_ (.ite ?_ (.ite (.ite ((p.setPeerTrip_frame x _).mono fun b hb => by simp at hb ⊢; tauto) .refl)
      ((p.hearShift_frame _ _).mono fun b hb => by simp [userBlocks] at hb ⊢; tauto)))
    · split
      · exact (p.hearClaim_frame _ _ _).mono fun b hb => by simp [userBlocks] at hb ⊢; tauto
      · exact .refl
    · split
      · exact (p.hearRelease_frame _ _).mono fun b hb => by simp at hb ⊢; tauto
      · exact .refl

/-- The accepted frame counted and its sender renewed (R26). -/
def Part.senderHeard (x : Fin 16) (l : List Byte) (p : Part) : Part :=
  let counted := p.updLine fun q =>
    { q with assembly := [], receiver := .behind, stuck := false,
             counts := { q.counts with accepted := q.counts.accepted + 1 } }
  (counted.record fun r => { r with accepted := r.accepted + 1 }).renewPeer x (l.getD 3 0)

/-- The payload of a frame. -/
def framePayload (l : List Byte) : List Byte := (l.drop 4).take (byteAt l 2)

theorem Part.wholeTaken_peer {x : Fin 16} {l : List Byte} {p : Part} (check : checkGood l = true) (other : x ≠ p.strapStation)
    (sender : byteAt l 0 = x.val + 1) :
    p.wholeTaken l = ((p.senderHeard x l).handOn x (l.getD 1 0) (framePayload l)).refreshMarks := by
  unfold Part.wholeTaken Part.wholeFrame
  rw [if_pos check, sender, stationIndex_succ]
  exact if_neg other

/-- The length of a good header is that of its kind (R4). -/
theorem kindLength_of_headerGood {l : List Byte} (good : headerGood l = true) (long : 3 ≤ l.length) :
    kindLength (l.getD 1 0) = some (byteAt l 2) := by
  unfold headerGood at good
  simp only [Bool.and_eq_true, Bool.or_eq_true, decide_eq_true_eq, beq_iff_eq] at good
  exact good.2.resolve_left (by omega)

theorem framePayload_status {l : List Byte} (good : headerGood l = true) (size : l.length = frameSize l)
    (status : l.getD 1 0 = 0x51) : framePayload l = (l.drop 4).take 25 := by
  have length := kindLength_of_headerGood good (by rw [size, frameSize]; omega)
  rw [status] at length
  rw [framePayload, ← Option.some.inj length]

section
variable {p : Part} {x y : Fin 16} {l more : List Byte}

theorem Part.senderHeard_peer : (p.senderHeard x l).peers[x] = Peer.renew p.now (l.getD 3 0) p.peers[x] := set_self ..

theorem Part.senderHeard_other (ne : y ≠ x) : (p.senderHeard x l).peers[y] = p.peers[y] := set_other _ _ _ _ ne

/-- The entry of the sender when its frame has been handed on (R26, R28). -/
def Peer.heard (now : Time) (l : List Byte) (e : Peer) : Peer :=
  if l.getD 1 0 = 0x51 ∧ statusTakeable (framePayload l) = true then (e.renew now (l.getD 3 0)).take (framePayload l)
  else e.renew now (l.getD 3 0)

theorem Part.contentsTaken_frame (kind : Byte) (c : List Byte) (p : Part) : ChangesOnly {.peer x} p (p.contentsTaken x kind c) :=
  .ite (p.updPeer_frame x _) .refl

theorem Part.wholeTaken_peers (check : checkGood l = true) (other : x ≠ p.strapStation) (sender : byteAt l 0 = x.val + 1) :
    HeardKept (p.senderHeard x l) (p.wholeTaken l) ∧ (p.wholeTaken l).peers[x] = p.peers[x].heard p.now l ∧
    ∀ y : Fin 16, y ≠ x → (p.wholeTaken l).peers[y] = p.peers[y] := by
  rw [p.wholeTaken_peer check other sender]
  have taken := (p.senderHeard x l).contentsTaken_frame (x := x) (l.getD 1 0) (framePayload l)
  have hands := ((p.senderHeard x l).handOn_hands x (l.getD 1 0) (framePayload l)).andThen (Part.refreshMarks_frame _)
  have entry : ((p.senderHeard x l).contentsTaken x (l.getD 1 0) (framePayload l)).peers[x] = p.peers[x].heard p.now l := by
    unfold Part.contentsTaken Peer.heard
    rw [← p.senderHeard_peer (x := x) (l := l)]
    split
    · exact set_self ..
    · rfl
  refine ⟨taken.heard.trans (hands.heard (by simp [userBlocks])), ?_, fun y ne => ?_⟩
  · rw [← entry]
    exact hands.peer_eq (by simp [userBlocks])
  · rw [hands.peer_eq (x := y) (by simp [userBlocks]), taken.peer_eq (x := y) (by simp [ne])]
    exact Part.senderHeard_other ne

end

/-- A frame's sender renewed, and a STATUS taken: what the Peer Table shows of them (R26 to R28). -/
theorem Peer.heard_shows {l : List Byte} (now : Time) (e : Peer) (status : l.getD 1 0 = 0x51 → framePayload l = (l.drop 4).take 25) :
    (e.heard now l).state = .live ∧ (e.heard now l).lastTime = some now ∧ (e.heard now l).lastSeq = some (l.getD 3 0) ∧
    (∀ last, e.state = .live → e.lastSeq = some last →
      (e.heard now l).lost = satAt 65535 (e.lost + if l.getD 3 0 = last then 0 else (l.getD 3 0 - last - 1).toNat)) ∧
    (e.state ≠ .live → (e.heard now l).lost = e.lost ∧ (e.heard now l).flags.joined = true) ∧
    (l.getD 1 0 = 0x51 → statusTakeable ((l.drop 4).take 25) = true →
      (e.heard now l).contents = some ((l.drop 4).take 25) ∧ (e.heard now l).stale = false) ∧
    (l.getD 1 0 ≠ 0x51 ∨ statusTakeable ((l.drop 4).take 25) = false → (e.heard now l).contents = e.contents) := by
  -- what a taken STATUS leaves as the renewal left it
  have joined (r : Peer) (c : List Byte) (up : r.flags.joined = true) : (r.take c).flags.joined = true := by
    unfold Peer.take
    cases r.contents with
    | none => exact up
    | some old => simp [ChangeFlags.compare, up]
  have renewed (last : Byte) (live : e.state = .live) (seq : e.lastSeq = some last) : (e.renew now (l.getD 3 0)).lost =
      satAt 65535 (e.lost + if l.getD 3 0 = last then 0 else (l.getD 3 0 - last - 1).toNat) := by
    simp [Peer.renew, live, seq, seqGap]
  have fresh (out : e.state ≠ .live) : (e.renew now (l.getD 3 0)).lost = e.lost ∧
      (e.renew now (l.getD 3 0)).flags.joined = true := by
    simp [Peer.renew, out]
  unfold Peer.heard
  by_cases taken : l.getD 1 0 = 0x51 ∧ statusTakeable (framePayload l) = true
  · obtain ⟨kind, takeable⟩ := taken
    rw [if_pos ⟨kind, takeable⟩, ← status kind]
    refine ⟨rfl, rfl, rfl, renewed, fun out => ⟨(fresh out).1, joined _ _ (fresh out).2⟩, fun _ _ => ⟨rfl, rfl⟩, fun not => ?_⟩
    exact absurd takeable (by rw [(not.resolve_left (not_not_intro kind))]; decide)
  · rw [if_neg taken]
    refine ⟨rfl, rfl, rfl, renewed, fresh, fun kind takeable => ?_, fun _ => rfl⟩
    rw [← status kind] at takeable
    exact absurd ⟨kind, takeable⟩ taken

/-- What the line shows at the end of a row with a whole frame, and characters behind it or not. -/
theorem Part.frame_counted {base taken : Part} {more : List Byte} (fans : Vector Fan 4) (heard : HeardKept base taken)
    (empty : base.line.assembly = []) (behind : base.line.receiver = .behind) :
    let q := ((taken.behindFrame more).settleAll).keepAborted fans
    q.line.assembly = [] ∧ q.line.receiver = (if more = [] then .behind else .deaf) ∧ q.line.stuck = base.line.stuck ∧
    q.line.counts.bad = base.line.counts.bad + (if more = [] then 0 else 1) ∧
    q.line.counts.duplicates = base.line.counts.duplicates ∧ q.line.counts.accepted = base.line.counts.accepted ∧
    q.line.dupDeadline = base.line.dupDeadline ∧ q.line.silent = taken.line.silent := by
  intro q
  have settled : Settles (taken.behindFrame more) q := Part.received_settles fans _
  have frame := taken.behindFrame_frame more
  have stuck : (taken.behindFrame more).line.stuck = taken.line.stuck := frame.same .stuck (by simp)
  have dup : (taken.behindFrame more).line.dupDeadline = taken.line.dupDeadline := frame.same .duplicate (by simp)
  have silent := frame.silent_eq
  obtain ⟨assembly, receiver, bad, duplicates, accepted⟩ :=
    Part.behindFrame_line more (heard.assembly.trans empty) (heard.receiver.trans behind)
  obtain ⟨assembly', receiver', stuck', bad', duplicates', accepted', dup', silent'⟩ := settled.line
  rw [assembly', receiver', stuck', bad', duplicates', accepted', dup', silent', assembly, receiver, bad, duplicates, accepted,
    stuck, dup, silent, heard.stuck, heard.bad, heard.duplicates, heard.accepted, heard.dupDeadline]
  exact ⟨rfl, rfl, rfl, rfl, rfl, rfl, rfl, rfl⟩

section
variable {p : Part} {x : Fin 16} {chars l more : List Byte}

/-- A frame with a wrong CHECK, and a partial frame behind it or none (R14, R15). -/
theorem Part.wholeTaken_bad (check : checkGood l = false) : (p.wholeTaken l).behindFrame more =
    { p with
      line := { p.line with
        assembly := [], receiver := if more = [] then .behind else .deaf,
        counts := { p.line.counts with bad := p.line.counts.bad + (1 + if more = [] then 0 else 1) } },
      shift := { p.shift with current := p.shift.current.map fun r =>
        { r with bad := r.bad + (1 + if more = [] then 0 else 1) } } } := by
  have taken : p.wholeTaken l = (p.updLine fun x => { x with assembly := [], receiver := .behind }).badFrame :=
    if_neg (by simp [check])
  rw [taken, Part.behindFrame]
  split
  · rfl
  · exact Part.discarded_twice p

theorem takes_badCheck (apart : p.strapRate ≠ 3) (idle : p.line.phase = .idle) (ready : p.line.receiver = .ready)
    (heard : p.line.assembly ++ chars = l ++ more) (good : headerGood l = true) (size : l.length = frameSize l)
    (check : checkGood l = false) : Takes (.frameReceived chars) p ((p.wholeTaken l).behindFrame more).settleAll := by
  have took := takes_whole apart idle ready heard good size
  have fans : ((p.wholeTaken l).behindFrame more).fans = p.fans := by rw [Part.wholeTaken_bad check]
  have settled : ((p.wholeTaken l).behindFrame more).settleAll.fans = p.fans := by
    rw [← fans]
    exact Vector.ext fun i lt => (Part.settleAll_frame _).fan_eq ⟨i, lt⟩
  rwa [Part.keepAborted_same p.fans _ settled] at took

/-- The station's own SOURCE makes a STARTED station SILENT (R19). -/
theorem Part.wholeTaken_silent (check : checkGood l = true) (own : byteAt l 0 = p.strapStation.val + 1) :
    (p.started = true → (p.wholeTaken l).line.silent = true) ∧ (p.started = false → (p.wholeTaken l).line.silent = p.line.silent) ∧
    (p.started = true → p.line.silent = false → Silenced p (p.wholeTaken l)) := by
  rw [p.wholeTaken_own check own]
  have same : (p.duplicated.settlePoint 1).line.silent = p.line.silent :=
    (Part.settlePoint_frame 1 p.duplicated false).1.silent_eq
  refine ⟨fun up => ?_, fun down => by rw [down]; rfl, fun up heard => ?_⟩
  · rw [if_pos up]
    split
    · next silent => exact silent
    · exact (p.duplicated.setSilent_silenced).silent
  · rw [if_pos up, if_neg (by simp [same, heard])]
    obtain ⟨silent, claims, burners, fans, ramps⟩ := p.duplicated.setSilent_silenced
    exact ⟨silent, claims, burners, fans, ramps⟩

theorem Silenced.received {q : Part} (h : Silenced p q) (fans : Vector Fan 4) (more : List Byte) :
    Silenced p (((q.behindFrame more).settleAll).keepAborted fans) :=
  ((h.of_frame (q.behindFrame_frame more)).settleAll).of_frame ((q.behindFrame more).settleAll.keepAborted_frame fans)

theorem Part.received_peers (q : Part) (fans : Vector Fan 4) (more : List Byte) :
    (((q.behindFrame more).settleAll).keepAborted fans).peers = q.peers :=
  ((Part.received_settles fans (q.behindFrame more)).frame.peers_eq (by simp)).trans
    ((q.behindFrame_frame more).peers_eq (by simp))

end

/-- Settles O26: the row's end by `takes_whole`; the own SOURCE by `Part.wholeTaken_silent`, a peer by `Part.wholeTaken_peers`. -/
theorem wholeFramesReceived : Obligations.WholeFramesReceived := by
  unfold Obligations.WholeFramesReceived
  intro p chars l more heard apart idle ready good size next beyond
  have took := takes_whole apart idle ready heard good size
  refine ⟨fun check => ?_, fun check own => ?_, fun x check other sender => ?_⟩
  · have bad := takes_badCheck apart idle ready heard good size check
    rw [Part.wholeTaken_bad check] at bad
    exact bad
  · obtain ⟨assembly, receiver, stuck, bad, duplicates, accepted, dup, silent⟩ :=
      Part.frame_counted (more := more) p.fans (p.wholeTaken_heard check own) rfl rfl
    obtain ⟨quiet, heard', silenced⟩ := Part.wholeTaken_silent check own
    refine ⟨_, took, assembly, receiver, stuck, bad, duplicates, accepted, dup, fun up => silent.trans (quiet up),
      fun down => silent.trans (heard' down), fun up open_ => ?_⟩
    obtain ⟨-, claims, burners, fans, ramps⟩ := (silenced up open_).received p.fans more
    exact ⟨claims, burners, fans, fun b r waits ramp => (ramps b r waits ramp).1⟩
  · obtain ⟨kept, entry, others⟩ := Part.wholeTaken_peers check other sender
    obtain ⟨assembly, receiver, stuck, bad, -, accepted, -⟩ := Part.frame_counted (more := more) p.fans kept rfl rfl
    have peers := (p.wholeTaken l).received_peers p.fans more
    obtain ⟨live, time, seq, gap, joined, taken, kept'⟩ :=
      p.peers[x].heard_shows p.now (framePayload_status good size)
    generalize (((p.wholeTaken l).behindFrame more).settleAll).keepAborted p.fans = q at *
    refine ⟨q, took, assembly, receiver, stuck, accepted, bad, ?_⟩
    rw [peers, entry]
    exact ⟨live, time, seq, gap, joined, taken, kept', others⟩

end Sys2Proof.Machine
end

section
/-! SUPPORT. Laws of one claim record that service, requests and withdrawals keep, and what they become of when a conflict
strikes another resource and when the event ends. -/

namespace Sys2Proof.Machine

-- One proof at a time: the whole package as one text must not start a thread for each of them.
set_option Elab.async false

open Sys2Proof.Config

/-! ## Laws of a claim record -/

/-- I speaks of the record, list and re-claim delay of k alone, and a user that leaves k keeps it. -/
structure LeaveLaw (k : Fin 3) (I : Part → Prop) : Prop where
  frame : ∀ {T : Set Block} {p q : Part}, ChangesOnly T p q → Block.claim k ∉ T → Block.waitList k ∉ T → Block.reclaim k ∉ T →
    I p → I q
  withdraw : ∀ (u : Nat) {p : Part}, I p → I (p.withdraw k u)

/-- The other operations of the Claim Unit on k keep it as well. -/
structure ClaimLaw (k : Fin 3) (I : Part → Prop) : Prop extends LeaveLaw k I where
  service : ∀ {p : Part}, I p → I (p.service k)
  request : ∀ (u : Nat) {p : Part}, I p → I (p.request k u)

/-- The blocks that no claim law of k looks at. -/
def awayFrom (k : Fin 3) : Set Block := {x | x ≠ .claim k ∧ x ≠ .waitList k ∧ x ≠ .reclaim k}

@[simp] theorem mem_awayFrom {k : Fin 3} {x : Block} : x ∈ awayFrom k ↔ x ≠ .claim k ∧ x ≠ .waitList k ∧ x ≠ .reclaim k :=
  Iff.rfl

theorem heldPoint_quiet : ∀ b : Fin 2, heldPoint b ∈ quietPoints := by decide

namespace LeaveLaw

variable {k : Fin 3} {I : Part → Prop} (w : LeaveLaw k I) {p : Part}
include w

theorem away {q : Part} (h : ChangesOnly (awayFrom k) p q) (hp : I p) : I q := w.frame h (by simp) (by simp) (by simp) hp

theorem withdrawn (j : Fin 3) (u : Nat) (hp : I p) : I (p.withdraw j u) := by
  by_cases e : j = k
  · exact e ▸ w.withdraw u hp
  · exact w.frame (p.withdraw_frame j u) (by simp [Ne.symm e]) (by simp [Ne.symm e]) (by simp [Ne.symm e]) hp

theorem rampEnds (b : Fin 2) (hp : I p) : I (p.endRamp b) := by
  unfold Part.endRamp
  split
  · next r _ =>
    exact w.withdrawn 2 _ (w.frame ((p.replaceMix_frame b r.target).andThen (Part.setRamp_frame b none _)) (by simp) (by simp)
      (by simp) hp)
  · exact hp

theorem burnerMoves (b : Fin 2) (s : BurnerState) (fix : Burner → Burner) (mark : Bool) (hp : I p) :
    I (p.burnerTo b s fix mark) := by
  have left : I (if s = .lightWait ∨ s = .igniting ∨ s = .loading then p else p.withdraw 0 b.val) :=
    ite_keeps (fun _ => hp) fun _ => w.withdrawn 0 _ hp
  have leaves : I (p.leaveFor b s) := ite_keeps (fun _ => left) fun _ => w.rampEnds b left
  exact w.frame (p.burnerTo_own b s fix mark) (by simp) (by simp) (by simp) leaves

theorem fanMoves (n : Fin 4) (s : FanState) (hp : I p) : I (p.fanTo n s) := by
  have left : I (p.leaveForFan n s) := ite_keeps (fun _ => hp) fun _ => w.withdrawn 1 _ hp
  rw [Part.fanTo_eq]
  exact w.frame (((((p.leaveForFan n s).updFan_frame n _).andThen (Part.fanOut_frame n s _)).andThen (Part.record_frame _ _)).andThen
    (Part.offer_frame ..)) (by simp) (by simp) (by simp) left

theorem quietPoint {i : Fin 62} (quiet : i ∈ quietPoints) (same : Bool) (hp : I p) : I (p.settlePoint i same) :=
  w.frame ((Part.settlePoint_frame i p same).2 (Part.quiet_attr _ _ quiet)) (by simp) (by simp) (by simp) hp

/-- The user of a resource told of a conflict (R47): k is only left. -/
theorem told (j : Fin 3) (u : Nat) (hp : I p) : I (p.tellAborted j u) := by
  refine ite_keeps (fun _ => ?_) fun _ => ite_keeps (fun _ => w.rampEnds _ hp) fun _ => ?_
  · have found : I (p.updFan (Fin.ofNat 4 u) fun x => { x with startFail := true }) :=
      w.frame (p.updFan_frame _ _) (by simp) (by simp) (by simp) hp
    exact w.quietPoint (fanFail_quiet _).1 true (w.fanMoves _ _ (w.quietPoint (fanFail_quiet _).1 false found))
  · exact w.quietPoint (heldPoint_quiet _) false (w.burnerMoves _ _ _ _ hp)

/-- A conflict over another resource (R47). -/
theorem conflictElsewhere {j : Fin 3} (ne : j ≠ k) (x : Fin 16) (hp : I p) : I (p.conflict j x) := by
  unfold Part.conflict
  split
  · next u _ =>
    have given : I ((p.updRes j Resource.toIdle).tellAborted j u) :=
      w.told j u (w.frame (p.toIdle_frame j) (by simp [Ne.symm ne]) (by simp) (by simp) hp)
    exact w.frame (((Part.beginReclaim_frame j _).andThen (Part.offer_frame ..)).andThen (Part.updRes_frame j _ _ {.mark j}))
      (by simp) (by simp) (by simp [Ne.symm ne]) given
  · exact hp

end LeaveLaw

namespace ClaimLaw

variable {k : Fin 3} {I : Part → Prop} (w : ClaimLaw k I) {p : Part}
include w

theorem served (j : Fin 3) (hp : I p) : I (p.service j) := by
  by_cases e : j = k
  · exact e ▸ w.service hp
  · exact w.frame (p.service_frame j) (by simp [Ne.symm e]) (by simp) (by simp) hp

theorem requested (j : Fin 3) (u : Nat) (hp : I p) : I (p.request j u) := by
  by_cases e : j = k
  · exact e ▸ w.request u hp
  · exact w.frame (p.request_frame j u) (by simp [Ne.symm e]) (by simp [Ne.symm e]) (by simp) hp

theorem carries : Carries (awayFrom k) fun p q => I p → I q where
  alarms x hx := by
    rw [mem_awayFrom]
    refine ⟨?_, ?_, ?_⟩ <;> rintro rfl <;> simp at hx
  refl _ := id
  trans h g := g ∘ h
  frame := w.away
  tripBurner b p hp := ite_keeps (fun _ => hp) fun _ => w.burnerMoves b _ _ _ hp
  alloc := by simp
  burners b := by simp
  service j p hp := w.served j hp
  autoResume b p hp := by
    refine ite_keeps (I := I) (fun _ => ?_) fun _ => hp
    unfold Part.resume
    split
    · exact w.burnerMoves b _ _ _ hp
    · exact w.requested 0 _ (w.burnerMoves b _ _ _ hp)

end ClaimLaw

section
variable {k : Fin 3} {p : Part}

/-- The record of k has given way: it waits or is IDLE, with no timer of a claim. -/
def Part.Yielded (k : Fin 3) (p : Part) : Prop :=
  (p.claims[k].state = .waiting ∨ p.claims[k].state = .idle) ∧ p.claims[k].settle = none ∧ p.claims[k].note = none

/-- The record of k is IDLE with no user while its re-claim delay runs to t. -/
def Part.Dropped (k : Fin 3) (t : Time) (p : Part) : Prop :=
  p.claims[k].state = .idle ∧ p.claims[k].user = none ∧ p.claims[k].reclaim = some t

/-- A user that does not stand in the record only leaves the list (R49). -/
theorem Part.withdraw_absent {u : Nat} (h : p.claims[k].user ≠ some u) :
    p.withdraw k u = p.updRes k fun r => { r with waitList := r.waitList.erase u } := by
  have absent : (p.claims[k].user == some u) = false := beq_eq_false_iff_ne.2 h
  unfold Part.withdraw
  simp only [absent, Bool.false_and, Bool.false_eq_true, if_false]

theorem Part.Yielded.served (h : p.Yielded k) : (p.service k).Yielded k := by
  have ⟨_, settle, note⟩ := h
  rcases p.service_eq k with same | ⟨-, -, -, served⟩
  · rw [same]
    exact h
  · rw [served, Part.Yielded, Part.updRes_claims_self]
    exact ⟨.inl rfl, settle, note⟩

theorem yielded_law (k : Fin 3) : ClaimLaw k (Part.Yielded k) where
  frame {T p q} h claim _ _ hp := by
    obtain ⟨state, -, settle, note, -⟩ := h.same (.claim k) claim
    rw [Part.Yielded, state, settle, note]
    exact hp
  service := Part.Yielded.served
  withdraw u p hp := by
    obtain ⟨state, settle, note⟩ := hp
    unfold Part.withdraw
    refine ite_keeps (I := Part.Yielded k) (fun held => ?_) fun _ => ite_keeps (I := Part.Yielded k) (fun claiming => ?_) fun _ =>
      ite_keeps (I := Part.Yielded k) (fun _ => Part.Yielded.served ?_) fun _ => ?_
    · simp only [Bool.and_eq_true, beq_iff_eq] at held
      rw [held.2] at state
      simp at state
    · simp only [Bool.and_eq_true, beq_iff_eq] at claiming
      rw [claiming.2] at state
      simp at state
    · rw [Part.Yielded, Part.updRes_claims_self]
      exact ⟨.inr rfl, rfl, rfl⟩
    · rw [Part.Yielded, Part.updRes_claims_self]
      exact ⟨state, settle, note⟩
  request u p hp := by
    unfold Part.request
    refine ite_keeps (I := Part.Yielded k) (fun _ => hp) fun _ => ite_keeps (I := Part.Yielded k) (fun _ => hp) fun _ =>
      Part.Yielded.served ?_
    rw [Part.Yielded, Part.updRes_claims_self]
    exact hp

theorem Part.Dropped.served {t : Time} (h : p.Dropped k t) : (p.service k).Dropped k t := by
  have ⟨_, _, delayed⟩ := h
  have barred : p.service k = p := if_neg (by simp [Part.serviceReady, delayed, -Fin.getElem_fin])
  rw [barred]
  exact h

theorem dropped_law (k : Fin 3) (t : Time) : ClaimLaw k (Part.Dropped k t) where
  frame {T p q} h claim _ reclaim hp := by
    obtain ⟨state, user, -⟩ := h.same (.claim k) claim
    have delay : q.claims[k].reclaim = p.claims[k].reclaim := h.same (.reclaim k) reclaim
    rw [Part.Dropped, state, user, delay]
    exact hp
  service := Part.Dropped.served
  withdraw u p hp := by
    have absent : p.claims[k].user ≠ some u := by rw [hp.2.1]; nofun
    rw [Part.withdraw_absent absent, Part.Dropped, Part.updRes_claims_self]
    exact hp
  request u p hp := by
    unfold Part.request
    refine ite_keeps (I := Part.Dropped k t) (fun _ => hp) fun _ => ite_keeps (I := Part.Dropped k t) (fun _ => hp) fun _ =>
      Part.Dropped.served ?_
    obtain ⟨state, user, delay⟩ := hp
    rw [Part.Dropped, Part.updRes_claims_self]
    exact ⟨state, (if_neg (by simp [state, -Fin.getElem_fin])).trans user, delay⟩

end

/-! ## A conflict (R47) -/

/-- The blocks that the user of each resource may change when it is told of a conflict. -/
def toldBlocks (k : Fin 3) : Set Block :=
  if k = 0 then tripBlocks else if k = 1 then Set.range .fan ∪ {.fanOut} ∪ leaveBlocks 1 ∪ pointBlocks
  else Set.range .ramp ∪ mixBlocks ∪ leaveBlocks 2

theorem Part.tellAborted_told (k : Fin 3) (u : Nat) (p : Part) : ChangesOnly (toldBlocks k) p (p.tellAborted k u) := by
  unfold Part.tellAborted toldBlocks
  rcases (by omega : k = 0 ∨ k = 1 ∨ k = 2) with rfl | rfl | rfl
  · have held : ChangesOnly tripBlocks p (p.hold (Fin.ofNat 2 u) true) := (p.hold_frame _ true).mono fun x hx => by
      rcases (by omega : Fin.ofNat 2 u = 0 ∨ Fin.ofNat 2 u = 1) with e | e <;> rw [e] at hx
      · exact .inl (.inr hx)
      · exact .inr hx
    exact held.next (Part.settlePoint_frame _ _ _).1 subset_rfl
  · exact (p.failStart_frame (Fin.ofNat 4 u)).mono fun x hx => by
      simp only [Set.mem_union, mem_fanBlocks, Set.mem_insert_iff, Set.mem_singleton_iff, Set.mem_range, if_neg (show ¬ (1 : Fin 3) = 0 by decide), if_true] at hx ⊢
      rcases hx with ((rfl | hx) | hx) | hx
      · exact .inl (.inl (.inl ⟨_, rfl⟩))
      all_goals tauto
  · exact (p.endRamp_frame (Fin.ofNat 2 u)).mono fun x hx => by
      rcases hx with (rfl | hx) | hx
      · exact .inl (.inl ⟨_, rfl⟩)
      · exact .inl (.inr hx)
      · exact .inr hx

theorem Part.conflict_told (k : Fin 3) (x : Fin 16) (p : Part) :
    ChangesOnly ({.claim k, .reclaim k, .mark k, .events} ∪ toldBlocks k) p (p.conflict k x) := by
  unfold Part.conflict
  split
  · exact (((((p.toIdle_frame k).mono.next (Part.tellAborted_told k _ _) Set.subset_union_right)).next
      (Part.beginReclaim_frame k _)).next (Part.offer_frame ..)).next (Part.updRes_frame k _ _ {.mark k})
  · exact .refl

section
variable {k : Fin 3} {p : Part} {x : Fin 16}

/-- The record of k is IDLE with no user. -/
def Part.Vacant (k : Fin 3) (p : Part) : Prop := p.claims[k].state = .idle ∧ p.claims[k].user = none

theorem vacant_law (k : Fin 3) : LeaveLaw k (Part.Vacant k) where
  frame {T p q} h claim _ _ hp := by
    obtain ⟨state, user, -⟩ := h.same (.claim k) claim
    rw [Part.Vacant, state, user]
    exact hp
  withdraw u p hp := by
    have absent : p.claims[k].user ≠ some u := by rw [hp.2]; nofun
    rw [Part.withdraw_absent absent, Part.Vacant, Part.updRes_claims_self]
    exact hp

/-- A conflict in k with peer x: k is given up at once, with its mark, its delay and its event (R47). -/
theorem Part.conflict_drops {u : Nat} (user : p.claims[k].user = some u) :
    (p.conflict k x).Dropped k (later p.now p.cfg.period) ∧ (p.conflict k x).claims[k].conflict = some x ∧
    Reported ⟨.resource, k.val, 2, false, p.now, x.val + 1, none⟩ (p.conflict k x) := by
  have told := ((p.updRes k Resource.toIdle).tellAborted_told k u)
  have idle : (p.updRes k Resource.toIdle).Vacant k := by
    rw [Part.Vacant, Part.updRes_claims_self]
    exact ⟨rfl, rfl⟩
  obtain ⟨state, gone⟩ := (vacant_law k).told k u idle
  have now : ((p.updRes k Resource.toIdle).tellAborted k u).now = p.now := (p.updRes k Resource.toIdle).tellAborted_frame k u |>.now_eq (by simp [userBlocks])
  have cfg : ((p.updRes k Resource.toIdle).tellAborted k u).cfg = p.cfg := (p.updRes k Resource.toIdle).tellAborted_frame k u |>.cfg_eq (by simp [userBlocks])
  unfold Part.conflict
  rw [user]
  dsimp only
  generalize (p.updRes k Resource.toIdle).tellAborted k u = q at *
  have delayed : (q.beginReclaim k).claims[k].reclaim = some (later p.now p.cfg.period) := by
    rw [Part.beginReclaim, Part.updRes_claims_self, now, cfg]
  have kept : (q.beginReclaim k).claims[k].state = .idle ∧ (q.beginReclaim k).claims[k].user = none := by
    rw [Part.beginReclaim, Part.updRes_claims_self]
    exact ⟨state, gone⟩
  have now' : (q.beginReclaim k).now = p.now := now
  have reported := Part.offer_reported .resource k.val 2 false (x.val + 1) none (q.beginReclaim k)
  rw [now'] at reported
  generalize q.beginReclaim k = r at *
  have offered : ((r.offer .resource k.val 2 false (x.val + 1)).Dropped k (later p.now p.cfg.period)) :=
    (dropped_law k _).frame (Part.offer_frame ..) (by simp) (by simp) (by simp) ⟨kept.1, kept.2, delayed⟩
  generalize r.offer .resource k.val 2 false (x.val + 1) = t at *
  have marked : ChangesOnly {.mark k} t (t.updRes k fun r => { r with conflict := some x }) := t.updRes_frame k _ _
  refine ⟨(dropped_law k _).frame marked (by simp) (by simp) (by simp) offered, ?_, marked.reported reported⟩
  rw [Part.updRes_claims_self]

end

/-- What a conflict in k does once its user is told (R47). -/
theorem Part.conflict_after {k : Fin 3} {p : Part} {x : Fin 16} {u : Nat} (user : p.claims[k].user = some u) :
    ChangesOnly {.reclaim k, .mark k, .events} ((p.updRes k Resource.toIdle).tellAborted k u) (p.conflict k x) := by
  unfold Part.conflict
  rw [user]
  exact ((Part.beginReclaim_frame k _).mono.next (Part.offer_frame ..)).next (Part.updRes_frame k _ _ {.mark k})

/-! ## The users told of a conflict -/

/-- Burner b is HELD by a conflict, or TRIPPED. -/
def Part.Grounded (b : Fin 2) (p : Part) : Prop :=
  (p.burners[b].state = .held ∧ p.burners[b].causeConflict = true) ∨ p.burners[b].state = .tripped

section
variable {b : Fin 2} {p q : Part} {x : Fin 16}

theorem Part.Grounded.of_eq (h : p.Grounded b) (same : q.burners[b] = p.burners[b]) : q.Grounded b := by
  rw [Part.Grounded, same]
  exact h

/-- The blocks that do not hold burner b's state. -/
theorem grounded_carries (b : Fin 2) : PointCarries {y | y ≠ .burner b} fun p q => p.Grounded b → q.Grounded b where
  alarms y hy := by
    rintro rfl
    simp at hy
  refl _ := id
  trans h g := g ∘ h
  frame h hp := hp.of_eq (h.burner_eq b (by simp))
  tripBurner c p hp := by
    refine ite_keeps (I := Part.Grounded b) (fun _ => hp) fun _ => ?_
    by_cases e : b = c
    · subst e
      refine .inr ?_
      rw [Part.burnerTo_burner]
      rfl
    · exact hp.of_eq (Part.burnerTo_other e _ _ _ _)

theorem Part.conflict_grounds (user : p.claims[(0 : Fin 3)].user = some b.val) : (p.conflict 0 x).Grounded b := by
  have told : ((p.updRes 0 Resource.toIdle).tellAborted 0 b.val).Grounded b := by
    have held : (p.updRes 0 Resource.toIdle).tellAborted 0 b.val = (p.updRes 0 Resource.toIdle).holdOnConflict b :=
      congrArg (fun c => (p.updRes 0 Resource.toIdle).holdOnConflict c) (Fin.ofNat_val_eq_self b)
    rw [held]
    refine (grounded_carries b).settlePoint (heldPoint b) false _ (.inl ?_)
    rw [Part.hold, Part.burnerTo_burner]
    exact ⟨rfl, rfl⟩
  exact told.of_eq ((Part.conflict_after user).burner_eq b)

theorem Part.conflict_stops {n : Fin 4} (user : p.claims[(1 : Fin 3)].user = some n.val) :
    (p.conflict 1 x).fans[n].state = .tripped := by
  have failed (q : Part) : (q.failStart n).fans[n].state = .tripped := by
    have after := (Part.settlePoint_frame (fanFailPoint n) (((q.updFan n fun x => { x with startFail := true }).settlePoint
      (fanFailPoint n)).fanTo n .tripped) true).1.fan_eq n
    rw [Part.failStart_eq, after, Part.fanTo_fan]
    rfl
  have told : (p.updRes 1 Resource.toIdle).tellAborted 1 n.val = (p.updRes 1 Resource.toIdle).failStart n :=
    congrArg (fun c => (p.updRes 1 Resource.toIdle).failStart c) (Fin.ofNat_val_eq_self n)
  rw [(Part.conflict_after user).fan_eq n, told]
  exact failed _

theorem Part.conflict_ends (user : p.claims[(2 : Fin 3)].user = some b.val) :
    RampGoes b p (p.conflict 2 x) ∧ (p.conflict 2 x).ramps[b] = none := by
  have told : (p.updRes 2 Resource.toIdle).tellAborted 2 b.val = (p.updRes 2 Resource.toIdle).endRamp b :=
    congrArg (fun c => (p.updRes 2 Resource.toIdle).endRamp c) (Fin.ofNat_val_eq_self b)
  have after := Part.conflict_after (x := x) user
  rw [told] at after
  obtain ⟨goes, ended⟩ := (p.updRes 2 Resource.toIdle).endRamp_goes (b := b) b
  exact ⟨(RampGoes.trans (.of_frame' (p.toIdle_frame 2)) goes).trans (.of_frame' after), (after.ramp_eq b).trans (ended rfl)⟩

end

/-! ## A STATUS as the Claim Unit reads it (R39, R44, R46, R47) -/

section
variable {k : Fin 3} {c : List Byte} {p : Part} {x : Fin 16}

theorem LeaveLaw.hearConflicts {I : Part → Prop} (w : LeaveLaw k I) (free : ∀ q, I q → q.claims[k].state ≠ .held) (hp : I p) :
    I (p.forAll resourceIds (Part.hearConflict c x)) := by
  refine forAll_keeps (fun j q hq => ?_) hp
  refine ite_keeps (fun cond => ?_) fun _ => hq
  by_cases e : j = k
  · subst e
    simp only [Bool.and_eq_true, beq_iff_eq] at cond
    exact absurd cond.2 (free q hq)
  · exact w.conflictElsewhere e x hq

/-- What a STATUS leaves before its conflicts: views, then yields. -/
def Part.statusRead (c : List Byte) (x : Fin 16) (p : Part) : Part :=
  (p.forAll resourceIds (Part.hearView c x)).forAll resourceIds (Part.hearYield c x)

theorem Part.forAll_resources (f : Fin 3 → Part → Part) (p : Part) : p.forAll resourceIds f = f 2 (f 1 (f 0 p)) := rfl

theorem Part.hearSets_eq (c : List Byte) (x : Fin 16) (p : Part) :
    p.hearSets c x = (((p.statusRead c x).hearConflict c x 0).hearConflict c x 1).hearConflict c x 2 :=
  Part.forAll_resources (Part.hearConflict c x) (p.statusRead c x)

theorem Part.yieldClaim_self (k : Fin 3) (p : Part) : (p.yieldClaim k).claims[k] =
    if p.claims[k].state = .claiming then
      { p.claims[k] with state := .waiting, user := p.claims[k].waitList.head?, settle := none, note := none }
    else p.claims[k] := p.updRes_claims_self k _

/-- The peer that sends c yields k: of lower number and claiming, or holding it (R44). -/
def Part.YieldsTo (c : List Byte) (x : Fin 16) (k : Fin 3) (p : Part) : Prop :=
  (x < p.strapStation ∧ statClaiming c k = true) ∨ statHeld c k = true

theorem Part.hearYield_self (k : Fin 3) (p : Part) : ((p.YieldsTo c x k ∧ p.claims[k].state = .claiming) →
    (p.hearYield c x k).claims[k] =
      { p.claims[k] with state := .waiting, user := p.claims[k].waitList.head?, settle := none, note := none }) ∧
    (p.claims[k].state ≠ .claiming → (p.hearYield c x k).claims[k] = p.claims[k]) ∧
    (p.hearYield c x k).claims[k].released = p.claims[k].released := by
  unfold Part.hearYield Part.YieldsTo
  split
  · rw [Part.yieldClaim_self]
    exact ⟨fun both => if_pos both.2, fun not => if_neg not, by split <;> rfl⟩
  · next cond => exact ⟨fun both => absurd (by simpa using both.1) cond, fun _ => rfl, rfl⟩

theorem Part.hearYield_other {j : Fin 3} (ne : j ≠ k) (p : Part) : (p.hearYield c x j).claims[k] = p.claims[k] := by
  unfold Part.hearYield Part.yieldClaim
  split
  · exact Part.updRes_claims_other _ _ (Ne.symm ne)
  · rfl

theorem Part.hearYield_frame' (j : Fin 3) (p : Part) : ChangesOnly (Set.range .claim) p (p.hearYield c x j) :=
  (p.hearYield_frame c x j).mono fun _ hb => ⟨j, hb.symm⟩

theorem Part.hearView_frame' (j : Fin 3) (p : Part) : ChangesOnly (Set.range .view) p (p.hearView c x j) :=
  (p.hearView_frame c x j).mono fun _ hb => ⟨j, hb.symm⟩

/-- The view of k that a STATUS leaves: no release note of its sender (R39). -/
theorem Part.hearView_released (k : Fin 3) (p : Part) : (p.hearView c x k).claims[k].released[x] = false := by
  have noted : (p.updRes k fun r => { r with released := r.released.set x false }).claims[k].released[x] = false := by
    rw [Part.updRes_claims_self]
    exact set_self ..
  have heard : p.hearView c x k = if statClaiming c k && !statHeld c k then
      (p.updRes k fun r => { r with released := r.released.set x false }).seeClaim k x none
      else (p.updRes k fun r => { r with released := r.released.set x false }).dropClaimant k x := rfl
  generalize p.updRes k (fun r => { r with released := r.released.set x false }) = q at *
  have kept : (p.hearView c x k).claims[k].released = q.claims[k].released := by
    rw [heard]
    refine ite_keeps (I := fun t : Part => t.claims[k].released = q.claims[k].released) (fun _ => ?_) fun _ => ?_
    · rw [Part.seeClaim, Part.updRes_claims_self]
      dsimp only
      repeat' split
      all_goals rfl
    · rw [Part.dropClaimant, Part.updRes_claims_self]
      split <;> rfl
  exact (congrArg (fun v : Vector Bool 16 => v[x]) kept).trans noted

theorem Part.hearView_other {j : Fin 3} (ne : j ≠ k) (p : Part) : (p.hearView c x j).claims[k] = p.claims[k] := by
  have first : (p.updRes j fun r => { r with released := r.released.set x false }).claims[k] = p.claims[k] :=
    Part.updRes_claims_other _ _ (Ne.symm ne)
  rw [← first]
  exact ite_keeps (I := fun q : Part => q.claims[k] = _) (fun _ => Part.updRes_claims_other _ _ (Ne.symm ne))
    fun _ => Part.updRes_claims_other _ _ (Ne.symm ne)

/-- The record of k when the views of a STATUS have been found, and its yields (R39, R44). -/
theorem Part.statusRead_claim (c : List Byte) (x : Fin 16) (k : Fin 3) (p : Part) :
    ∃ q, ChangesOnly (Set.range .view ∪ Set.range .claim) p q ∧ q.claims[k].state = p.claims[k].state ∧
      q.claims[k].user = p.claims[k].user ∧ q.claims[k].released[x] = false ∧
      (p.statusRead c x).claims[k] = (q.hearYield c x k).claims[k] := by
  obtain ⟨v, upTo, same, found, after⟩ := Part.forAll_at (V := fun q : Part => q.claims[k])
    (R := ChangesOnly (Set.range .view)) (f := Part.hearView c x) (a := k) (fun _ => .refl) (fun h g => h.trans g)
    (fun j q => q.hearView_frame' j) (fun j q ne => Part.hearView_other ne q) (List.nodup_finRange 3) (List.mem_finRange k) p
  obtain ⟨q, upTo', same', found', -⟩ := Part.forAll_at (V := fun q : Part => q.claims[k])
    (R := ChangesOnly (Set.range .claim)) (f := Part.hearYield c x) (a := k) (fun _ => .refl) (fun h g => h.trans g)
    (fun j q => q.hearYield_frame' j) (fun j q ne => Part.hearYield_other ne q) (List.nodup_finRange 3) (List.mem_finRange k)
    (p.forAll resourceIds (Part.hearView c x))
  have views : ChangesOnly (Set.range .view) p (p.forAll resourceIds (Part.hearView c x)) :=
    .forAll (fun j q => q.hearView_frame' j) _ _
  obtain ⟨state, user, -⟩ := views.same (.claim k) (by simp)
  have released : (p.forAll resourceIds (Part.hearView c x)).claims[k].released[x] = false := by
    rw [found]
    exact Part.hearView_released k v
  refine ⟨q, views.andThen upTo', ?_, ?_, ?_, found'⟩ <;> rw [same']
  · exact state
  · exact user
  · exact released

end

end Sys2Proof.Machine
end

section
/-! OBLIGATION O27. Accepted frames by kind: claims, releases, trips, shift numbers and a peer's STATUS. -/

namespace Sys2Proof.Machine

-- One proof at a time: the whole package as one text must not start a thread for each of them.
set_option Elab.async false

open Sys2Proof.Config

/-! ## The end of a row with an accepted frame -/

/-- What follows the hand-on of a frame: the marks, what is heard behind it, and the end of the event. -/
def Part.rowEnd (fans : Vector Fan 4) (more : List Byte) (t : Part) : Part :=
  ((t.refreshMarks.behindFrame more).settleAll).keepAborted fans

/-- What the end of such a row may change. -/
def endBlocks : Set Block := settleAllBlocks ∪ {.lineCounts, .receiving} ∪ Set.range .mark

@[simp] theorem mem_endBlocks {x : Block} : x ∈ endBlocks ↔
    (x ∈ settleAllBlocks ∨ x = .lineCounts ∨ x = .receiving) ∨ x ∈ Set.range Block.mark := Iff.rfl

theorem Part.rowEnd_frame (fans : Vector Fan 4) (more : List Byte) (t : Part) : ChangesOnly endBlocks t (t.rowEnd fans more) := by
  have behind := t.refreshMarks_frame.andThen (Part.behindFrame_frame more t.refreshMarks)
  have settled := behind.andThen (Part.settleAll_frame _)
  have ended := settled.andThen (Part.keepAborted_frame fans _)
  rw [Part.rowEnd]
  generalize ((t.refreshMarks.behindFrame more).settleAll).keepAborted fans = q at ended
  refine ended.mono fun x hx => ?_
  rcases hx with ((marks | rfl | rfl | rfl) | settle) | rfl | rfl
  · exact .inr marks
  · exact .inl (.inr (.inl rfl))
  · exact .inl (.inl (by simp))
  · exact .inl (.inr (.inr rfl))
  · exact .inl (.inl settle)
  all_goals exact .inl (.inl (by simp))

theorem Carries.rowEnd {T : Set Block} {R : Part → Part → Prop} (w : Carries T R)
    (hT : Block.lineCounts ∈ T ∧ Block.receiving ∈ T ∧ ∀ k : Fin 3, Block.mark k ∈ T) (fans : Vector Fan 4) (more : List Byte)
    (t : Part) : R t (t.rowEnd fans more) := by
  obtain ⟨counts, receiving, marks⟩ := hT
  have marked : R t t.refreshMarks := w.frame (t.refreshMarks_frame.mono fun x ⟨k, hk⟩ => hk ▸ marks k)
  have behind : R t.refreshMarks (t.refreshMarks.behindFrame more) := w.frame ((Part.behindFrame_frame more _).mono fun x hx => by
    rcases hx with rfl | rfl | rfl
    · exact counts
    · exact w.alarms (by simp)
    · exact receiving)
  have ended := w.frame ((Part.keepAborted_frame fans (t.refreshMarks.behindFrame more).settleAll).mono fun x hx => by
    rcases hx with rfl | rfl <;> exact w.alarms (by simp))
  exact w.trans (w.trans (w.trans marked behind) (w.settleAll _)) ended

section
variable {p : Part} {x : Fin 16} {chars l more : List Byte}

/-- A peer's frame by its row. -/
theorem takes_heard (apart : p.strapRate ≠ 3) (idle : p.line.phase = .idle) (ready : p.line.receiver = .ready)
    (heard : p.line.assembly ++ chars = l ++ more) (good : headerGood l = true) (size : l.length = frameSize l)
    (check : checkGood l = true) (other : x ≠ p.strapStation) (sender : byteAt l 0 = x.val + 1) :
    Takes (.frameReceived chars) p
      (((p.senderHeard x l).handOn x (l.getD 1 0) (framePayload l)).rowEnd p.fans more) := by
  have took := takes_whole apart idle ready heard good size
  rw [Part.wholeTaken_peer check other sender] at took
  rw [Part.rowEnd]
  exact took

theorem Part.senderHeard_frame (x : Fin 16) (l : List Byte) (p : Part) :
    ChangesOnly {.receiving, .lineCounts, .stuck, .record, .peer x} p (p.senderHeard x l) := by
  have counted : ChangesOnly {.receiving, .lineCounts, .stuck} p (p.updLine fun q =>
      { q with assembly := [], receiver := .behind, stuck := false,
               counts := { q.counts with accepted := q.counts.accepted + 1 } }) := by
    refine ⟨fun b hb => ?_⟩; cases b <;> simp_all [Block.Same]
  exact ((counted.andThen (Part.record_frame _ _)).andThen (Part.renewPeer_frame x _ _)).mono fun b hb => by
    simp at hb ⊢
    tauto

/-- The payload's bytes. -/
theorem framePayload_byte {l : List Byte} (good : headerGood l = true) (size : l.length = frameSize l) {n i : Nat}
    (kind : kindLength (l.getD 1 0) = some n) (lt : i < n) : (framePayload l).getD i 0 = l.getD (4 + i) 0 := by
  have length := kindLength_of_headerGood good (by rw [size, frameSize]; omega)
  obtain rfl := Option.some.inj (kind.symm.trans length)
  simp [framePayload, List.getD_eq_getElem?_getD, List.getElem?_drop, lt]

end

/-! ## A CLAIM (R40, R44, R46) -/

/-- The claim of x stands in the line view of k, unless one of a lower number did (R40). -/
theorem Part.seeClaim_claimant {k : Fin 3} {x : Fin 16} {u : Nat} {p : Part} :
    (p.claims[k].claimant = none → (p.seeClaim k x (some u)).claims[k].claimant = some ⟨x, later p.now (2 * p.cfg.period), some u⟩) ∧
    ∀ c, p.claims[k].claimant = some c → (p.seeClaim k x (some u)).claims[k].claimant =
      if c.peer < x then some c else some ⟨x, later p.now (2 * p.cfg.period), some u⟩ := by
  unfold Part.seeClaim
  rw [Part.updRes_claims_self]
  refine ⟨fun none => by rw [none], fun c some => ?_⟩
  rw [some]
  dsimp only
  by_cases own : x = c.peer
  · rw [if_pos own, if_neg (by omega)]
    rfl
  · rw [if_neg own]
    by_cases below : x < c.peer
    · rw [if_pos below, if_neg (by omega)]
    · rw [if_neg below, if_pos (by omega)]
      exact some

/-- A STATUS stands in the queue once it has been queued by a station that is heard. -/
theorem Part.queueFrame_stands {p : Part} (started : p.started = true) (heard : p.line.silent = false)
    (room : p.line.queue.length < 8) : ∃ f ∈ (p.queueFrame .status).line.queue, f.body = .status := by
  by_cases waiting : p.line.statusWaiting = true
  · rw [Part.queueFrame_status_idle (.inr (.inr waiting))]
    obtain ⟨f, mem, status⟩ := List.any_eq_true.1 waiting
    refine ⟨f, ?_, by simpa using status⟩
    unfold Line.behindAttempt at mem
    split at mem
    · exact mem
    · exact List.mem_of_mem_tail mem
  · rw [Part.queueFrame_place started heard (by simp [waiting]) room]
    exact ⟨_, (Part.place_holds .status p).2, rfl⟩

/-- The record of HEAVY-START waits for the head h of its list. -/
def Part.FanWaits (h : Option Nat) (p : Part) : Prop :=
  p.claims[(1 : Fin 3)].state = .waiting ∧ p.claims[(1 : Fin 3)].user = h ∧ p.claims[(1 : Fin 3)].waitList.head? = h

section
variable {h : Option Nat} {p q : Part} {T : Set Block}

theorem Part.FanWaits.of_frame (w : p.FanWaits h) (frame : ChangesOnly T p q)
    (hT : Block.claim 1 ∉ T ∧ Block.waitList 1 ∉ T := by simp) : q.FanWaits h := by
  obtain ⟨state, user, -⟩ := frame.same (.claim 1) hT.1
  have list : q.claims[(1 : Fin 3)].waitList = p.claims[(1 : Fin 3)].waitList := frame.same (.waitList 1) hT.2
  rw [Part.FanWaits, state, user, list]
  exact w

theorem fanWaits_carries (h : Option Nat) : Carries (awayFrom 1) fun p q => p.FanWaits h → q.FanWaits h where
  alarms x hx := by
    rw [mem_awayFrom]
    refine ⟨?_, ?_, ?_⟩ <;> rintro rfl <;> simp at hx
  refl _ := id
  trans g f := f ∘ g
  frame frame w := w.of_frame frame
  tripBurner b p w := w.of_frame (p.tripBurner_frame b)
  alloc := by simp
  burners b := by simp
  service j p w := by
    by_cases e : j = 1
    · subst e
      rcases p.service_eq 1 with same | ⟨-, -, -, served⟩
      · rw [same]
        exact w
      · obtain ⟨-, -, list⟩ := w
        rw [served, Part.FanWaits, Part.updRes_claims_self]
        exact ⟨rfl, list, list⟩
    · exact w.of_frame (p.service_frame j) (by simp [Ne.symm e])
  autoResume b p w := by
    refine ite_keeps (I := Part.FanWaits h) (fun _ => w.of_frame (p.resume_frame b)) fun _ => w

end

section
variable {k : Fin 3} {x : Fin 16} {u : Nat} {p : Part}

theorem Part.hearClaim_view (u : Nat) (x : Fin 16) (p : Part) (user : u < userCount k) :
    ChangesOnly ({.claim k} ∪ sendBlocks) (p.seeClaim k x (some u)) (p.hearClaim k u x) := by
  unfold Part.hearClaim
  rw [if_neg (by omega)]
  have yielded : ChangesOnly ({.claim k} ∪ sendBlocks) (p.seeClaim k x (some u))
      (if x < p.strapStation then (p.seeClaim k x (some u)).yieldClaim k else p.seeClaim k x (some u)) :=
    .ite (Part.yieldClaim_frame k _).mono .refl
  exact .ite (yielded.next (Part.queueFrame_frame _ _)) yielded

/-- A CLAIMING record that meets the claim of a lower number yields (R44). -/
theorem Part.hearClaim_yields (user : u < userCount k) (claiming : p.claims[k].state = .claiming) (below : x < p.strapStation) :
    (p.hearClaim k u x).claims[k].state = .waiting ∧ (p.hearClaim k u x).claims[k].user = p.claims[k].waitList.head? ∧
    (p.hearClaim k u x).claims[k].settle = none ∧ (p.hearClaim k u x).claims[k].note = none ∧
    (p.hearClaim k u x).claims[k].waitList = p.claims[k].waitList := by
  have seen := p.seeClaim_frame k x (some u)
  obtain ⟨state, -⟩ := seen.same (.claim k) (by simp)
  have list : (p.seeClaim k x (some u)).claims[k].waitList = p.claims[k].waitList := seen.same (.waitList k) (by simp)
  have yielded := (p.seeClaim k x (some u)).yieldClaim_self k
  rw [if_pos (state.trans claiming), list] at yielded
  have heard : p.hearClaim k u x = (p.seeClaim k x (some u)).yieldClaim k := by
    unfold Part.hearClaim
    rw [if_neg (by omega)]
    dsimp only
    rw [if_pos (show x < (p.seeClaim k x (some u)).strapStation from below)]
    exact if_neg (by rw [yielded]; nofun)
  rw [heard, yielded]
  exact ⟨rfl, rfl, rfl, rfl, list⟩

/-- Against a HELD record a STATUS is queued (R46). -/
theorem Part.hearClaim_answers (user : u < userCount k) (held : p.claims[k].state = .held) (started : p.started = true)
    (open_ : p.line.silent = false) (room : p.line.queue.length < 8) :
    ∃ f ∈ (p.hearClaim k u x).line.queue, f.body = .status := by
  have seen := p.seeClaim_frame k x (some u)
  obtain ⟨state, -⟩ := seen.same (.claim k) (by simp)
  have still : ((p.seeClaim k x (some u)).yieldClaim k).claims[k].state = .held := by
    rw [Part.yieldClaim_self, if_neg (by rw [state, held]; nofun)]
    exact state.trans held
  unfold Part.hearClaim
  rw [if_neg (by omega)]
  have heard : ∃ q, ChangesOnly {.claim k, .view k} p q ∧ q.claims[k].state = .held ∧
      (if x < (p.seeClaim k x (some u)).strapStation then (p.seeClaim k x (some u)).yieldClaim k
        else p.seeClaim k x (some u)) = q := by
    refine ⟨_, .ite (seen.mono.next (Part.yieldClaim_frame k _)) seen.mono, ?_, rfl⟩
    exact ite_keeps (I := fun q : Part => q.claims[k].state = .held) (fun _ => still) fun _ => state.trans held
  obtain ⟨q, frame, kept, eq⟩ := heard
  dsimp only
  rw [eq, if_pos kept]
  have queue := frame.queue_eq
  exact Part.queueFrame_stands (frame.started_eq.trans started) (frame.silent_eq.trans open_) (by rw [queue]; exact room)

end

/-- The record of k yields (R44): it is not CLAIMING, has no timer or note of a claim, and that of HEAVY-START waits for the
head of its list, which is that of list l. -/
def Part.GivesWay (k : Fin 3) (l : List Nat) (q : Part) : Prop :=
  q.claims[k].state ≠ .claiming ∧ q.claims[k].settle = none ∧ q.claims[k].note = none ∧
    (k = 1 → q.claims[k].state = .waiting ∧ q.claims[k].user = l.head?)

section
variable {k : Fin 3} {x : Fin 16} {u : Nat} {t : Part}

theorem Part.givesWay_of {l : List Nat} (yielded : t.Yielded k) (fans : k = 1 → t.FanWaits l.head?) : t.GivesWay k l := by
  obtain ⟨state, settle, note⟩ := yielded
  refine ⟨?_, settle, note, fun e => ?_⟩
  · rcases state with w | w <;> rw [w] <;> nofun
  · subst e
    obtain ⟨waiting, user, -⟩ := fans rfl
    exact ⟨waiting, user⟩

/-- What a CLAIM of peer x for k brings, to the end of its row (R40, R44, R46). -/
theorem Part.claim_heard (p : Part) (k : Fin 3) (u : Nat) (x : Fin 16) (before : Vector Fan 4) (more : List Byte) :
    let q := (p.hearClaim k u x).rowEnd before more
    (u < userCount k → p.claims[k].claimant = none → q.claims[k].claimant = some ⟨x, later p.now (2 * p.cfg.period), some u⟩) ∧
    (∀ c, u < userCount k → p.claims[k].claimant = some c → q.claims[k].claimant =
      if c.peer < x then some c else some ⟨x, later p.now (2 * p.cfg.period), some u⟩) ∧
    (userCount k ≤ u → q.claims[k].claimant = p.claims[k].claimant) ∧
    (u < userCount k → p.claims[k].state = .claiming → x < p.strapStation → q.GivesWay k p.claims[k].waitList) ∧
    (u < userCount k → p.claims[k].state = .held → p.started = true → p.line.silent = false → p.line.queue.length < 8 →
      ∃ f ∈ q.line.queue, f.body = .status) := by
  intro q
  have ended : ChangesOnly endBlocks (p.hearClaim k u x) q := Part.rowEnd_frame before more _
  obtain ⟨view, -⟩ := ended.same (.view k) (by simp)
  have seen (user : u < userCount k) : q.claims[k].claimant = (p.seeClaim k x (some u)).claims[k].claimant :=
    view.trans ((p.hearClaim_view u x user).same (.view k) (by simp)).1
  refine ⟨fun user none => (seen user).trans (Part.seeClaim_claimant.1 none), fun c user some =>
    (seen user).trans (Part.seeClaim_claimant.2 c some), fun beyond => ?_, fun user claiming below => ?_,
    fun user held started open_ room => ?_⟩
  · have same : p.hearClaim k u x = p := if_pos beyond
    exact view.trans (by rw [same])
  · obtain ⟨state, own, settle, note, list⟩ := p.hearClaim_yields user claiming below
    refine Part.givesWay_of ((yielded_law k).carries.rowEnd (by simp) before more _ ⟨.inl state, settle, note⟩) fun e => ?_
    subst e
    exact (fanWaits_carries _).rowEnd (by simp) before more _ ⟨state, own, congrArg List.head? list⟩
  · obtain ⟨f, mem, status⟩ := p.hearClaim_answers (x := x) user held started open_ room
    exact ⟨f, (ended.same .queueOut (by simp)).1 mem, status⟩

/-- What a RELEASE of peer x for k brings (R39, R40). -/
theorem Part.release_heard (p : Part) (k : Fin 3) (x : Fin 16) (before : Vector Fan 4) (more : List Byte) :
    let q := (p.hearRelease k x).rowEnd before more
    q.claims[k].released[x] = true ∧ ∀ c, q.claims[k].claimant = some c → c.peer ≠ x := by
  have noted : (p.updRes k fun r => { r with released := r.released.set x true }).claims[k].released[x] = true := by
    rw [Part.updRes_claims_self]
    exact set_self ..
  have heard : p.hearRelease k x = (p.updRes k fun r => { r with released := r.released.set x true }).dropClaimant k x := rfl
  rw [heard]
  generalize p.updRes k (fun r => { r with released := r.released.set x true }) = t at *
  have kept : (t.dropClaimant k x).claims[k].released = t.claims[k].released := by
    rw [Part.dropClaimant, Part.updRes_claims_self]
    split <;> rfl
  obtain ⟨claimant, released⟩ := ((t.dropClaimant k x).rowEnd_frame before more).same (.view k) (by simp)
  replace released := released.trans kept
  generalize (t.dropClaimant k x).rowEnd before more = q at *
  dsimp only
  refine ⟨by rw [released]; exact noted, fun c some => ?_⟩
  rw [Part.dropClaimant, Part.updRes_claims_self] at claimant
  replace some := claimant.symm.trans some
  split at some
  · exact nomatch some
  · next not =>
    rintro rfl
    rw [some] at not
    exact not (by simp)

end

/-! ## A TRIP and a SHIFT (R151, R167) -/

/-- What a TRIP of peer x for point i brings (R28, R151). -/
theorem Part.trip_heard (p : Part) (i cls : Nat) (seq : Byte) (x : Fin 16) (before : Vector Fan 4) (more : List Byte) (lt : i < 62) :
    let q := (if cls = AlarmClass.trip.code ∧ i < 62 then p.setPeerTrip x ⟨some i, some seq⟩ else p).rowEnd before more
    (cls = 0 → q.alarms.peerTrips[x] = some ⟨some i, some seq⟩) ∧ (cls ≠ 0 → q.alarms.peerTrips[x] = p.alarms.peerTrips[x]) := by
  by_cases trip : cls = 0
  · rw [if_pos ⟨trip, lt⟩]
    obtain ⟨trips, -⟩ := ((p.setPeerTrip x ⟨some i, some seq⟩).rowEnd_frame before more).same .peerTrips (by simp)
    have entry : (p.setPeerTrip x ⟨some i, some seq⟩).alarms.peerTrips[x] = some ⟨some i, some seq⟩ := set_self ..
    dsimp only
    rw [trips]
    exact ⟨fun _ => entry, fun not => absurd trip not⟩
  · rw [if_neg fun both => trip both.1]
    obtain ⟨trips, -⟩ := (p.rowEnd_frame before more).same .peerTrips (by simp)
    dsimp only
    rw [trips]
    exact ⟨fun is => absurd is trip, fun _ => rfl⟩

theorem Part.rowEnd_kept (before : Vector Fan 4) (more : List Byte) (t : Part) : RecordKept t (t.rowEnd before more) := by
  have marked : RecordKept t t.refreshMarks := .of_eq t.refreshMarks_frame.current_eq
  have behind : RecordKept t.refreshMarks (t.refreshMarks.behindFrame more) := .ite (.refl _)
    (t.refreshMarks.record_kept (fun r => { r with bad := r.bad + 1 }) fun _ =>
      ⟨rfl, rfl, rfl, rfl, rfl, rfl, rfl, rfl, rfl, rfl, id⟩)
  exact ((marked.trans behind).trans (Part.settleAll_kept _)).trans
    (.of_eq (Part.keepAborted_frame before (t.refreshMarks.behindFrame more).settleAll).current_eq)

/-- What a SHIFT number m of peer x brings to a STARTED station (R167, R168). -/
theorem Part.shift_heard (p : Part) (m : Nat) (x : Fin 16) (before : Vector Fan 4) (more : List Byte) (started : p.started = true)
    (higher : p.shift.number < m) :
    let q := (p.hearShift m (x.val + 1)).rowEnd before more
    q.shift.number = m ∧
    (p.shift.number = 0 → q.shift.store = p.shift.store ∧ ∀ r, p.shift.current = some r →
      ∃ r', q.shift.current = some r' ∧ r'.number = m ∧ r'.origin = .renumbered (x.val + 1) ∧
        r'.openTime = r.openTime ∧ r'.note = r.note) ∧
    (p.shift.number ≠ 0 → ∃ r', q.shift.current = some r' ∧ r'.number = m ∧ r'.origin = .peer (x.val + 1) ∧
      r'.openTime = p.now ∧ r'.gap = decide (p.shift.number + 1 < m)) := by
  have ended (t : Part) := (t.rowEnd_frame before more).shift_eq
  have kept (t : Part) := t.rowEnd_kept before more
  unfold Part.hearShift
  rw [if_neg (by simp [started]; omega)]
  by_cases zero : p.shift.number = 0
  · rw [if_pos zero]
    have shift : (p.renumber m (x.val + 1)).shift = { p.shift with
        number := m, current := p.shift.current.map fun r => { r with number := m, origin := .renumbered (x.val + 1) } } :=
      (Part.offer_frame ..).shifts_eq
    generalize p.renumber m (x.val + 1) = t at *
    obtain ⟨number, store, -⟩ := ended t
    replace kept := kept t
    generalize t.rowEnd before more = q at *
    refine ⟨by rw [number, shift], fun _ => ⟨by rw [store, shift], fun r some => ?_⟩, fun not => absurd zero not⟩
    obtain ⟨r', some', head⟩ := kept.current (r := { r with number := m, origin := .renumbered (x.val + 1) })
      (by rw [shift, some]; rfl)
    exact ⟨r', some', head.number, head.origin, head.openTime, head.note⟩
  · rw [if_neg zero]
    have opened : ∃ r, (p.changeShift m (.peer (x.val + 1)) (x.val + 1)).shift.current = some r ∧ r.number = m ∧
        r.origin = .peer (x.val + 1) ∧ r.openTime = p.now ∧ r.gap = decide (p.shift.number + 1 < m) ∧
        (p.changeShift m (.peer (x.val + 1)) (x.val + 1)).shift.number = m := by
      have opened : (p.changeShift m (.peer (x.val + 1)) (x.val + 1)).shift = ((p.closeRecord false).openRecord m
          (.peer (x.val + 1)) false (decide (p.shift.number + 1 < m))).shift :=
        ((Part.offer_frame ..).shifts_eq).trans (Part.offer_frame ..).shifts_eq
      have now : (p.closeRecord false).now = p.now := (p.closeRecord_frame false).now_eq
      rw [opened]
      exact ⟨_, rfl, rfl, rfl, now, rfl, rfl⟩
    generalize p.changeShift m (.peer (x.val + 1)) (x.val + 1) = t at *
    obtain ⟨r, some, number, origin, openTime, gap, is⟩ := opened
    obtain ⟨number', -, -⟩ := ended t
    replace kept := kept t
    generalize t.rowEnd before more = q at *
    refine ⟨number'.trans is, fun not => absurd not zero, fun _ => ?_⟩
    obtain ⟨r', some', head⟩ := kept.current some
    exact ⟨r', some', head.number.trans number, head.origin.trans origin, head.openTime.trans openTime, head.gap.trans gap⟩

/-! ## A STATUS, to the end of its row -/

/-- What follows the Claim Unit's reading of a STATUS. -/
def Part.statusRest (c : List Byte) (x : Fin 16) (before : Vector Fan 4) (more : List Byte) (h : Part) : Part :=
  (((h.hearTripFlag c x).settlePoint 2).hearShift (statShift c) (x.val + 1)).rowEnd before more

/-- What that may change. -/
def restBlocks : Set Block := {.peerTrips, .shift} ∪ endBlocks

@[simp] theorem mem_restBlocks {y : Block} : y ∈ restBlocks ↔ (y = .peerTrips ∨ y = .shift) ∨ y ∈ endBlocks := Iff.rfl

section
variable {c : List Byte} {x : Fin 16} {before : Vector Fan 4} {more : List Byte} {h : Part}

theorem Part.statusHeard_frame (c : List Byte) (x : Fin 16) (h : Part) :
    ChangesOnly ({.peerTrips, .shift} ∪ tripBlocks) h (((h.hearTripFlag c x).settlePoint 2).hearShift (statShift c) (x.val + 1)) :=
  ((h.hearTripFlag_frame c x).mono.next (Part.settlePoint_frame 2 _ false).1 Set.subset_union_right).next
    (Part.hearShift_frame ..) fun y hy => by simp at hy ⊢; tauto

theorem Part.statusRest_frame (c : List Byte) (x : Fin 16) (before : Vector Fan 4) (more : List Byte) (h : Part) :
    ChangesOnly restBlocks h (h.statusRest c x before more) := by
  have heard := h.statusHeard_frame c x
  rw [Part.statusRest]
  generalize ((h.hearTripFlag c x).settlePoint 2).hearShift (statShift c) (x.val + 1) = t at *
  refine (heard.andThen (t.rowEnd_frame before more)).mono fun y hy => ?_
  rcases hy with (own | trip) | ended
  · exact .inl own
  · exact .inr (.inl (.inl (.inl trip)))
  · exact .inr ended

theorem Carries.statusRest {T : Set Block} {R : Part → Part → Prop} (w : Carries T R)
    (hT : Block.lineCounts ∈ T ∧ Block.receiving ∈ T ∧ (∀ k : Fin 3, Block.mark k ∈ T) ∧ Block.peerTrips ∈ T ∧ Block.shift ∈ T)
    (h : Part) : R h (h.statusRest c x before more) := by
  obtain ⟨counts, receiving, marks, trips, shift⟩ := hT
  have flagged : R h (h.hearTripFlag c x) := w.frame ((h.hearTripFlag_frame c x).mono fun y hy => by
    rcases hy with rfl
    exact trips)
  have pointed := w.trans flagged (w.toPointCarries.settlePoint 2 false (h.hearTripFlag c x))
  have numbered (v : Part) : R v (v.hearShift (statShift c) (x.val + 1)) := w.frame ((v.hearShift_frame ..).mono fun y hy => by
    rcases hy with rfl | rfl | rfl
    · exact w.alarms (by simp)
    · exact shift
    · exact w.alarms (by simp))
  rw [Part.statusRest]
  generalize (h.hearTripFlag c x).settlePoint 2 = v at pointed
  exact w.trans (w.trans pointed (numbered v)) (w.rowEnd ⟨counts, receiving, marks⟩ before more _)

/-- The peer trip entry that a STATUS leaves (R151, R199). -/
theorem Part.statusRest_trips : (statLineTrip c = false → (h.statusRest c x before more).alarms.peerTrips[x] = none) ∧
    (statLineTrip c = true → byteAt c 21 ≤ 61 → (h.statusRest c x before more).alarms.peerTrips[x] =
      some ⟨some (byteAt c 21), match h.alarms.peerTrips[x] with
        | some t => if t.point = some (byteAt c 21) then t.seq else none
        | none => none⟩) ∧
    (statLineTrip c = true → 61 < byteAt c 21 →
      (h.statusRest c x before more).alarms.peerTrips[x] = some (h.alarms.peerTrips[x].getD ⟨none, none⟩)) := by
  have frame : ChangesOnly (restBlocks \ {.peerTrips}) (h.hearTripFlag c x) (h.statusRest c x before more) := by
    rw [Part.statusRest]
    generalize h.hearTripFlag c x = u
    have pointed := (Part.settlePoint_frame 2 u false).1
    generalize u.settlePoint 2 = v at pointed
    have numbered := pointed.andThen (Part.hearShift_frame (statShift c) (x.val + 1) v)
    generalize v.hearShift (statShift c) (x.val + 1) = w at numbered
    refine (numbered.andThen (w.rowEnd_frame before more)).mono fun y hy => ?_
    refine ⟨?_, by rintro rfl; simp at hy⟩
    rcases hy with (trip | rfl | rfl | rfl) | ended
    · exact .inr (.inl (.inl (.inl trip)))
    · exact .inr (.inl (.inl (by simp)))
    · exact .inl (.inr rfl)
    · exact .inr (.inl (.inl (by simp)))
    · exact .inr ended
  obtain ⟨trips, -⟩ := frame.same .peerTrips (by simp)
  generalize h.statusRest c x before more = q at *
  rw [trips]
  unfold Part.hearTripFlag
  refine ⟨fun off => ?_, fun on within => ?_, fun on beyond => ?_⟩
  · rw [if_neg (by simp [off])]
    exact set_self ..
  · rw [if_pos on]
    refine (set_self ..).trans (congrArg some ?_)
    unfold peerTripFrom
    rw [if_pos (show statTripPoint c < 62 by unfold statTripPoint; omega)]
    unfold statTripPoint
    cases h.alarms.peerTrips[x] with
    | none => rfl
    | some t =>
      by_cases same : t.point = some (byteAt c 21)
      · simp [Option.filter, same]
      · simp [Option.filter, same]
  · rw [if_pos on]
    refine (set_self ..).trans (congrArg some ?_)
    exact if_neg (by unfold statTripPoint; omega)

end

/-! ## What a conflict leaves, to the end of the row (R47, R90) -/

section
variable {k : Fin 3} {b : Fin 2} {c : List Byte} {x : Fin 16} {before : Vector Fan 4} {more : List Byte} {p : Part}

/-- A burner held by a conflict is not resumed at the end of the event while the mark of LIGHT-OFF stands (R92). -/
theorem Part.settleHolds_grounded (down : p.Grounded b) (mark : p.claims[(0 : Fin 3)].conflict.isSome = true) :
    p.settleHolds.Grounded b := by
  have kept : p.settleHolds.Grounded b ∧ p.settleHolds.claims[(0 : Fin 3)].conflict.isSome = true := by
    refine forAll_keeps (I := fun q : Part => q.Grounded b ∧ q.claims[(0 : Fin 3)].conflict.isSome = true) ?_ ⟨down, mark⟩
    rintro j q ⟨down, mark⟩
    have followed := q.followCauses_frame j
    have resumed := (q.followCauses j).resume_frame j
    have mark' : (q.followCauses j).claims[(0 : Fin 3)].conflict = q.claims[(0 : Fin 3)].conflict := followed.same (.mark 0) (by simp)
    have mark'' : ((q.followCauses j).resume j).claims[(0 : Fin 3)].conflict = (q.followCauses j).claims[(0 : Fin 3)].conflict :=
      resumed.same (.mark 0) (by simp)
    refine ⟨?_, ite_keeps (I := fun t : Part => t.claims[(0 : Fin 3)].conflict.isSome = true) (fun _ => by rw [mark'', mark']; exact mark)
      fun _ => by rw [mark']; exact mark⟩
    by_cases e : b = j
    · subst e
      have own : (q.followCauses b).burners[b] = if q.burners[b].state = .held then
          { q.burners[b] with causePermit := !q.permitGood b, causeConflict := q.claims[(0 : Fin 3)].conflict.isSome }
          else q.burners[b] := set_self ..
      have grounded : (q.followCauses b).Grounded b := by
        rw [Part.Grounded, own]
        rcases down with ⟨held, -⟩ | tripped
        · rw [if_pos held]
          exact .inl ⟨held, mark⟩
        · rw [if_neg (by rw [tripped]; nofun)]
          exact .inr tripped
      have stays : (q.followCauses b).autoResume b = q.followCauses b := by
        refine if_neg ?_
        rcases grounded with ⟨-, cause⟩ | tripped
        · simp [Part.mayAutoResume, cause, -Fin.getElem_fin]
        · simp [Part.mayAutoResume, tripped, -Fin.getElem_fin]
      rw [stays]
      exact grounded
    · have followed' := followed.burner_eq b (by simp [e])
      have resumed' := resumed.burner_eq b (by simp [e])
      exact ite_keeps (I := Part.Grounded b) (fun _ => (down.of_eq followed').of_eq resumed') fun _ => down.of_eq followed'
  exact kept.1

theorem Part.settleAll_grounded (down : p.Grounded b) (mark : p.claims[(0 : Fin 3)].conflict.isSome = true) :
    p.settleAll.Grounded b := by
  have points : ChangesOnly tripBlocks p (p.settlePoints promptPoints) := .forAll (fun i q => (q.settlePoint_frame i false).1) _ _
  have mark' : (p.settlePoints promptPoints).claims[(0 : Fin 3)].conflict = p.claims[(0 : Fin 3)].conflict :=
    points.same (.mark 0) (by simp)
  have found := (grounded_carries b).settlePoints promptPoints p down
  rw [p.settleAll_eq]
  exact (Part.settleHolds_grounded found (by rw [mark']; exact mark)).of_eq ((Part.settle_frame _).burner_eq b)

theorem ChangesOnly.holds_eq {T : Set Block} {q : Part} (h : ChangesOnly T p q) (k : Fin 3) (x : Fin 16)
    (hT : Block.straps ∉ T ∧ (∀ y : Fin 16, Block.peer y ∉ T) ∧ Block.view k ∉ T := by simp) : q.holds k x = p.holds k x := by
  obtain ⟨straps, peers, view⟩ := hT
  obtain ⟨-, released⟩ := h.same (.view k) view
  have fresh := h.fresh_eq x ⟨straps, peers⟩
  unfold Part.holds
  rw [fresh, released]

/-- The mark of a conflict stands while its peer is found to hold k (R47). -/
theorem Part.refreshMarks_mark (mark : p.claims[k].conflict = some x) (held : p.holds k x = true) :
    p.refreshMarks.claims[k].conflict = some x := by
  have kept : p.refreshMarks.claims[k].conflict = some x ∧ p.refreshMarks.holds k x = true := by
    refine forAll_keeps (I := fun q : Part => q.claims[k].conflict = some x ∧ q.holds k x = true) ?_ ⟨mark, held⟩
    rintro j q ⟨mark, held⟩
    have frame : ChangesOnly {.mark j} q
        (q.updRes j fun r => if r.conflict.all (q.holds j) then r else { r with conflict := none }) :=
      q.updRes_frame j _ _ fun r => by split <;> simp
    refine ⟨?_, (frame.holds_eq k x).trans held⟩
    by_cases e : j = k
    · subst e
      rw [Part.updRes_claims_self, if_pos (by rw [mark]; exact held)]
      exact mark
    · rw [Part.updRes_claims_other _ _ (Ne.symm e)]
      exact mark
  exact kept.1

theorem Part.rowEnd_marked (mark : p.claims[k].conflict = some x) (held : p.holds k x = true) :
    (p.rowEnd before more).claims[k].conflict = some x := by
  have kept := p.refreshMarks_mark mark held
  rw [Part.rowEnd]
  generalize p.refreshMarks = t at kept
  have behind := t.behindFrame_frame more
  generalize t.behindFrame more = u at behind
  have ended := (behind.andThen u.settleAll_frame).andThen (u.settleAll.keepAborted_frame before)
  generalize u.settleAll.keepAborted before = q at ended
  have same : q.claims[k].conflict = t.claims[k].conflict := ended.same (.mark k) (by simp)
  rw [same]
  exact kept

theorem Part.rowEnd_grounded (down : p.Grounded b) (mark : p.claims[(0 : Fin 3)].conflict = some x) (held : p.holds 0 x = true) :
    (p.rowEnd before more).Grounded b := by
  have kept := p.refreshMarks_mark mark held
  have grounded := down.of_eq (p.refreshMarks_frame.burner_eq b)
  rw [Part.rowEnd]
  generalize p.refreshMarks = t at kept grounded
  have behind := t.behindFrame_frame more
  have same : (t.behindFrame more).claims[(0 : Fin 3)].conflict = t.claims[(0 : Fin 3)].conflict := behind.same (.mark 0) (by simp)
  have settled := Part.settleAll_grounded (grounded.of_eq (behind.burner_eq b)) (by rw [same, kept]; rfl)
  exact settled.of_eq ((Part.keepAborted_frame before _).burner_eq b)

theorem Part.statusRest_marked (mark : p.claims[k].conflict = some x) (held : p.holds k x = true) :
    (p.statusRest c x before more).claims[k].conflict = some x ∧
    (k = 0 → p.Grounded b → (p.statusRest c x before more).Grounded b) := by
  have heard := p.statusHeard_frame c x
  have grounded : p.Grounded b → (((p.hearTripFlag c x).settlePoint 2).hearShift (statShift c) (x.val + 1)).Grounded b := fun down =>
    ((grounded_carries b).settlePoint 2 false _ (down.of_eq ((p.hearTripFlag_frame c x).burner_eq b))).of_eq
      ((Part.hearShift_frame ..).burner_eq b)
  rw [Part.statusRest]
  generalize ((p.hearTripFlag c x).settlePoint 2).hearShift (statShift c) (x.val + 1) = t at *
  have same : t.claims[k].conflict = p.claims[k].conflict := heard.same (.mark k) (by simp)
  have mark' := same.trans mark
  have held' := (heard.holds_eq k x).trans held
  refine ⟨Part.rowEnd_marked mark' held', fun e down => ?_⟩
  subst e
  exact Part.rowEnd_grounded (grounded down) mark' held'

end

/-! ## The records that a STATUS strikes -/

section
variable {k : Fin 3} {c : List Byte} {x : Fin 16} {p : Part} {u : Nat}

@[simp] theorem toldBlocks_zero : toldBlocks 0 = tripBlocks := rfl

@[simp] theorem toldBlocks_one : toldBlocks 1 = Set.range .fan ∪ {.fanOut} ∪ leaveBlocks 1 ∪ pointBlocks := rfl

@[simp] theorem toldBlocks_two : toldBlocks 2 = Set.range .ramp ∪ mixBlocks ∪ leaveBlocks 2 := rfl

theorem Part.hearConflict_told (j : Fin 3) (p : Part) :
    ChangesOnly ({.claim j, .reclaim j, .mark j, .events} ∪ toldBlocks j) p (p.hearConflict c x j) :=
  .ite (p.conflict_told j x) .refl

theorem Part.hearConflict_strikes (below : x < p.strapStation) (held : statHeld c k = true) (state : p.claims[k].state = .held) :
    p.hearConflict c x k = p.conflict k x :=
  if_pos (by simp [below, held, state, -Fin.getElem_fin])

/-- What a conflict over k with peer x leaves of the record and the user u of k. -/
structure Struck (k : Fin 3) (x : Fin 16) (u : Nat) (p h : Part) : Prop where
  dropped : h.Dropped k (later p.now p.cfg.period)
  mark : h.claims[k].conflict = some x
  reported : Reported ⟨.resource, k.val, 2, false, p.now, x.val + 1, none⟩ h
  burner : ∀ b : Fin 2, k = 0 → u = b.val → h.Grounded b
  fan : ∀ n : Fin 4, k = 1 → u = n.val → h.fans[n].state = .tripped
  ramp : ∀ (b : Fin 2) (r : MixRamp), k = 2 → u = b.val → p.ramps[b] = some r → RampEnded b r p h ∧ h.feedersOf b = p.feedersOf b

theorem Part.conflict_strikes {z : Part} (user : z.claims[k].user = some u) (now : z.now = p.now) (cfg : z.cfg = p.cfg)
    (goes : k = 2 → ∀ b, RampGoes b p z) : Struck k x u p (z.conflict k x) := by
  obtain ⟨dropped, mark, reported⟩ := Part.conflict_drops (x := x) user
  rw [now] at dropped reported
  rw [cfg] at dropped
  refine ⟨dropped, mark, reported, fun b e same => ?_, fun n e same => ?_, fun b r e same some => ?_⟩
  · subst e same
    exact Part.conflict_grounds user
  · subst e same
    exact Part.conflict_stops user
  · subst e same
    obtain ⟨ends, none⟩ := Part.conflict_ends (x := x) user
    have all := (goes rfl b).trans ends
    refine ⟨?_, all.feeders⟩
    rcases all.goes with ⟨ramp, -⟩ | ⟨gone, y, some', mixes⟩
    · exact absurd ((none.symm.trans ramp).trans some) nofun
    · obtain rfl := Option.some.inj (some.symm.trans some')
      exact ⟨gone, mixes⟩

/-- The conflicts behind that over k leave it so. -/
theorem Struck.hearConflict {h : Part} (s : Struck k x u p h) {j : Fin 3} (behind : k < j) : Struck k x u p (h.hearConflict c x j) := by
  have told := h.hearConflict_told (c := c) (x := x) j
  have dropped : (h.hearConflict c x j).Dropped k (later p.now p.cfg.period) :=
    ite_keeps (I := Part.Dropped k _) (fun _ => (dropped_law k _).conflictElsewhere (by omega) x s.dropped) fun _ => s.dropped
  generalize h.hearConflict c x j = q at told dropped
  rcases (by omega : j = 1 ∨ j = 2) with rfl | rfl
  · obtain rfl : k = 0 := by omega
    have mark : q.claims[(0 : Fin 3)].conflict = h.claims[(0 : Fin 3)].conflict := told.same (.mark 0) (by simp)
    exact ⟨dropped, mark.trans s.mark, told.reported s.reported, fun b e same => (s.burner b e same).of_eq (told.burner_eq b),
      nofun, nofun⟩
  · have mark : q.claims[k].conflict = h.claims[k].conflict := told.same (.mark k) (by simp; omega)
    refine ⟨dropped, mark.trans s.mark, told.reported s.reported, fun b e same => (s.burner b e same).of_eq (told.burner_eq b),
      fun n e same => ?_, fun b r e => absurd e (by omega)⟩
    rw [told.fan_eq n]
    exact s.fan n e same

theorem Part.hearYield_held (k : Fin 3) (p : Part) : (p.hearYield c x k).claims[k].state = .held ↔ p.claims[k].state = .held := by
  unfold Part.hearYield
  split
  · rw [Part.yieldClaim_self]
    split
    · next claiming => rw [claiming]; simp
    · rfl
  · rfl

theorem Part.statusRead_held (k : Fin 3) (p : Part) :
    ((p.statusRead c x).claims[k].state = .held ↔ p.claims[k].state = .held) ∧
    (p.claims[k].state = .held → (p.statusRead c x).claims[k].user = p.claims[k].user) := by
  obtain ⟨q, -, state, user, -, read⟩ := p.statusRead_claim c x k
  rw [read]
  refine ⟨(q.hearYield_held k).trans (by rw [state]), fun held => ?_⟩
  rw [(q.hearYield_self k).2.1 (by rw [state, held]; nofun)]
  exact user

theorem Part.statusRead_frame (c : List Byte) (x : Fin 16) (p : Part) :
    ChangesOnly (Set.range .view ∪ Set.range .claim) p (p.statusRead c x) :=
  (ChangesOnly.forAll (fun j q => q.hearView_frame' j) _ p).andThen (.forAll (fun j q => q.hearYield_frame' j) _ _)

/-- A conflict that a STATUS shows in k (R46, R47). -/
theorem Part.hearSets_struck (below : x < p.strapStation) (shown : statHeld c k = true) (held : p.claims[k].state = .held)
    (user : p.claims[k].user = some u) (alone : k = 2 → statHeld c 0 = false ∨ p.claims[(0 : Fin 3)].state ≠ .held) :
    Struck k x u p (p.hearSets c x) := by
  have read := p.statusRead_frame c x
  have first := (p.statusRead_held (c := c) (x := x) 0).1
  obtain ⟨held', user'⟩ := p.statusRead_held (c := c) (x := x) k
  rw [Part.hearSets_eq]
  have strap := read.strap_eq
  have now := read.now_eq
  have cfg := read.cfg_eq
  have goes (b : Fin 2) : RampGoes b p (p.statusRead c x) := .of_frame' read
  replace held' := held'.2 held
  replace user' := (user' held).trans user
  generalize p.statusRead c x = y at *
  rw [← strap] at below
  have zero := y.hearConflict_told (c := c) (x := x) 0
  have one := (y.hearConflict c x 0).hearConflict_told (c := c) (x := x) 1
  rcases (by omega : k = 0 ∨ k = 1 ∨ k = 2) with rfl | rfl | rfl
  · rw [Part.hearConflict_strikes below shown held']
    exact ((Part.conflict_strikes user' now cfg nofun).hearConflict (by decide)).hearConflict (by decide)
  · obtain ⟨state, own, -⟩ := zero.same (.claim 1) (by simp)
    rw [Part.hearConflict_strikes (by rw [zero.strap_eq]; exact below) shown (state.trans held')]
    exact (Part.conflict_strikes (own.trans user') (zero.now_eq.trans now) (zero.cfg_eq.trans cfg) nofun).hearConflict (by decide)
  · have spared : y.hearConflict c x 0 = y := by
      refine if_neg fun cond => ?_
      simp only [Bool.and_eq_true, decide_eq_true_eq, beq_iff_eq] at cond
      obtain ⟨⟨-, shown0⟩, state⟩ := cond
      rcases alone rfl with off | free
      · rw [off] at shown0
        exact nomatch shown0
      · exact free (first.1 state)
    rw [spared] at one ⊢
    obtain ⟨state, own, -⟩ := one.same (.claim 2) (by simp)
    rw [Part.hearConflict_strikes (by rw [one.strap_eq]; exact below) shown (state.trans held')]
    exact Part.conflict_strikes (own.trans user') (one.now_eq.trans now) (one.cfg_eq.trans cfg)
      fun _ b => (goes b).trans (.of_frame' one)

/-- A record that yields to a STATUS (R44). -/
theorem Part.hearSets_yields (yields : p.YieldsTo c x k) (claiming : p.claims[k].state = .claiming) :
    (p.hearSets c x).Yielded k ∧ (k = 1 → (p.hearSets c x).FanWaits p.claims[k].waitList.head?) := by
  obtain ⟨q, before, state, -, -, read⟩ := p.statusRead_claim c x k
  have list : q.claims[k].waitList = p.claims[k].waitList := before.same (.waitList k) (by simp)
  have strap := before.strap_eq
  have yielded := (q.hearYield_self (c := c) (x := x) k).1 ⟨by unfold Part.YieldsTo at yields ⊢; rwa [strap], state.trans claiming⟩
  rw [← read, list] at yielded
  have waits : (p.statusRead c x).Yielded k := by
    rw [Part.Yielded, yielded]
    exact ⟨.inl rfl, rfl, rfl⟩
  refine ⟨(yielded_law k).toLeaveLaw.hearConflicts (fun t yielded held => ?_) waits, fun e => ?_⟩
  · rcases yielded.1 with w | w <;> rw [held] at w <;> exact nomatch w
  · subst e
    have fan : (p.statusRead c x).FanWaits p.claims[(1 : Fin 3)].waitList.head? := by
      rw [Part.FanWaits, yielded]
      exact ⟨rfl, rfl, congrArg List.head? list⟩
    rw [Part.hearSets_eq]
    have first := fan.of_frame (Part.hearConflict_told (c := c) (x := x) 0 _)
    have spared : ((p.statusRead c x).hearConflict c x 0).hearConflict c x 1 = (p.statusRead c x).hearConflict c x 0 :=
      if_neg (by simp [first.1, -Fin.getElem_fin])
    rw [spared]
    exact first.of_frame (Part.hearConflict_told 2 _)

end

/-! ## A STATUS and its row -/

/-- What no ramp law of burner b looks at. -/
theorem rampGoes_carriesRest (b : Fin 2) :
    Carries {y | y ≠ .ramp b ∧ y ≠ .waitList 2 ∧ ∀ f : Fin 6, y ≠ .feeder f} (RampGoes b) where
  alarms y hy := by
    refine ⟨?_, ?_, fun f => ?_⟩ <;> rintro rfl <;> simp at hy
  refl := .refl
  trans := .trans
  frame h := .of_frame' h
  tripBurner := (rampGoes_carries b).tripBurner
  alloc := ⟨nofun, nofun, nofun⟩
  burners _ := ⟨nofun, nofun, nofun⟩
  service := (rampGoes_carries b).service
  autoResume := (rampGoes_carries b).autoResume

section
variable {k : Fin 3} {c : List Byte} {x : Fin 16} {p : Part} {u : Nat} {before : Vector Fan 4} {more : List Byte}

/-- What a conflict has left at the end of its row. -/
structure StruckDown (k : Fin 3) (x : Fin 16) (u : Nat) (p q : Part) : Prop where
  record : q.claims[k].state = .idle ∧ q.claims[k].user = none ∧ q.claims[k].conflict = some x ∧
    q.claims[k].reclaim = some (later p.now p.cfg.period)
  reported : Reported ⟨.resource, k.val, 2, false, p.now, x.val + 1, none⟩ q
  burner : ∀ b : Fin 2, k = 0 → u = b.val → q.burners[b].state = .held ∨ q.burners[b].state = .tripped
  fan : ∀ n : Fin 4, k = 1 → u = n.val → q.fans[n].state = .tripped
  ramp : ∀ (b : Fin 2) (r : MixRamp), k = 2 → u = b.val → p.ramps[b] = some r → RampEnded b r p q

theorem Struck.rest {h : Part} (s : Struck k x u p h) (held : h.holds k x = true) :
    StruckDown k x u p (h.statusRest c x before more) := by
  have frame := h.statusRest_frame c x before more
  obtain ⟨state, user, reclaim⟩ := (dropped_law k _).carries.statusRest (c := c) (x := x) (before := before) (more := more)
    (by simp) h s.dropped
  have marked (b : Fin 2) := Part.statusRest_marked (b := b) (c := c) (before := before) (more := more) s.mark held
  have ramps (b : Fin 2) := (rampGoes_carriesRest b).statusRest (c := c) (x := x) (before := before) (more := more)
    ⟨⟨nofun, nofun, nofun⟩, ⟨nofun, nofun, nofun⟩, fun _ => ⟨nofun, nofun, nofun⟩, ⟨nofun, nofun, nofun⟩, ⟨nofun, nofun, nofun⟩⟩ h
  generalize h.statusRest c x before more = q at *
  refine ⟨⟨state, user, (marked 0).1, reclaim⟩, frame.reported s.reported, fun b e same => ?_, fun n e same => ?_,
    fun b r e same some => ?_⟩
  · exact ((marked b).2 e (s.burner b e same)).imp And.left id
  · rw [frame.fan_eq n]
    exact s.fan n e same
  · obtain ⟨ended, feeders⟩ := s.ramp b r e same some
    exact ended.next feeders (ramps b)

/-- A STATUS read keeps no release note of its sender, and shows what it holds (R39). -/
theorem Part.hearSets_holds (fresh : p.fresh x = some c) (shown : statHeld c k = true) :
    (p.hearSets c x).holds k x = true := by
  have all : (p.hearSets c x).fresh x = p.fresh x := (p.hearSets_frame c x).fresh_eq x (by simp [userBlocks])
  obtain ⟨q, -, -, -, released, read⟩ := p.statusRead_claim c x k
  have view : (p.hearSets c x).claims[k].released = (p.statusRead c x).claims[k].released := by
    have zero := (p.statusRead c x).hearConflict_told (c := c) (x := x) 0
    have one := ((p.statusRead c x).hearConflict c x 0).hearConflict_told (c := c) (x := x) 1
    have two := (((p.statusRead c x).hearConflict c x 0).hearConflict c x 1).hearConflict_told (c := c) (x := x) 2
    rw [p.hearSets_eq]
    exact (two.same (.view k) (by simp)).2.trans ((one.same (.view k) (by simp)).2.trans (zero.same (.view k) (by simp)).2)
  have kept := (q.hearYield_self (c := c) (x := x) k).2.2
  rw [← read] at kept
  have clear : (p.hearSets c x).claims[k].released[x] = false := by
    have same := view.trans kept
    rw [same]
    exact released
  unfold Part.holds
  rw [all, fresh]
  simp only [clear, shown, Bool.not_false, Bool.and_true]

/-- What a STATUS of peer x brings, to the end of its row (R44, R46, R47, R151). -/
theorem Part.status_heard (p : Part) (k : Fin 3) (c : List Byte) (x : Fin 16) (before : Vector Fan 4) (more : List Byte)
    (other : x ≠ p.strapStation) (live : p.peers[x].state = .live) :
    let q := ((p.updPeer x (Peer.take c)).hearSets c x).statusRest c x before more
    (p.YieldsTo c x k → p.claims[k].state = .claiming → q.GivesWay k p.claims[k].waitList) ∧
    (∀ u, x < p.strapStation → statHeld c k = true → p.claims[k].state = .held → p.claims[k].user = some u →
      (k = 2 → statHeld c 0 = false ∨ p.claims[(0 : Fin 3)].state ≠ .held) → StruckDown k x u p q) ∧
    (statLineTrip c = false → q.alarms.peerTrips[x] = none) ∧
    (statLineTrip c = true → byteAt c 21 ≤ 61 → q.alarms.peerTrips[x] =
      some ⟨some (byteAt c 21), match p.alarms.peerTrips[x] with
        | some t => if t.point = some (byteAt c 21) then t.seq else none
        | none => none⟩) ∧
    (statLineTrip c = true → 61 < byteAt c 21 → q.alarms.peerTrips[x] = some (p.alarms.peerTrips[x].getD ⟨none, none⟩)) := by
  have fresh : (p.updPeer x (Peer.take c)).fresh x = some c := by
    have own : (p.updPeer x (Peer.take c)).peers[x] = p.peers[x].take c := set_self ..
    unfold Part.fresh
    rw [own]
    exact if_pos ⟨other, live, rfl⟩
  have trips : ((p.updPeer x (Peer.take c)).hearSets c x).alarms.peerTrips = p.alarms.peerTrips :=
    (((p.updPeer x (Peer.take c)).hearSets_frame c x).same .peerTrips (by simp [userBlocks])).1
  have sets := Part.statusRest_trips (c := c) (x := x) (before := before) (more := more)
    (h := (p.updPeer x (Peer.take c)).hearSets c x)
  rw [trips] at sets
  refine ⟨fun yields claiming => ?_, fun u below shown held user alone => ?_, sets⟩
  · obtain ⟨yielded, fans⟩ := Part.hearSets_yields (p := p.updPeer x (Peer.take c)) yields claiming
    refine Part.givesWay_of ((yielded_law k).carries.statusRest (by simp) _ yielded) fun e => ?_
    exact (fanWaits_carries _).statusRest (by simp) _ (fans e)
  · obtain ⟨record, reported, burner, fan, ramp⟩ := (Part.hearSets_struck (p := p.updPeer x (Peer.take c)) below shown held user alone).rest
      (c := c) (before := before) (more := more) (Part.hearSets_holds fresh shown)
    exact ⟨record, reported, burner, fan, ramp⟩

end

/-! ## The hand-on by kind (R16) -/

theorem Part.handOn_claim (x : Fin 16) (k : Fin 3) (c : List Byte) (p : Part) (is : byteAt c 0 = k.val) :
    p.handOn x 0x62 c = p.hearClaim k (byteAt c 1) x := by
  unfold Part.handOn
  rw [if_neg (by decide), if_pos rfl, is, finOf_val]

theorem Part.handOn_release (x : Fin 16) (k : Fin 3) (c : List Byte) (p : Part) (is : byteAt c 0 = k.val) :
    p.handOn x 0x63 c = p.hearRelease k x := by
  unfold Part.handOn
  rw [if_neg (by decide), if_neg (by decide), if_pos rfl, is, finOf_val]

theorem Part.handOn_trip (x : Fin 16) (c : List Byte) (p : Part) : p.handOn x 0x74 c =
    if byteAt c 2 = AlarmClass.trip.code ∧ byteAt c 0 < 62 then p.setPeerTrip x ⟨some (byteAt c 0), some (c.getD 1 0)⟩ else p := by
  unfold Part.handOn
  rw [if_neg (by decide), if_neg (by decide), if_neg (by decide), if_pos rfl]

theorem Part.handOn_shift (x : Fin 16) (c : List Byte) (p : Part) : p.handOn x 0x85 c = p.hearShift (wordAt c 0) (x.val + 1) := by
  unfold Part.handOn
  rw [if_neg (by decide), if_neg (by decide), if_neg (by decide), if_neg (by decide)]

theorem Part.handOn_status (x : Fin 16) (c : List Byte) (before : Vector Fan 4) (more : List Byte) (p : Part)
    (takeable : statusTakeable c = true) :
    (p.handOn x 0x51 c).rowEnd before more = ((p.updPeer x (Peer.take c)).hearSets c x).statusRest c x before more := by
  have taken : p.handOn x 0x51 c =
      (((((p.updPeer x (Peer.take c)).hearSets c x).hearTripFlag c x).settlePoint 2).hearShift (statShift c) (x.val + 1)) := by
    unfold Part.handOn Part.takeStatus
    rw [if_pos rfl, if_pos takeable]
  rw [taken, Part.statusRest]

/-- What the row has heard before the hand-on leaves the records, the alarms, the shift and the queue (R16, R26). -/
theorem Part.senderHeard_same (x : Fin 16) (l : List Byte) (p : Part) :
    (p.senderHeard x l).claims = p.claims ∧ (p.senderHeard x l).alarms = p.alarms ∧ (p.senderHeard x l).line.queue = p.line.queue ∧
    (p.senderHeard x l).line.silent = p.line.silent ∧ (p.senderHeard x l).ramps = p.ramps ∧
    (p.senderHeard x l).feeders = p.feeders ∧ (p.senderHeard x l).shift.number = p.shift.number ∧
    (p.senderHeard x l).shift.store = p.shift.store ∧ RecordKept p (p.senderHeard x l) ∧
    (p.senderHeard x l).peers[x].state = .live := by
  have head (f : ShiftRec → ShiftRec) (same : ∀ r : ShiftRec, r.SameHead (f r)) (q : Part) : RecordKept q (q.record f) :=
    q.record_kept f same
  have lost (n : BitVec 32) (q : Part) : RecordKept q (q.record fun r => { r with framesLost := r.framesLost + n }) :=
    head (fun r => { r with framesLost := r.framesLost + n })
      (fun _ => ⟨rfl, rfl, rfl, rfl, rfl, rfl, rfl, rfl, rfl, rfl, id⟩) q
  have counted : RecordKept p (p.senderHeard x l) := by
    have accepted := head (fun r => { r with accepted := r.accepted + 1 })
      (fun _ => ⟨rfl, rfl, rfl, rfl, rfl, rfl, rfl, rfl, rfl, rfl, id⟩)
      (p.updLine fun q => { q with assembly := [], receiver := .behind, stuck := false,
                                   counts := { q.counts with accepted := q.counts.accepted + 1 } })
    have before : RecordKept p (p.updLine fun q => { q with assembly := [], receiver := .behind, stuck := false,
                                                            counts := { q.counts with accepted := q.counts.accepted + 1 } }) :=
      .refl p
    rw [Part.senderHeard]
    refine (before.trans accepted).trans ?_
    rw [Part.renewPeer]
    exact lost _ _
  have renewed : (p.senderHeard x l).peers[x].state = .live := by
    rw [p.senderHeard_peer]
    rfl
  exact ⟨rfl, rfl, rfl, rfl, rfl, rfl, rfl, rfl, counted, renewed⟩

/-- Settles O27: the row by `takes_heard`, each kind by its law (`Part.claim_heard`, `Part.status_heard`, `Part.release_heard`,
`Part.trip_heard`, `Part.shift_heard`). -/
theorem urgentFramesHandedOn : Obligations.UrgentFramesHandedOn := by
  unfold Obligations.UrgentFramesHandedOn
  intro p x chars l more heard apart idle ready good size check other sender yields
  have took := takes_heard apart idle ready heard good size check other sender
  obtain ⟨claims, alarms, queue, silent, ramps, feeders, number, store, record, live⟩ := p.senderHeard_same x l
  have frame := p.senderHeard_frame x l
  have now := frame.now_eq
  have cfg := frame.cfg_eq
  have strap := frame.strap_eq
  have started := frame.started_eq
  generalize p.senderHeard x l = s at *
  refine ⟨fun k kind object => ?_, fun k kind takeable => ?_, fun k kind object => ?_, fun i kind object => ?_,
    fun kind up higher => ?_⟩
  · have byte (i : Nat) (lt : i < 2) : byteAt (framePayload l) i = byteAt l (4 + i) :=
      congrArg BitVec.toNat (framePayload_byte good size (show kindLength (l.getD 1 0) = some 2 by rw [kind]; rfl) lt)
    rw [kind, s.handOn_claim x k _ ((byte 0 (by decide)).trans object), byte 1 (by decide)] at took
    have brings := s.claim_heard k (byteAt l 5) x p.fans more
    rw [claims, now, cfg, strap, started, silent, queue] at brings
    exact ⟨_, took, brings⟩
  · have payload := framePayload_status good size kind
    rw [payload, kind, s.handOn_status x _ _ _ takeable] at took
    obtain ⟨gives, strikes, trips⟩ := s.status_heard k ((l.drop 4).take 25) x p.fans more (by rw [strap]; exact other) live
    have feedersOf (b : Fin 2) : s.feedersOf b = p.feedersOf b := by rw [Part.feedersOf, Part.feedersOf, feeders]
    rw [Part.YieldsTo, strap, claims] at gives
    rw [strap, claims] at strikes
    rw [alarms] at trips
    refine ⟨_, took, gives, fun u below shown held user alone => ?_, trips⟩
    obtain ⟨⟨state, none, mark, reclaim⟩, reported, burner, fan, ramp⟩ := strikes u below shown held user alone
    rw [now, cfg] at reclaim
    rw [now] at reported
    refine ⟨state, none, mark, reclaim, reported, burner, fan, fun b r e same some => ?_⟩
    obtain ⟨gone, mixes⟩ := ramp b r e same (by rw [ramps]; exact some)
    exact ⟨gone, fun f mem => mixes f (by rw [feedersOf]; exact mem)⟩
  · have byte : byteAt (framePayload l) 0 = byteAt l 4 :=
      congrArg BitVec.toNat (framePayload_byte good size (show kindLength (l.getD 1 0) = some 1 by rw [kind]; rfl) (by decide))
    rw [kind, s.handOn_release x k _ (byte.trans object)] at took
    exact ⟨_, took, s.release_heard k x p.fans more⟩
  · have byte (i : Nat) (lt : i < 3) : (framePayload l).getD i 0 = l.getD (4 + i) 0 :=
      framePayload_byte good size (show kindLength (l.getD 1 0) = some 3 by rw [kind]; rfl) lt
    rw [kind, s.handOn_trip, byteAt, byte 2 (by decide), byteAt, byte 0 (by decide), byte 1 (by decide)] at took
    have brings := s.trip_heard (byteAt l 4) (byteAt l 6) (l.getD 5 0) x p.fans more (by omega)
    rw [alarms, object] at brings
    rw [← byteAt, ← byteAt, object] at took
    exact ⟨_, took, brings⟩
  · have byte (i : Nat) (lt : i < 2) : byteAt (framePayload l) i = byteAt l (4 + i) :=
      congrArg BitVec.toNat (framePayload_byte good size (show kindLength (l.getD 1 0) = some 2 by rw [kind]; rfl) lt)
    have word : wordAt (framePayload l) 0 = wordAt l 4 := by
      rw [wordAt, wordAt, byte 0 (by decide), byte 1 (by decide)]
    rw [kind, s.handOn_shift, word] at took
    obtain ⟨new, renumbered, opened⟩ := s.shift_heard (wordAt l 4) x p.fans more (started.trans up) (by rw [number]; exact higher)
    rw [number, store] at renumbered
    rw [number, now] at opened
    refine ⟨_, took, new, fun zero => ?_, opened⟩
    obtain ⟨store, current⟩ := renumbered zero
    refine ⟨store, fun r some => ?_⟩
    obtain ⟨r', some', head⟩ := record.current some
    obtain ⟨t, is, number', origin, openTime, note⟩ := current r' some'
    exact ⟨t, is, number', origin, openTime.trans head.openTime, note.trans head.note⟩

end Sys2Proof.Machine
end

section
/-! SUPPORT. What one feeder control period makes of each feeder: its second, its setpoint, its state, its trim and outputs, and
its two timers. -/

namespace Sys2Proof.Machine

-- One proof at a time: the whole package as one text must not start a thread for each of them.
set_option Elab.async false

open Sys2Proof.Config

/-! ## A second of a feeder (R103 to R106) -/

/-- The second boundary of a used feeder, with what it has heated at that CV. -/
def Feeder.second (runs : Bool) (cv : Nat) (x : Feeder) : Feeder :=
  Feeder.closeBucket { x with
    gramRem := x.massOf % 1000, energyRem := x.energyOf cv % 3600000, kg := x.kg + BitVec.ofNat 32 (x.massOf / 1000),
    kWh := x.kWh + BitVec.ofNat 32 (x.energyOf cv / 3600000), seconds := if runs then x.seconds + 1 else x.seconds }

/-- Whether a feeder counts a running second (R106). -/
def Part.runs (f : Fin 6) (p : Part) : Bool :=
  p.feeders[f].state == .running || (p.feeders[f].state == .inLocal && p.field.image.running[f].valid &&
    p.field.image.running[f].value)

section
variable {p : Part} {f g : Fin 6}

theorem Part.updFeeder_self (f : Fin 6) (u : Feeder → Feeder) (p : Part) : (p.updFeeder f u).feeders[f] = u p.feeders[f] := set_self ..

theorem Part.updFeeder_other (ne : g ≠ f) (u : Feeder → Feeder) (p : Part) : (p.updFeeder f u).feeders[g] = p.feeders[g] :=
  set_other _ _ _ _ ne

theorem Part.countRunning_feeder (f g : Fin 6) (p : Part) : (p.countRunning f).feeders[g] =
    if g = f ∧ p.runs f = true then { p.feeders[g] with seconds := p.feeders[g].seconds + 1 } else p.feeders[g] := by
  have runs : p.runs f = true ↔ p.feeders[f].state = .running ∨ (p.feeders[f].state = .inLocal ∧
      p.field.image.running[f].valid = true ∧ p.field.image.running[f].value = true) := by
    simp only [Part.runs, Bool.or_eq_true, Bool.and_eq_true, beq_iff_eq, and_assoc]
  by_cases on : p.runs f = true
  · have counted : p.countRunning f = (p.updFeeder f fun x => { x with seconds := x.seconds + 1 }).record
        (ShiftRec.updFeeder f fun t => { t with seconds := t.seconds + 1 }) := if_pos (runs.1 on)
    rw [counted]
    by_cases e : g = f
    · subst e
      rw [if_pos ⟨rfl, on⟩]
      exact set_self ..
    · rw [if_neg fun h => e h.1]
      exact set_other _ _ _ _ e
  · rw [if_neg fun h => on h.2, show p.countRunning f = p from if_neg (mt runs.2 on)]

theorem Part.secondOfFeeder_self (used : p.feeders[f].cfg.used = true) :
    (p.secondOfFeeder f).feeders[f] = p.feeders[f].second (p.runs f) (p.cvOf f) := by
  have total : (p.totalize f).feeders[f] = { p.feeders[f] with
      gramRem := p.feeders[f].massOf % 1000, energyRem := p.feeders[f].energyOf (p.cvOf f) % 3600000,
      kg := p.feeders[f].kg + BitVec.ofNat 32 (p.feeders[f].massOf / 1000),
      kWh := p.feeders[f].kWh + BitVec.ofNat 32 (p.feeders[f].energyOf (p.cvOf f) / 3600000) } := set_self ..
  have runs : (p.totalize f).runs f = p.runs f := by
    unfold Part.runs
    rw [total]
    rfl
  unfold Part.secondOfFeeder
  rw [if_pos used, Part.updFeeder_self, Part.countRunning_feeder, runs, total, Feeder.second]
  by_cases on : p.runs f = true
  · rw [if_pos ⟨rfl, on⟩, on, if_pos rfl]
  · rw [if_neg fun h => on h.2, Bool.eq_false_iff.2 on]
    rfl

theorem Part.secondOfFeeder_other (ne : f ≠ g) (p : Part) : (p.secondOfFeeder f).feeders[g] = p.feeders[g] := by
  have ne' : g ≠ f := Ne.symm ne
  refine ite_keeps (I := fun q : Part => q.feeders[g] = p.feeders[g]) (fun _ => ?_) fun _ => rfl
  have total : (p.totalize f).feeders[g] = p.feeders[g] := set_other _ _ _ _ ne'
  rw [Part.updFeeder_other ne', Part.countRunning_feeder, if_neg fun h => ne' h.1, total]

/-- A station second leaves of each feeder what its own second does. -/
theorem Part.stationSecond_feeder (f : Fin 6) (p : Part) : p.stationSecond.feeders[f] =
    if p.feeders[f].cfg.used = true then p.feeders[f].second (p.runs f) (p.cvOf f) else p.feeders[f] := by
  have counted : ChangesOnly {.record} p ((p.zoneSecond).forAll burnerIds Part.firingSecond) :=
    (ChangesOnly.ite (p.record_frame _) .refl).trans (.forAll (fun b q => .ite (q.record_frame _) .refl) _ _)
  have same := counted.feeder_eq f
  have image : ((p.zoneSecond).forAll burnerIds Part.firingSecond).field.image = p.field.image := counted.same .image (by simp)
  have fuel := counted.fuel_eq
  unfold Part.stationSecond
  generalize (p.zoneSecond).forAll burnerIds Part.firingSecond = c at *
  obtain ⟨q, before, eq, found, -⟩ := Part.forAll_at (V := fun q : Part => q.feeders[f]) (a := f)
    (R := ChangesOnly (Set.range .feeder ∪ Set.range .drive ∪ {.record})) (fun _ => .refl) (fun h g => h.trans g)
    (fun g q => q.secondOfFeeder_frame g) (fun g q ne => q.secondOfFeeder_other ne) (List.nodup_finRange 6) (List.mem_finRange f) c
  have image' : q.field.image = c.field.image := before.same .image (by simp)
  have fuel' := before.fuel_eq
  replace eq := eq.trans same
  rw [found]
  by_cases used : p.feeders[f].cfg.used = true
  · have runs : q.runs f = p.runs f := by rw [Part.runs, Part.runs, eq, image', image]
    have cv : q.cvOf f = p.cvOf f := by
      unfold Part.cvOf
      simp only [eq, fuel', fuel]
    rw [if_pos used, Part.secondOfFeeder_self (by rw [eq]; exact used), eq, runs, cv]
  · rw [if_neg used]
    exact (congrArg (fun t : Part => t.feeders[f]) (if_neg (by rw [eq]; exact used))).trans eq

end

/-! ## Steps 2 to 5 of R107 -/

/-- A feeder that enters a state (R100, R110, R111). -/
def Feeder.entered (s : FeederState) (sp : Nat) (x : Feeder) : Feeder :=
  { x with state := s, setpoint := sp, rampRem := 0, trim := 0, devTimer := none, noFlow := none }

/-- A feeder's state found again from its local input and whether it is wanted (R100). -/
def Feeder.refound (good wanted : Bool) (x : Feeder) : Feeder :=
  if good = true ∧ x.state ≠ .inLocal then
    if wanted then (if x.state = .running then x else x.entered .running x.setpoint)
    else if x.state = .stopped then x else x.entered .stopped 0
  else x

/-- Whether burner b wants the feeder f (R100). -/
def Feeder.wantedBy (f : Fin 6) (b : Burner) (x : Feeder) : Bool :=
  match b.state with
  | .igniting => b.cfg.feeder == f
  | .loading | .firing => decide (0 < x.mix) || decide (0 < x.setpoint)
  | .stopping => decide (0 < x.setpoint)
  | _ => false

/-- The local input of a feeder is negated and valid (R100). -/
def Part.inputGood (f : Fin 6) (p : Part) : Bool := p.field.image.inLocal[f].valid && !p.field.image.inLocal[f].value

theorem Feeder.refound_cfg (good wanted : Bool) (x : Feeder) : (x.refound good wanted).cfg = x.cfg := by
  unfold Feeder.refound
  repeat' split
  all_goals rfl

theorem Feeder.updateTrim_cfg (x : Feeder) : x.updateTrim.cfg = x.cfg := by
  unfold Feeder.updateTrim
  split <;> rfl

/-- The commands of a feeder's outputs: speed, run, remote enable. -/
def Part.commands (f : Fin 6) (p : Part) : Nat × Bool × Bool :=
  (p.field.output.speed[f], p.field.output.run[f], p.field.output.remote[f])

/-- The commands that a feeder's state sets (R101, R109). -/
def Feeder.commands (x : Feeder) : Nat × Bool × Bool :=
  (if x.state = .running then x.speedCommand else 0, x.state == .running, x.state == .running || x.state == .stopped)

section
variable {p q : Part} {f g : Fin 6}

theorem Part.wanted_eq (f : Fin 6) (p : Part) : p.wanted f = p.feeders[f].wantedBy f p.burners[p.feeders[f].cfg.burner] := rfl

theorem Part.settleFeeder_self (started : p.started = true) (used : p.feeders[f].cfg.used = true) :
    (p.settleFeeder f).feeders[f] = p.feeders[f].refound (p.inputGood f) (p.wanted f) := by
  have entered (s : FeederState) (sp : Nat) : (p.feederTo f s sp).feeders[f] = p.feeders[f].entered s sp := Part.feederTo_self ..
  unfold Part.settleFeeder Feeder.refound Part.inputGood
  dsimp only
  rw [started, used]
  by_cases good : (p.field.image.inLocal[f].valid && !p.field.image.inLocal[f].value) = true ∧ p.feeders[f].state ≠ .inLocal
  · have ⟨input, remote⟩ := good
    have free : (!true || !true || p.feeders[f].state == .inLocal || !p.field.image.inLocal[f].valid ||
        p.field.image.inLocal[f].value) = false := by
      simp only [Bool.and_eq_true, Bool.not_eq_true'] at input
      simp [input, remote, -Fin.getElem_fin]
    rw [if_neg (by rw [free]; decide), if_pos good]
    split
    · split
      · rfl
      · exact entered ..
    · split
      · rfl
      · exact entered ..
  · rw [if_neg good, if_pos]
    · simp only [not_and_or, Bool.and_eq_true, Bool.not_eq_true', not_not] at good
      rcases good with (v | v) | v <;> simp [v, -Fin.getElem_fin]

theorem Part.settleFeeder_other (ne : f ≠ g) (p : Part) : (p.settleFeeder f).feeders[g] = p.feeders[g] :=
  (p.settleFeeder_frame f).feeder_eq g (by simp [Ne.symm ne])

theorem Part.mem_usedFeeders : f ∈ p.usedFeeders ↔ p.feeders[f].cfg.used = true := by simp [Part.usedFeeders]

theorem Part.usedFeeders_nodup (p : Part) : p.usedFeeders.Nodup := (List.nodup_finRange 6).filter _

/-- Step 2: the setpoints (R108). -/
def Part.setpointsMoved (p : Part) : Part :=
  p.forAll p.usedFeeders fun f q => q.updFeeder f (Feeder.moveSetpoint q.alloc.massF[f])

/-- Step 4: trims and outputs (R109, R101). -/
def Part.trimmed (p : Part) : Part := p.forAll p.usedFeeders fun f q => (q.updFeeder f Feeder.updateTrim).writeFeeder f

/-- Step 5: the two timers (R112, R113). -/
def Part.timersTested (p : Part) : Part :=
  p.forAll p.usedFeeders fun f q => q.updFeeder f (Feeder.testTimers q.now q.field.output.speed[f])

theorem Part.dose_eq (p : Part) : p.dose = ((p.setpointsMoved).settleFeeders).trimmed.timersTested := rfl

theorem Part.setpointsMoved_frame (p : Part) : ChangesOnly (Set.range .drive) p p.setpointsMoved :=
  .forAll (fun f q => (q.updFeeder_drive_frame f _ fun x => x.moveSetpoint_measured _).mono) _ p

theorem Part.setpointsMoved_feeder (used : p.feeders[f].cfg.used = true) :
    p.setpointsMoved.feeders[f] = p.feeders[f].moveSetpoint p.alloc.massF[f] := by
  obtain ⟨q, before, same, found, -⟩ := Part.forAll_at (V := fun q : Part => q.feeders[f]) (a := f)
    (R := fun p q : Part => q.alloc = p.alloc) (f := fun f q => q.updFeeder f (Feeder.moveSetpoint q.alloc.massF[f]))
    (fun _ => rfl) (fun h g => Eq.trans g h) (fun _ _ => rfl) (fun g q ne => Part.updFeeder_other (Ne.symm ne) ..)
    p.usedFeeders_nodup (Part.mem_usedFeeders.2 used) p
  refine found.trans ?_
  rw [Part.updFeeder_self, same, before]

theorem Part.settleFeeders_feeder (started : p.started = true) (used : p.feeders[f].cfg.used = true) :
    p.settleFeeders.feeders[f] =
      p.feeders[f].refound (p.inputGood f) (p.feeders[f].wantedBy f p.burners[p.feeders[f].cfg.burner]) := by
  obtain ⟨q, before, same, found, -⟩ := Part.forAll_at (V := fun q : Part => q.feeders[f]) (a := f)
    (R := ChangesOnly (Set.range .drive ∪ {.driveOut})) (f := Part.settleFeeder)
    (fun _ => .refl) (fun h g => h.trans g) (fun g q => (q.settleFeeder_frame g).mono) (fun g q ne => q.settleFeeder_other ne)
    (List.nodup_finRange 6) (List.mem_finRange f) p
  have image : q.field.image = p.field.image := before.same .image (by simp)
  have burners (b : Fin 2) := before.burner_eq b
  refine found.trans ?_
  rw [Part.settleFeeder_self (before.started_eq.trans started) (by rw [same]; exact used), Part.wanted_eq, Part.inputGood, image]
  simp only [same, burners]
  rfl

/-- A feeder and its outputs. -/
def Part.driven (f : Fin 6) (p : Part) : Feeder × Nat × Bool × Bool := (p.feeders[f], p.commands f)

theorem Part.trim_driven (f : Fin 6) (p : Part) : ((p.updFeeder f Feeder.updateTrim).writeFeeder f).driven f =
    (p.feeders[f].updateTrim, p.feeders[f].updateTrim.commands) := by
  have own : (p.updFeeder f Feeder.updateTrim).feeders[f] = p.feeders[f].updateTrim := Part.updFeeder_self ..
  generalize p.updFeeder f Feeder.updateTrim = q at own
  rw [← own]
  unfold Part.driven Part.commands Part.writeFeeder
  simp only [Part.updOutput, set_self]
  rfl

theorem Part.trim_other (ne : f ≠ g) (p : Part) : ((p.updFeeder f Feeder.updateTrim).writeFeeder f).driven g = p.driven g := by
  have ne' : g ≠ f := Ne.symm ne
  have own : (p.updFeeder f Feeder.updateTrim).feeders[g] = p.feeders[g] := Part.updFeeder_other ne' ..
  unfold Part.driven Part.commands Part.writeFeeder
  simp only [Part.updOutput, set_other _ _ _ _ ne']
  exact congrArg (fun x => (x, _)) own

theorem Part.trimmed_driven (used : p.feeders[f].cfg.used = true) :
    p.trimmed.driven f = (p.feeders[f].updateTrim, p.feeders[f].updateTrim.commands) := by
  obtain ⟨q, -, same, found, -⟩ := Part.forAll_at (V := fun q : Part => q.driven f) (a := f) (R := fun _ _ => True)
    (f := fun f q => (q.updFeeder f Feeder.updateTrim).writeFeeder f) (fun _ => trivial) (fun _ _ => trivial) (fun _ _ => trivial)
    (fun g q ne => q.trim_other ne) p.usedFeeders_nodup (Part.mem_usedFeeders.2 used) p
  have feeder : q.feeders[f] = p.feeders[f] := congrArg Prod.fst same
  refine found.trans ?_
  rw [Part.trim_driven, feeder]

theorem Part.timersTested_driven (used : p.feeders[f].cfg.used = true) :
    p.timersTested.driven f = (p.feeders[f].testTimers p.now p.field.output.speed[f], p.commands f) := by
  obtain ⟨q, before, same, found, -⟩ := Part.forAll_at (V := fun q : Part => q.feeders[f]) (a := f)
    (R := fun p q : Part => q.now = p.now ∧ q.field = p.field)
    (f := fun f q => q.updFeeder f (Feeder.testTimers q.now q.field.output.speed[f])) (fun _ => ⟨rfl, rfl⟩)
    (fun h g => ⟨g.1.trans h.1, g.2.trans h.2⟩) (fun _ _ => ⟨rfl, rfl⟩) (fun g q ne => Part.updFeeder_other (Ne.symm ne) ..)
    p.usedFeeders_nodup (Part.mem_usedFeeders.2 used) p
  have field : p.timersTested.field = p.field :=
    forAll_keeps (I := fun q : Part => q.field = p.field) (fun _ _ h => h) rfl
  unfold Part.driven Part.commands
  rw [field]
  refine congrArg (fun x => (x, _)) (found.trans ?_)
  rw [Part.updFeeder_self, same, before.1, before.2]

/-- A used feeder once the doses of a control period are set (R107). -/
def Part.dosed (f : Fin 6) (p : Part) : Feeder :=
  (((p.feeders[f].moveSetpoint p.alloc.massF[f]).refound (p.inputGood f)
    ((p.feeders[f].moveSetpoint p.alloc.massF[f]).wantedBy f p.burners[p.feeders[f].cfg.burner])).updateTrim)

theorem Part.dose_driven (started : p.started = true) (used : p.feeders[f].cfg.used = true) :
    p.dose.driven f = ((p.dosed f).testTimers p.now (p.dosed f).commands.1, (p.dosed f).commands) := by
  have a := p.setpointsMoved_frame
  have moved := p.setpointsMoved_feeder used
  have b := p.setpointsMoved.settleFeeders_frame
  have cfg : (p.feeders[f].moveSetpoint p.alloc.massF[f]).cfg = p.feeders[f].cfg := by
    have measured := p.feeders[f].moveSetpoint_measured p.alloc.massF[f]
    have same := congrArg Feeder.cfg measured
    exact same
  have image : p.setpointsMoved.field.image = p.field.image := a.same .image (by simp)
  have burners (c : Fin 2) := a.burner_eq c
  have found := Part.settleFeeders_feeder (a.started_eq.trans started) (f := f) (by rw [moved, cfg]; exact used)
  simp only [moved, burners, cfg] at found
  have input : p.setpointsMoved.inputGood f = p.inputGood f := by rw [Part.inputGood, image, Part.inputGood]
  rw [input] at found
  have now : p.setpointsMoved.settleFeeders.now = p.now := b.now_eq.trans a.now_eq
  rw [Part.dose_eq]
  generalize p.setpointsMoved.settleFeeders = s at found now
  have used' : s.feeders[f].cfg.used = true := by rw [found, Feeder.refound_cfg, cfg]; exact used
  have trimmed := Part.trimmed_driven used'
  have now' : s.trimmed.now = s.now := forAll_keeps (I := fun q : Part => q.now = s.now) (fun _ _ h => h) rfl
  have dosed : s.feeders[f].updateTrim = p.dosed f := by rw [found]; rfl
  rw [dosed] at trimmed
  generalize s.trimmed = t at trimmed now'
  have feeder : t.feeders[f] = p.dosed f := congrArg Prod.fst trimmed
  have commands : t.commands f = (p.dosed f).commands := congrArg Prod.snd trimmed
  have speed : t.field.output.speed[f] = (p.dosed f).commands.1 := congrArg Prod.fst commands
  have used'' : t.feeders[f].cfg.used = true := by
    rw [feeder, ← dosed, Feeder.updateTrim_cfg]
    exact used'
  rw [Part.timersTested_driven used'', feeder, commands, speed, now', now]

end

end Sys2Proof.Machine
end

section
/-! SUPPORT. The ends of LOADING and STOPPING at a control period leave the doses it has set. -/

namespace Sys2Proof.Machine

-- One proof at a time: the whole package as one text must not start a thread for each of them.
set_option Elab.async false

open Sys2Proof.Config

/-! ## Feeders whose state is found -/

/-- The state of feeder f is the one that R100 gives it. -/
def Part.Found (f : Fin 6) (p : Part) : Prop :=
  p.started = true → p.feeders[f].cfg.used = true → p.inputGood f = true → p.feeders[f].state ≠ .inLocal →
    (p.wanted f = true → p.feeders[f].state = .running) ∧ (p.wanted f = false → p.feeders[f].state = .stopped)

/-- A feeder but for its mix fraction and its ramp remainder. -/
def Feeder.gauged (x : Feeder) : Feeder := { x with mix := 0, rampRem := 0 }

/-- From p to q the doses stand: every feeder but for its mix, its outputs, the allocation, and the ramp remainder of a burner
that does not stop; and a feeder whose state was found has it still. -/
structure DosesKept (p q : Part) : Prop where
  gauges : ∀ f : Fin 6, q.feeders[f].gauged = p.feeders[f].gauged
  commands : ∀ f : Fin 6, q.commands f = p.commands f
  alloc : q.alloc = p.alloc
  ramp : ∀ f : Fin 6, p.burners[p.feeders[f].cfg.burner].state ≠ .stopping → q.feeders[f].rampRem = p.feeders[f].rampRem
  stopping : ∀ b : Fin 2, q.burners[b].state = .stopping → p.burners[b].state = .stopping
  found : (∀ f : Fin 6, p.Found f) → ∀ f : Fin 6, q.Found f

section
variable {p q r : Part} {b : Fin 2} {f : Fin 6} {T : Set Block}

theorem Feeder.gauged_eq {x y : Feeder} (h : x.gauged = y.gauged) : x.cfg = y.cfg ∧ x.state = y.state ∧ x.setpoint = y.setpoint := by
  have cfg := congrArg Feeder.cfg h
  have state := congrArg Feeder.state h
  have setpoint := congrArg Feeder.setpoint h
  exact ⟨cfg, state, setpoint⟩

theorem DosesKept.refl (p : Part) : DosesKept p p := ⟨fun _ => rfl, fun _ => rfl, rfl, fun _ _ => rfl, fun _ => id, id⟩

theorem DosesKept.trans (h : DosesKept p q) (g : DosesKept q r) : DosesKept p r := by
  refine ⟨fun f => (g.gauges f).trans (h.gauges f), fun f => (g.commands f).trans (h.commands f), g.alloc.trans h.alloc,
    fun f going => (g.ramp f fun stops => ?_).trans (h.ramp f going), fun b => h.stopping b ∘ g.stopping b, g.found ∘ h.found⟩
  have same := (Feeder.gauged_eq (h.gauges f)).1
  simp only [same] at stops
  exact going (h.stopping _ stops)

/-- A feeder whose state is found is not changed by finding it again. -/
theorem Part.Found.settled (h : p.Found f) : p.settleFeeder f = p := by
  unfold Part.settleFeeder
  dsimp only
  split
  · rfl
  · next free =>
    simp only [Bool.or_eq_true, Bool.not_eq_true', beq_iff_eq, not_or, Bool.not_eq_false, Bool.not_eq_true] at free
    obtain ⟨⟨⟨⟨started, used⟩, remote⟩, valid⟩, off⟩ := free
    obtain ⟨runs, stops⟩ := h started used (by simp [Part.inputGood, valid, off, -Fin.getElem_fin]) remote
    split
    · next wanted => rw [if_pos (runs wanted)]
    · next not => rw [if_pos (stops (Bool.eq_false_iff.2 not))]

theorem Part.settleFeedersOf_found (h : ∀ f : Fin 6, p.Found f) (b : Fin 2) : p.settleFeedersOf b = p :=
  forAll_keeps (I := fun q : Part => q = p) (fun f q e => by rw [e, (h f).settled]) rfl

/-- A feeder that is wanted as before is found as before. -/
theorem Part.Found.of_same (h : p.Found f) (started : q.started = p.started) (image : q.field.image = p.field.image)
    (gauges : q.feeders[f].gauged = p.feeders[f].gauged) (wanted : q.wanted f = p.wanted f) : q.Found f := by
  obtain ⟨cfg, state, -⟩ := Feeder.gauged_eq gauges
  unfold Part.Found Part.inputGood at h ⊢
  rw [started, image, cfg, state, wanted]
  exact h

theorem ChangesOnly.commands_eq (h : ChangesOnly T p q) (f : Fin 6) (hT : Block.driveOut ∉ T := by simp) :
    q.commands f = p.commands f := by
  obtain ⟨speed, run, remote⟩ := h.same .driveOut hT
  unfold Part.commands
  rw [speed, run, remote]

theorem DosesKept.of_frame (h : ChangesOnly T p q)
    (hT : (∀ f, Block.feeder f ∉ T) ∧ (∀ f, Block.drive f ∉ T) ∧ Block.driveOut ∉ T ∧ Block.alloc ∉ T ∧ Block.offer ∉ T ∧
      Block.image ∉ T ∧ Block.started ∉ T := by simp)
    (burners : ∀ (f : Fin 6) (x : Feeder) (c : Fin 2), x.wantedBy f q.burners[c] = x.wantedBy f p.burners[c])
    (stopping : ∀ b : Fin 2, q.burners[b].state = .stopping → p.burners[b].state = .stopping) : DosesKept p q := by
  obtain ⟨feeder, drive, out, alloc, offer, image, started⟩ := hT
  have feeders (f : Fin 6) := h.feeder_eq f ⟨feeder f, drive f⟩
  refine ⟨fun f => by rw [feeders], fun f => h.commands_eq f out, ?_, fun f _ => by rw [feeders], stopping, fun found f => ?_⟩
  · exact h.alloc_eq (by simp [alloc, offer])
  · refine (found f).of_same (h.started_eq started) (h.same .image image) (by rw [feeders]) ?_
    rw [Part.wanted_eq, Part.wanted_eq]
    simp only [feeders, burners]

/-! ## The end of LOADING (R83) -/

/-- A burner about to enter a state: what it gives up has been given up, its items and its igniter are set. -/
def Part.entering (b : Fin 2) (s : BurnerState) (fix : Burner → Burner) (p : Part) : Part :=
  ((p.leaveFor b s).updBurner b fun x => fix (x.cleared s)).updOutput fun o => { o with igniter := o.igniter.set b (s == .igniting) }

theorem Part.burnerTo_eq (b : Fin 2) (s : BurnerState) (fix : Burner → Burner) (p : Part) (mark : Bool) : p.burnerTo b s fix mark =
    ((((if s = .off ∨ s = .held ∨ s = .tripped then (p.entering b s fix).zeroSetpoints b else p.entering b s fix).settleFeedersOf
      b).record (ShiftRec.updBurner b (BurnerTotals.entered s))).offer .burner b.val s.code mark) := rfl

theorem Part.entering_burner (b : Fin 2) (s : BurnerState) (fix : Burner → Burner) (p : Part) :
    (p.entering b s fix).burners[b] = fix (p.burners[b].cleared s) := by
  have left : (p.leaveFor b s).burners[b] = p.burners[b] := (p.leaveFor_frame b s).burner_eq b
  rw [← left]
  exact set_self ..

theorem Part.entering_other {c : Fin 2} (ne : c ≠ b) (s : BurnerState) (fix : Burner → Burner) (p : Part) :
    (p.entering b s fix).burners[c] = p.burners[c] := by
  have left : (p.leaveFor b s).burners[c] = p.burners[c] := (p.leaveFor_frame b s).burner_eq c
  rw [← left]
  exact set_other _ _ _ _ ne

theorem Part.entering_frame (b : Fin 2) (s : BurnerState) (fix : Burner → Burner) (p : Part) :
    ChangesOnly {.burner b, .igniters} (p.leaveFor b s) (p.entering b s fix) :=
  (Part.updBurner_frame b _ _).mono.next (Part.igniter_frame (fun v => v.set b (s == .igniting)) _)

/-- What is reported of a change of state leaves the doses. -/
theorem Part.burnerTo_reports (s : BurnerState) (mark : Bool) (p : Part) :
    DosesKept p ((p.record (ShiftRec.updBurner b (BurnerTotals.entered s))).offer .burner b.val s.code mark) := by
  have frame := (p.record_frame (ShiftRec.updBurner b (BurnerTotals.entered s))).andThen
    (Part.offer_frame .burner b.val s.code mark 0 none _)
  generalize (p.record (ShiftRec.updBurner b (BurnerTotals.entered s))).offer .burner b.val s.code mark = q at frame
  have burners (c : Fin 2) := frame.burner_eq c
  exact .of_frame frame (by simp) (fun f x c => by rw [burners]) fun c => by rw [burners]; exact id

theorem Part.enterFiring_keeps (loading : p.burners[b].state = .loading) (found : ∀ f : Fin 6, p.Found f) :
    DosesKept p (p.enterFiring b) := by
  have entered (fix : Burner → Burner) (keeps : ∀ x : Burner, (fix x).state = x.state) :
      DosesKept p (p.burnerTo b .firing fix) := by
    have left : p.leaveFor b .firing = p.withdraw 0 b.val := by
      unfold Part.leaveFor
      dsimp only
      rw [if_pos (show BurnerState.firing.fires = true from rfl), if_neg (by decide)]
    have frame := (p.withdraw_frame 0 b.val).andThen (left ▸ p.entering_frame b .firing fix)
    have own := p.entering_burner b .firing fix
    have other (c : Fin 2) (ne : c ≠ b) := p.entering_other ne .firing fix
    rw [Part.burnerTo_eq, if_neg (by decide)]
    generalize p.entering b .firing fix = u at frame own other
    have fires : u.burners[b].state = .firing := by rw [own, keeps]; rfl
    have kept : DosesKept p u := by
      refine .of_frame frame (by simp) (fun f x c => ?_) fun c stops => ?_
      · by_cases e : c = b
        · subst e
          unfold Feeder.wantedBy
          rw [fires, loading]
        · rw [other c e]
      · by_cases e : c = b
        · subst e
          exact absurd (fires.symm.trans stops) nofun
        · rwa [other c e] at stops
    rw [Part.settleFeedersOf_found (kept.found found)]
    exact kept.trans (u.burnerTo_reports .firing false)
  exact entered _ fun _ => rfl

/-! ## The end of STOPPING (R87) -/

theorem Feeder.wantedBy_congr {x y : Feeder} {c : Burner} (setpoint : x.setpoint = y.setpoint)
    (mix : c.state ≠ .stopping → x.mix = y.mix) : x.wantedBy f c = y.wantedBy f c := by
  unfold Feeder.wantedBy
  cases e : c.state with
  | loading | firing =>
    rw [setpoint, mix (by rw [e]; nofun)]
  | stopping => rw [setpoint]
  | _ => rfl

/-- The fractions of a stopping burner's feeders do not make them wanted. -/
theorem Part.mixSet_keeps (m : Vector Nat 6) (stopping : p.burners[b].state = .stopping) :
    DosesKept p (p.forAll (p.feedersOf b) fun f => Part.updFeeder f fun x => { x with mix := m[f] }) := by
  have mixes := p.forAll_mix m (p.feedersOf b)
  have kept := forAll_keeps (l := p.feedersOf b) (f := fun f => Part.updFeeder f fun x => { x with mix := m[f] }) (p := p)
    (I := fun q : Part => (q.burners = p.burners ∧ q.field = p.field ∧ q.alloc = p.alloc ∧ q.started = p.started) ∧
      ∀ f : Fin 6, q.feeders[f].gauged = p.feeders[f].gauged ∧ q.feeders[f].rampRem = p.feeders[f].rampRem)
    (fun g q h => ⟨h.1, fun f => by
      by_cases e : f = g
      · subst e
        rw [Part.updFeeder_self]
        exact h.2 f
      · rw [Part.updFeeder_other e]
        exact h.2 f⟩) ⟨⟨rfl, rfl, rfl, rfl⟩, fun _ => ⟨rfl, rfl⟩⟩
  generalize p.forAll (p.feedersOf b) (fun f => Part.updFeeder f fun x => { x with mix := m[f] }) = q at *
  obtain ⟨⟨burners, field, alloc, started⟩, feeders⟩ := kept
  refine ⟨fun f => (feeders f).1, fun f => by unfold Part.commands; rw [field], alloc, fun f _ => (feeders f).2,
    fun c => by rw [burners]; exact id, fun found f => (found f).of_same started (by rw [field]) (feeders f).1 ?_⟩
  obtain ⟨cfg, -, setpoint⟩ := Feeder.gauged_eq (feeders f).1
  rw [Part.wanted_eq, Part.wanted_eq]
  simp only [burners, cfg]
  refine Feeder.wantedBy_congr setpoint fun going => ((mixes f).2.trans (if_neg fun mem => going ?_))
  have own := (Part.mem_feedersOf.1 mem).2
  simp only [own]
  exact stopping

/-- A step that leaves feeders, outputs, allocation and burners leaves the doses. -/
theorem DosesKept.of_apart (h : ChangesOnly T p q)
    (hT : (∀ f, Block.feeder f ∉ T) ∧ (∀ f, Block.drive f ∉ T) ∧ Block.driveOut ∉ T ∧ Block.alloc ∉ T ∧ Block.offer ∉ T ∧
      Block.image ∉ T ∧ Block.started ∉ T := by simp) (burners : ∀ c, Block.burner c ∉ T := by simp) : DosesKept p q := by
  have same (c : Fin 2) := h.burner_eq c (burners c)
  exact .of_frame h hT (fun f x c => by rw [same]) fun c => by rw [same]; exact id

theorem Part.endRamp_keeps (stopping : p.burners[b].state = .stopping) (found : ∀ f : Fin 6, p.Found f) :
    DosesKept p (p.endRamp b) := by
  unfold Part.endRamp
  split
  · next r _ =>
    have mixed := p.mixSet_keeps r.target stopping
    have same : p.replaceMix b r.target = p.forAll (p.feedersOf b) fun f => Part.updFeeder f fun x => { x with mix := r.target[f] } :=
      Part.settleFeedersOf_found (mixed.found found) b
    rw [same]
    exact mixed.trans (.of_apart ((Part.setRamp_frame b none _).andThen (Part.withdraw_frame 2 _ _)))
  · exact .refl p

/-- The setpoints of a burner that has stopped are 0 already, but for those in LOCAL. -/
theorem Part.zeroSetpoints_feeder (b : Fin 2) (f : Fin 6) (p : Part) : (p.zeroSetpoints b).feeders[f] =
    if f ∈ p.feedersOf b ∧ p.feeders[f].state ≠ .inLocal then { p.feeders[f] with setpoint := 0, rampRem := 0 }
    else p.feeders[f] := by
  have other (g : Fin 6) (q : Part) (ne : g ≠ f) : (q.updFeeder g fun x =>
      if x.state = .inLocal then x else { x with setpoint := 0, rampRem := 0 }).feeders[f] = q.feeders[f] :=
    Part.updFeeder_other (Ne.symm ne) ..
  by_cases mem : f ∈ p.feedersOf b
  · obtain ⟨q, -, same, found, -⟩ := Part.forAll_at (V := fun q : Part => q.feeders[f]) (a := f) (R := fun _ _ => True)
      (f := fun f => Part.updFeeder f fun x => if x.state = .inLocal then x else { x with setpoint := 0, rampRem := 0 })
      (fun _ => trivial) (fun _ _ => trivial) (fun _ _ => trivial) (fun g q ne => other g q ne)
      (p.feedersOf_pairwise_lt b).nodup mem p
    refine found.trans ?_
    rw [Part.updFeeder_self, same]
    by_cases own : p.feeders[f].state = .inLocal
    · rw [if_pos own, if_neg fun h => h.2 own]
    · rw [if_neg own, if_pos ⟨mem, own⟩]
  · rw [if_neg fun h => mem h.1]
    exact Part.forAll_absent (V := fun q : Part => q.feeders[f]) (fun g q ne => other g q ne) mem p

/-- The setpoints of burner b's feeders are 0, but for those in LOCAL. -/
def Part.Emptied (b : Fin 2) (p : Part) : Prop := ∀ f ∈ p.feedersOf b, p.feeders[f].state = .inLocal ∨ p.feeders[f].setpoint = 0

theorem Part.feedersStopped_iff : p.feedersStopped b = true ↔ p.Emptied b := by
  simp [Part.feedersStopped, Part.Emptied]

theorem DosesKept.feedersOf (h : DosesKept p q) (b : Fin 2) : q.feedersOf b = p.feedersOf b :=
  Part.feedersOf_congr (fun f => by
    obtain ⟨cfg, -, -⟩ := Feeder.gauged_eq (h.gauges f)
    exact ⟨congrArg FeederCfg.used cfg, congrArg FeederCfg.burner cfg⟩) b

theorem DosesKept.emptied (h : DosesKept p q) (b : Fin 2) : q.Emptied b ↔ p.Emptied b := by
  unfold Part.Emptied
  rw [h.feedersOf b]
  refine forall_congr' fun f => ?_
  obtain ⟨-, state, setpoint⟩ := Feeder.gauged_eq (h.gauges f)
  rw [state, setpoint]

/-- Burner b leaves STOPPING with its feeders' setpoints at 0 already. -/
theorem Part.emptied_keeps (was : p.burners[b].state = .stopping) (empty : p.Emptied b)
    (frame : ChangesOnly {.burner b, .igniters} p q) (off : q.burners[b].state = .off) : DosesKept p (q.zeroSetpoints b) := by
  have feeders (f : Fin 6) := frame.feeder_eq f
  have of : q.feedersOf b = p.feedersOf b := Part.feedersOf_congr (fun f => by rw [feeders]; exact ⟨rfl, rfl⟩) b
  have zeroed (f : Fin 6) := q.zeroSetpoints_feeder b f
  have drives := q.zeroSetpoints_frame b
  simp only [feeders, of] at zeroed
  have other (c : Fin 2) (ne : c ≠ b) := frame.burner_eq c (by simp [ne])
  have burners (c : Fin 2) := drives.burner_eq c
  generalize q.zeroSetpoints b = z at *
  have outside (f : Fin 6) (not : f ∉ p.feedersOf b) : z.feeders[f] = p.feeders[f] := (zeroed f).trans (if_neg fun h => not h.1)
  refine ⟨fun f => ?_, fun f => (drives.commands_eq f).trans (frame.commands_eq f), drives.alloc_eq.trans frame.alloc_eq,
    fun f going => ?_, fun c stops => ?_, fun found f => ?_⟩
  · rw [zeroed]
    split
    · next own =>
      have zero := (empty f own.1).resolve_left own.2
      unfold Feeder.gauged
      rw [zero]
    · rfl
  · rw [outside f fun mem => going ?_]
    have own := (Part.mem_feedersOf.1 mem).2
    simp only [own]
    exact was
  · rw [burners] at stops
    by_cases e : c = b
    · subst e
      exact absurd (off.symm.trans stops) nofun
    · rwa [other c e] at stops
  · have started : z.started = p.started := drives.started_eq.trans frame.started_eq
    have image' : q.field.image = p.field.image := frame.same .image (by simp)
    have image : z.field.image = p.field.image := Eq.trans (drives.same .image (by simp)) image'
    by_cases own : p.feeders[f].cfg.burner = b
    · rintro up used good remote
      have kept : z.feeders[f].cfg = p.feeders[f].cfg ∧ z.feeders[f].state = p.feeders[f].state := by
        rw [zeroed]
        split <;> exact ⟨rfl, rfl⟩
      obtain ⟨cfg, state⟩ := kept
      rw [cfg] at used
      rw [state] at remote ⊢
      have zero := (empty f (Part.mem_feedersOf.2 ⟨used, own⟩)).resolve_left remote
      have idle : p.wanted f = false := by
        rw [Part.wanted_eq]
        simp only [own, Feeder.wantedBy, was, zero]
        rfl
      have unwanted : z.wanted f = false := by
        rw [Part.wanted_eq]
        simp only [cfg, own, burners, Feeder.wantedBy, off]
      have down := (found f (started.symm.trans up) used (by rwa [Part.inputGood, ← image]) remote).2 idle
      exact ⟨fun wanted => absurd (unwanted.symm.trans wanted) nofun, fun _ => down⟩
    · have same := outside f fun mem => own (Part.mem_feedersOf.1 mem).2
      have burner : z.burners[p.feeders[f].cfg.burner] = p.burners[p.feeders[f].cfg.burner] :=
        (burners _).trans (other _ own)
      refine (found f).of_same started image (by rw [same]) ?_
      rw [Part.wanted_eq, Part.wanted_eq]
      simp only [same, burner]

theorem Part.enterOff_keeps (stopping : p.burners[b].state = .stopping) (empty : p.Emptied b)
    (found : ∀ f : Fin 6, p.Found f) : DosesKept p (p.enterOff b) := by
  have left : p.leaveFor b .off = (p.withdraw 0 b.val).endRamp b := by
    unfold Part.leaveFor
    dsimp only
    rw [if_neg (by decide), if_neg (by decide)]
  have withdrawn : DosesKept p (p.withdraw 0 b.val) := .of_apart (p.withdraw_frame 0 b.val)
  have still : (p.withdraw 0 b.val).burners[b].state = .stopping := by
    have same := (p.withdraw_frame 0 b.val).burner_eq b
    rw [same]
    exact stopping
  have ended := withdrawn.trans (Part.endRamp_keeps still (withdrawn.found found))
  rw [← left] at ended
  have still' : (p.leaveFor b .off).burners[b].state = .stopping := by
    have same := (p.leaveFor_frame b .off).burner_eq b
    rw [same]
    exact stopping
  have entered := p.entering_frame b .off id
  have own := p.entering_burner b .off id
  rw [Part.enterOff, Part.burnerTo_eq, if_pos (.inl rfl)]
  generalize p.entering b .off id = u at entered own
  have kept := ended.trans (Part.emptied_keeps still' ((ended.emptied b).2 empty) entered (by rw [own]; rfl))
  rw [Part.settleFeedersOf_found (kept.found found)]
  exact kept.trans (Part.burnerTo_reports .off false _)

/-! ## Both ends, of both burners (R107 step 6) -/

/-- The doses stand through a step if every feeder's state was found before it. -/
def KeepsDoses (p q : Part) : Prop := (∀ f : Fin 6, p.Found f) → DosesKept p q

theorem KeepsDoses.trans (h : KeepsDoses p q) (g : KeepsDoses q r) : KeepsDoses p r := fun found =>
  (h found).trans (g ((h found).found found))

theorem Part.checkLoaded_keeps (b : Fin 2) (p : Part) : KeepsDoses p (p.checkLoaded b) := fun found =>
  ite_keeps (I := DosesKept p) (fun ends => Part.enterFiring_keeps ends.1 found) fun _ => .refl p

theorem Part.checkStopped_keeps (b : Fin 2) (p : Part) : KeepsDoses p (p.checkStopped b) := fun found =>
  ite_keeps (I := DosesKept p) (fun ends => Part.enterOff_keeps ends.1 (Part.feedersStopped_iff.1 ends.2) found) fun _ => .refl p

theorem Part.checkLoaded_other {c : Fin 2} (ne : c ≠ b) (p : Part) : (p.checkLoaded c).burners[b] = p.burners[b] :=
  (p.checkLoaded_frame c).burner_eq b (by simp [Ne.symm ne])

theorem Part.checkStopped_other {c : Fin 2} (ne : c ≠ b) (p : Part) : (p.checkStopped c).burners[b] = p.burners[b] :=
  (p.checkStopped_frame c).burner_eq b (by simp [Ne.symm ne])

/-- The ends of LOADING and STOPPING of a control period. -/
def Part.ended (p : Part) : Part := (p.forAll burnerIds Part.checkLoaded).forAll burnerIds Part.checkStopped

theorem Part.ended_keeps (p : Part) : KeepsDoses p p.ended :=
  (Part.forAll_rel (R := KeepsDoses) (fun p _ => .refl p) (fun h g => h.trans g) (fun b q => q.checkLoaded_keeps b) _ p).trans
    (Part.forAll_rel (R := KeepsDoses) (fun p _ => .refl p) (fun h g => h.trans g) (fun b q => q.checkStopped_keeps b) _ _)

theorem Part.checkLoaded_quits (k : Fin 3) (b : Fin 2) (p : Part) : Quits k p (p.checkLoaded b) :=
  ite_keeps (I := Quits k p) (fun _ => p.burnerTo_quits b _ _ _) fun _ => .refl p

theorem Part.checkStopped_quits (k : Fin 3) (b : Fin 2) (p : Part) : Quits k p (p.checkStopped b) :=
  ite_keeps (I := Quits k p) (fun _ => p.burnerTo_quits b _ _ _) fun _ => .refl p

/-- Who does not hold k is not granted it on the way. -/
theorem Quits.holdsNot {k : Fin 3} {u : Nat} (h : Quits k p q) (not : ¬ p.holdsFor k u) : ¬ q.holdsFor k u := fun ⟨state, user⟩ => by
  obtain ⟨held, same⟩ := h.held state
  exact not ⟨held, same.symm.trans user⟩

/-- The burner once the loaded ones fire (R83). -/
theorem Part.loaded_burner (b : Fin 2) (p : Part) :
    let q := p.forAll burnerIds Part.checkLoaded
    (p.burners[b].state = .loading → p.alloc.targetB[b] * 9 ≤ p.alloc.deliveredB[b] * 10 →
      q.burners[b].state = .firing ∧ ¬ q.holdsFor 0 b.val) ∧
    (¬ (p.burners[b].state = .loading ∧ p.alloc.targetB[b] * 9 ≤ p.alloc.deliveredB[b] * 10) → q.burners[b] = p.burners[b]) := by
  obtain ⟨q, before, same, found, after⟩ := Part.forAll_at (V := fun q : Part => q.burners[b]) (a := b)
    (R := fun p q : Part => ChangesOnly (burnerBlocks 0 ∪ burnerBlocks 1) p q ∧ Quits 0 p q)
    (fun p => ⟨.refl, .refl p⟩) (fun h g => ⟨h.1.trans g.1, h.2.trans g.2⟩)
    (fun c q => ⟨(q.checkLoaded_frame c).mono fun x hx => by
      rcases (by omega : c = 0 ∨ c = 1) with rfl | rfl
      · exact .inl hx
      · exact .inr hx, q.checkLoaded_quits 0 c⟩)
    (fun c q ne => q.checkLoaded_other ne) (List.nodup_finRange 2) (List.mem_finRange b) p
  have alloc := before.1.alloc_eq
  generalize p.forAll burnerIds Part.checkLoaded = r at *
  refine ⟨fun loading enough => ?_, fun not => ?_⟩
  · have ends : q.checkLoaded b = q.enterFiring b := if_pos ⟨by rw [same]; exact loading, by rw [alloc]; exact enough⟩
    rw [ends] at found after
    have fires : (q.enterFiring b).burners[b].state = .firing := by
      rw [Part.enterFiring, Part.burnerTo_burner]
      rfl
    refine ⟨(congrArg Burner.state found).trans fires, after.2.holdsNot ?_⟩
    exact Part.burnerTo_holdsNot rfl _ q false
  · have stays : q.checkLoaded b = q := if_neg (by rw [same, alloc]; exact not)
    rw [stays] at found
    exact found.trans same

/-- The burner once the stopped ones are OFF (R87). -/
theorem Part.stopped_burner (found : ∀ f : Fin 6, p.Found f) (b : Fin 2) :
    (p.forAll burnerIds Part.checkStopped).burners[b] =
      if p.burners[b].state = .stopping ∧ p.feedersStopped b = true then p.burners[b].cleared .off else p.burners[b] := by
  obtain ⟨q, before, same, at_, -⟩ := Part.forAll_at (V := fun q : Part => q.burners[b]) (a := b) (R := KeepsDoses)
    (fun p _ => .refl p) (fun h g => h.trans g) (fun c q => q.checkStopped_keeps c)
    (fun c q ne => q.checkStopped_other ne) (List.nodup_finRange 2) (List.mem_finRange b) p
  have empty : q.feedersStopped b = true ↔ p.feedersStopped b = true := by
    rw [Part.feedersStopped_iff, Part.feedersStopped_iff]
    exact (before found).emptied b
  refine at_.trans ?_
  by_cases ends : p.burners[b].state = .stopping ∧ p.feedersStopped b = true
  · have off : q.checkStopped b = q.enterOff b := if_pos ⟨by rw [same]; exact ends.1, empty.2 ends.2⟩
    rw [off, if_pos ends, ← same]
    exact Part.burnerTo_burner ..
  · have stays : q.checkStopped b = q := if_neg fun h => ends ⟨by rw [← same]; exact h.1, empty.1 h.2⟩
    rw [stays, if_neg ends]
    exact same

/-- Each burner at the end of its LOADING or STOPPING (R83, R87). -/
theorem Part.ended_burner (found : ∀ f : Fin 6, p.Found f) (b : Fin 2) :
    (p.burners[b].state = .loading → p.alloc.targetB[b] * 9 ≤ p.alloc.deliveredB[b] * 10 →
      p.ended.burners[b].state = .firing ∧ ¬ p.ended.holdsFor 0 b.val) ∧
    (p.burners[b].state = .loading → p.alloc.deliveredB[b] * 10 < p.alloc.targetB[b] * 9 → p.ended.burners[b] = p.burners[b]) ∧
    (p.burners[b].state = .stopping → p.Emptied b → p.ended.burners[b] = p.burners[b].cleared .off) ∧
    (p.burners[b].state = .stopping → ¬ p.Emptied b → p.ended.burners[b] = p.burners[b]) ∧
    (p.burners[b].state ≠ .loading → p.burners[b].state ≠ .stopping → p.ended.burners[b] = p.burners[b]) := by
  obtain ⟨fires, stays⟩ := p.loaded_burner b
  have kept : DosesKept p (p.forAll burnerIds Part.checkLoaded) :=
    Part.forAll_rel (R := KeepsDoses) (fun p _ => .refl p) (fun h g => h.trans g) (fun b q => q.checkLoaded_keeps b) _ p found
  have quits : Quits 0 (p.forAll burnerIds Part.checkLoaded) p.ended :=
    Part.forAll_rel (R := Quits 0) .refl (fun h g => h.trans g) (fun b q => q.checkStopped_quits 0 b) _ _
  have stopped := Part.stopped_burner (kept.found found) b
  rw [← Part.ended] at stopped
  generalize p.forAll burnerIds Part.checkLoaded = r at *
  generalize p.ended = e at *
  have empty : r.feedersStopped b = true ↔ p.Emptied b := Part.feedersStopped_iff.trans (kept.emptied b)
  have going (state : r.burners[b].state ≠ .stopping) : e.burners[b] = r.burners[b] := stopped.trans (if_neg fun h => state h.1)
  refine ⟨fun loading enough => ?_, fun loading less => ?_, fun stopping none => ?_, fun stopping some => ?_,
    fun loading stopping => ?_⟩
  · obtain ⟨state, free⟩ := fires loading enough
    exact ⟨(congrArg Burner.state (going (by rw [state]; nofun))).trans state, quits.holdsNot free⟩
  · have same := stays fun h => by omega
    exact (going (by rw [same, loading]; nofun)).trans same
  · have same := stays fun h => absurd (stopping.symm.trans h.1) nofun
    rw [stopped, same, if_pos ⟨stopping, empty.2 none⟩]
  · have same := stays fun h => absurd (stopping.symm.trans h.1) nofun
    rw [stopped, same, if_neg fun h => some (empty.1 h.2)]
  · have same := stays fun h => loading h.1
    exact (going (by rw [same]; exact stopping)).trans same

end

end Sys2Proof.Machine
end

section
/-! OBLIGATION O42. The feeder control period: totals, setpoints, states, trims, outputs, timers, and the ends of LOADING and
STOPPING. -/

namespace Sys2Proof.Machine

-- One proof at a time: the whole package as one text must not start a thread for each of them.
set_option Elab.async false

open Sys2Proof.Config

/-! ## One feeder (R103 to R113) -/

section
variable {x : Feeder} {f : Fin 6}

/-- What the second boundary leaves of a feeder, as R103 to R106 name it. -/
theorem Feeder.second_shows (runs : Bool) (cv : Nat) (x : Feeder) :
    let y := x.second runs cv
    let ring := (x.ring ++ [x.bucket]).drop ((x.ring ++ [x.bucket]).length - x.cfg.window)
    y.kg = x.kg + BitVec.ofNat 32 ((x.gramRem + x.bucket * x.cfg.weight) / 1000) ∧
    y.gramRem = (x.gramRem + x.bucket * x.cfg.weight) % 1000 ∧
    y.kWh = x.kWh + BitVec.ofNat 32 ((x.energyRem + x.bucket * x.cfg.weight * cv) / 3600000) ∧
    y.energyRem = (x.energyRem + x.bucket * x.cfg.weight * cv) % 3600000 ∧
    (runs = true → y.seconds = x.seconds + 1) ∧ (runs = false → y.seconds = x.seconds) ∧ y.bucket = 0 ∧ y.whole = true ∧
    (x.whole = true → y.ring = ring ∧ y.measBad = false ∧ y.rate = ringRate ring x.cfg.weight) ∧
    (x.whole = false → y.ring = x.ring ∧ y.measBad = x.measBad ∧ y.rate = x.rate) := by
  cases w : x.whole <;> cases runs <;> simp [Feeder.second, Feeder.closeBucket, w, Feeder.massOf, Feeder.energyOf, joinRing]

/-- The items of a feeder that a second boundary leaves as they are. -/
theorem Feeder.second_same (runs : Bool) (cv : Nat) (x : Feeder) :
    let y := x.second runs cv
    y.cfg = x.cfg ∧ y.mix = x.mix ∧ y.state = x.state ∧ y.setpoint = x.setpoint ∧ y.rampRem = x.rampRem ∧ y.trim = x.trim := by
  cases w : x.whole <;> simp [Feeder.second, Feeder.closeBucket, w]

/-- The setpoint that a control period moves a feeder in REMOTE to (R108). -/
def Feeder.target (goal : Nat) (x : Feeder) : Nat :=
  let apart := if x.setpoint ≤ goal then goal - x.setpoint else x.setpoint - goal
  let step := (x.rampRem + x.cfg.ramp) / 5
  if x.state ≠ .running then 0 else if apart ≤ step then goal
    else if x.setpoint < goal then x.setpoint + step else x.setpoint - step

theorem Feeder.moveSetpoint_shows (goal : Nat) (used : x.state ≠ .unused) :
    let y := x.moveSetpoint goal
    let apart := if x.setpoint ≤ goal then goal - x.setpoint else x.setpoint - goal
    let step := (x.rampRem + x.cfg.ramp) / 5
    y.measured = x.measured ∧ y.state = x.state ∧ y.trim = x.trim ∧
    (x.state = .inLocal → y.setpoint = x.rate) ∧ (x.state ≠ .inLocal → y.setpoint = x.target goal) ∧
    (x.state = .running → y.rampRem = if apart ≤ step then 0 else (x.rampRem + x.cfg.ramp) % 5) := by
  unfold Feeder.target
  cases state : x.state with
  | unused => exact absurd state used
  | stopped | inLocal => simp [Feeder.moveSetpoint, state, Feeder.measured]
  | running =>
    have moved : x.moveSetpoint goal = x.ramp goal := by unfold Feeder.moveSetpoint; rw [state]
    rw [moved]
    unfold Feeder.ramp
    dsimp only
    by_cases near : (if x.setpoint ≤ goal then goal - x.setpoint else x.setpoint - goal) ≤ (x.rampRem + x.cfg.ramp) / 5
    · simp [near, state, Feeder.measured]
    · by_cases below : x.setpoint < goal
      · simp [near, below, state, Feeder.measured]
      · simp [near, below, state, Feeder.measured]

/-- A feeder's state found again (R100): what becomes of its setpoint and trim. -/
theorem Feeder.refound_shows (good wanted : Bool) (x : Feeder) :
    let y := x.refound good wanted
    y.measured = x.measured ∧ (x.state = .inLocal ∨ good = false → y = x) ∧
    (x.state ≠ .inLocal → good = true → wanted = true → y.state = .running ∧ y.setpoint = x.setpoint) ∧
    (x.state ≠ .inLocal → good = true → wanted = false → y.state = .stopped ∧ (y = x ∨ y.setpoint = 0)) ∧
    (x.state = .running → y.state = .running → y = x) ∧ (x.state ≠ .running → y.state = .running → y.trim = 0) ∧
    (x.state = .running → y.state ≠ .running → y.trim = 0) := by
  unfold Feeder.refound
  by_cases open_ : good = true ∧ x.state ≠ .inLocal
  · obtain ⟨rfl, remote⟩ := open_
    cases wanted with
    | true =>
      by_cases running : x.state = .running <;> simp [running, remote, Feeder.entered, Feeder.measured]
    | false =>
      by_cases stopped : x.state = .stopped <;> simp [stopped, remote, Feeder.entered, Feeder.measured]
  · rw [if_neg open_]
    refine ⟨rfl, fun _ => rfl, fun remote on => absurd ⟨on, remote⟩ open_, fun remote on => absurd ⟨on, remote⟩ open_,
      fun _ _ => rfl, fun not is => absurd is not, fun is not => absurd is not⟩

/-- The trim of a control period (R109), with the command of the feeder's state and setpoint (R101). -/
theorem Feeder.updateTrim_shows (x : Feeder) :
    let y := x.updateTrim
    y.measured = x.measured ∧ y.state = x.state ∧ y.setpoint = x.setpoint ∧ y.rampRem = x.rampRem ∧
    (x.state = .running → y.trim = if x.measBad = false ∧ x.ring ≠ [] ∧ x.cfg.gain ≠ 0 then
        max (-200) (min 200 (x.trim + Int.tdiv (((x.setpoint : Int) - x.rate) * 1000 * x.cfg.gain) (x.cfg.maxRate * 100)))
      else x.trim) ∧ (x.state ≠ .running → y.trim = x.trim) := by
  have clamp (i : Int) : clampInt i (-200) 200 = max (-200) (min 200 i) := by
    unfold clampInt
    split <;> [skip; split] <;> omega
  unfold Feeder.updateTrim
  by_cases running : x.state = .running
  · by_cases measured : x.measBad = false ∧ x.ring ≠ [] ∧ x.cfg.gain ≠ 0
    · rw [if_pos ⟨running, measured⟩]
      refine ⟨rfl, rfl, rfl, rfl, fun _ => ?_, fun not => absurd running not⟩
      rw [if_pos measured, ← clamp]
    · rw [if_neg fun h => measured h.2]
      exact ⟨rfl, rfl, rfl, rfl, fun _ => (if_neg measured).symm, fun not => absurd running not⟩
  · rw [if_neg fun h => running h.1]
    exact ⟨rfl, rfl, rfl, rfl, fun is => absurd is running, fun _ => rfl⟩

/-- The commands of a feeder (R101, R109). -/
theorem Feeder.commands_show (x : Feeder) : ((x.commands.1 : Int) = if x.state = .running then
      max 0 (min 1000 ((roundHalfUp (x.setpoint * 1000) x.cfg.maxRate : Nat) + x.trim)) else 0) ∧
    x.commands.2.1 = decide (x.state = .running) ∧ x.commands.2.2 = decide (x.state = .running ∨ x.state = .stopped) := by
  have clamp (i : Int) : ((clampInt i 0 1000).toNat : Int) = max 0 (min 1000 i) := by
    unfold clampInt
    split <;> [skip; split] <;> omega
  unfold Feeder.commands
  refine ⟨?_, rfl, ?_⟩
  · by_cases running : x.state = .running
    · rw [if_pos running, if_pos running, Feeder.speedCommand, clamp]
    · rw [if_neg running, if_neg running]
      rfl
  · cases x.state <;> rfl

/-- The two timers (R112, R113). -/
theorem Feeder.testTimers_show (now : Time) (speed : Nat) (x : Feeder) :
    let y := x.testTimers now speed
    y.measured = x.measured ∧ y.state = x.state ∧ y.setpoint = x.setpoint ∧ y.rampRem = x.rampRem ∧ y.trim = x.trim ∧
    (x.state = .running → x.measBad = false →
      (y.devTimer.isSome = true ↔ x.cfg.deviation < ((x.setpoint : Int) - x.rate).natAbs) ∧ (y.noFlow.isSome = true ↔ 200 ≤ speed)) ∧
    (x.state ≠ .running ∨ x.measBad = true → y.devTimer = none ∧ y.noFlow = none) := by
  have present (t : Option Timer) : (t.or (some ⟨now, false⟩)).isSome = true := by cases t <;> rfl
  unfold Feeder.testTimers
  by_cases tested : x.state = .running ∧ x.measBad = false
  · rw [if_pos tested]
    refine ⟨rfl, rfl, rfl, rfl, rfl, fun _ _ => ⟨?_, ?_⟩, fun not => ?_⟩
    · by_cases apart : x.deviates = true
      · simp only [apart, if_true, present, true_iff]
        exact of_decide_eq_true apart
      · simp only [apart, Bool.false_eq_true, if_false, Option.isSome_none, false_iff]
        exact fun h => apart (decide_eq_true h)
    · by_cases fast : 200 ≤ speed
      · simp only [fast, if_true, present]
      · simp only [fast, if_false, Option.isSome_none, Bool.false_eq_true]
    · rcases not with not | bad
      · exact absurd tested.1 not
      · exact absurd (tested.2.symm.trans bad) nofun
  · rw [if_neg tested]
    exact ⟨rfl, rfl, rfl, rfl, rfl, fun running good => absurd ⟨running, good⟩ tested, fun _ => ⟨rfl, rfl⟩⟩

theorem Feeder.measured_eq {x y : Feeder} (h : x.measured = y.measured) : x.cfg = y.cfg ∧ x.rate = y.rate ∧ x.ring = y.ring ∧
    x.measBad = y.measBad ∧ x.mix = y.mix := by
  have cfg := congrArg Feeder.cfg h
  have rate := congrArg Feeder.rate h
  have ring := congrArg Feeder.ring h
  have measBad := congrArg Feeder.measBad h
  have mix := congrArg Feeder.mix h
  exact ⟨cfg, rate, ring, measBad, mix⟩

/-- What a control period shows of a used feeder: its state, setpoint, ramp remainder, trim, commands c and timers. -/
structure Feeder.Doses (x : Feeder) (goal : Nat) (good wanted : Bool) (y : Feeder) (c : Nat × Bool × Bool) : Prop where
  inLocal : x.state = .inLocal → y.state = .inLocal ∧ y.setpoint = y.rate
  settled : x.state ≠ .inLocal → good = true → (wanted = true → y.state = .running ∧ y.setpoint = x.target goal) ∧
    (wanted = false → y.state = .stopped ∧ y.setpoint = 0)
  unsettled : x.state ≠ .inLocal → good = false → y.state = x.state ∧ y.setpoint = x.target goal
  ramp : x.state = .running → y.state = .running → y.rampRem =
    if (if x.setpoint ≤ goal then goal - x.setpoint else x.setpoint - goal) ≤ (x.rampRem + x.cfg.ramp) / 5 then 0
    else (x.rampRem + x.cfg.ramp) % 5
  trim : y.state = .running → y.trim = if y.measBad = false ∧ y.ring ≠ [] ∧ x.cfg.gain ≠ 0 then
      max (-200) (min 200 ((if x.state = .running then x.trim else 0) +
        Int.tdiv (((y.setpoint : Int) - y.rate) * 1000 * x.cfg.gain) (x.cfg.maxRate * 100)))
    else if x.state = .running then x.trim else 0
  dropped : x.state = .running → y.state ≠ .running → y.trim = 0
  speed : (c.1 : Int) = if y.state = .running then
    max 0 (min 1000 ((roundHalfUp (y.setpoint * 1000) x.cfg.maxRate : Nat) + y.trim)) else 0
  run : c.2.1 = decide (y.state = .running)
  remote : c.2.2 = decide (y.state = .running ∨ y.state = .stopped)
  timers : y.state = .running → y.measBad = false →
    (y.devTimer.isSome = true ↔ x.cfg.deviation < ((y.setpoint : Int) - y.rate).natAbs) ∧ (y.noFlow.isSome = true ↔ 200 ≤ c.1)
  untimed : y.state ≠ .running ∨ y.measBad = true → y.devTimer = none ∧ y.noFlow = none

theorem Feeder.doses (x : Feeder) (goal : Nat) (good wanted : Bool) (now : Time) (used : x.state ≠ .unused) :
    x.Doses goal good wanted ((((x.moveSetpoint goal).refound good wanted).updateTrim).testTimers now
      (((x.moveSetpoint goal).refound good wanted).updateTrim).commands.1)
      (((x.moveSetpoint goal).refound good wanted).updateTrim).commands := by
  obtain ⟨measured, state, trim, own, remote, ramp⟩ := Feeder.moveSetpoint_shows goal used
  obtain ⟨measured', same, wants, stops, stays, fresh, dropped⟩ := Feeder.refound_shows good wanted (x.moveSetpoint goal)
  generalize x.moveSetpoint goal = m at *
  obtain ⟨measured'', state'', setpoint'', rampRem'', trims, untrimmed⟩ := (m.refound good wanted).updateTrim_shows
  generalize m.refound good wanted = r at *
  have read : r.updateTrim.measured = x.measured := measured''.trans (measured'.trans measured)
  generalize r.updateTrim = t at *
  obtain ⟨speed, run, remotes⟩ := t.commands_show
  obtain ⟨measured3, state3, setpoint3, rampRem3, trim3, timers, untimed⟩ := t.testTimers_show now t.commands.1
  obtain ⟨cfg, rate, ring, bad, -⟩ := Feeder.measured_eq (measured3.trans read)
  generalize t.testTimers now t.commands.1 = y at *
  obtain ⟨cfgT, rateT, ringT, badT, -⟩ := Feeder.measured_eq read
  obtain ⟨cfgR, rateR, ringR, badR, -⟩ := Feeder.measured_eq (measured'.trans measured)
  rw [state''] at state3
  rw [setpoint''] at setpoint3
  rw [rampRem''] at rampRem3
  have before : r.state = .running → r.trim = if x.state = .running then x.trim else 0 := fun runs => by
    by_cases was : x.state = .running
    · rw [if_pos was, stays (state.trans was) runs, trim]
    · rw [if_neg was, fresh (by rw [state]; exact was) runs]
  refine ⟨fun here => ?_, fun away on => ⟨fun wanted => ?_, fun not => ?_⟩, fun away off => ?_, fun was runs => ?_, fun runs => ?_,
    fun was out => ?_, ?_, ?_, ?_, fun runs good => ?_, fun out => ?_⟩
  · have kept := same (.inl (state.trans here))
    exact ⟨by rw [state3, kept, state, here], by rw [setpoint3, kept, own here, rate]⟩
  · obtain ⟨runs, goes⟩ := wants (by rw [state]; exact away) on wanted
    exact ⟨state3.trans runs, by rw [setpoint3, goes, remote away]⟩
  · obtain ⟨stopped, kept | zero⟩ := stops (by rw [state]; exact away) on not
    · have was : x.state = .stopped := by rw [← state, ← kept]; exact stopped
      exact ⟨state3.trans stopped, by rw [setpoint3, kept, remote away, Feeder.target, if_pos (by rw [was]; nofun)]⟩
    · exact ⟨state3.trans stopped, setpoint3.trans zero⟩
  · have kept := same (.inr off)
    exact ⟨by rw [state3, kept, state], by rw [setpoint3, kept, remote away]⟩
  · rw [rampRem3, stays (state.trans was) (state3.symm.trans runs), ramp was]
  · have runs' := state3.symm.trans runs
    rw [trim3, trims runs', before runs', setpoint3, rate, ring, bad, cfgR, rateR, ringR, badR]
  · have out' : r.state ≠ .running := by rw [← state3]; exact out
    rw [trim3, untrimmed out', dropped (state.trans was) out']
  · rw [speed, cfgT, setpoint'', state'', state3, setpoint3, trim3]
  · rw [run, state'', state3]
  · rw [remotes, state'', state3]
  · have runs' : t.state = .running := state''.trans (state3.symm.trans runs)
    have found := timers runs' (by rw [badT, ← bad]; exact good)
    rwa [cfgT, setpoint'', rateT, ← setpoint3, ← rate] at found
  · refine untimed (out.imp (fun not => ?_) fun b => ?_)
    · rw [state'', ← state3]
      exact not
    · rw [badT, ← bad]
      exact b

end

/-! ## The allocation -/

/-- An evaluation leaves the delivered heat of the last control period. -/
theorem Part.evaluated_delivered (p : Part) : p.evaluated.delivered = p.alloc.delivered ∧
    p.evaluated.deliveredB = p.alloc.deliveredB := by
  have demand (a : Alloc) : (p.stageDemand a).delivered = a.delivered ∧ (p.stageDemand a).deliveredB = a.deliveredB := by
    unfold Part.stageDemand
    split <;> exact ⟨rfl, rfl⟩
  have ceiling (a : Alloc) : (p.stageCeiling a).delivered = a.delivered ∧ (p.stageCeiling a).deliveredB = a.deliveredB := by
    unfold Part.stageCeiling
    repeat' split
    all_goals exact ⟨rfl, rfl⟩
  obtain ⟨delivered, deliveredB⟩ := demand p.alloc
  obtain ⟨delivered', deliveredB'⟩ := ceiling (p.stageDemand p.alloc)
  have rest (a : Alloc) : (p.stageSplit (p.stageTarget (p.stageCapacity a.stageEffective))).delivered = a.delivered ∧
      (p.stageSplit (p.stageTarget (p.stageCapacity a.stageEffective))).deliveredB = a.deliveredB := ⟨rfl, rfl⟩
  obtain ⟨delivered'', deliveredB''⟩ := rest (p.stageCeiling (p.stageDemand p.alloc))
  rw [Part.evaluated, delivered'', deliveredB'', delivered', deliveredB', delivered, deliveredB]
  exact ⟨rfl, rfl⟩

theorem Part.settle_delivered (p : Part) : p.settle.alloc.delivered = p.alloc.delivered ∧
    p.settle.alloc.deliveredB = p.alloc.deliveredB := by
  have served := p.serviceAll_frame.alloc_eq
  obtain ⟨z, frozen⟩ := p.serviceAll.freezeAll_alloc
  have quiet := (Part.settleQuiet_frame (p.serviceAll.freezeAll.evaluate)).alloc_eq
  rw [p.settle_eq, quiet]
  have stages (q : Part) : q.evaluate.alloc.delivered = q.alloc.delivered ∧ q.evaluate.alloc.deliveredB = q.alloc.deliveredB :=
    ite_keeps (I := fun t : Part => t.alloc.delivered = q.alloc.delivered ∧ t.alloc.deliveredB = q.alloc.deliveredB)
      (fun _ => q.evaluated_delivered) fun _ => ⟨rfl, rfl⟩
  obtain ⟨delivered, deliveredB⟩ := stages p.serviceAll.freezeAll
  rw [delivered, deliveredB, frozen, served]
  exact ⟨rfl, rfl⟩

/-! ## The control period, step by step (R107) -/

/-- The next period set and, at a second boundary, the second passed (step 1). -/
def Part.periodBegun (t : Time) (p : Part) : Part :=
  if t % second = 0 then ({ p with nextFeeder := nextMultiple t feederPeriod }).stationSecond
  else { p with nextFeeder := nextMultiple t feederPeriod }

theorem Part.controlPeriod_eq (t : Time) (p : Part) : p.controlPeriod t = (((p.periodBegun t).dose).deliverHeat).ended.settle := rfl

section
variable {p : Part} {f : Fin 6} {t : Time}

theorem Part.periodBegun_frame (t : Time) (p : Part) :
    ChangesOnly ({.feederClock, .record} ∪ Set.range .feeder ∪ Set.range .drive) p (p.periodBegun t) := by
  have set : ChangesOnly {.feederClock} p { p with nextFeeder := nextMultiple t feederPeriod } := by
    refine ⟨fun x hx => ?_⟩; cases x <;> simp_all [Block.Same]
  have passed := Part.stationSecond_frame { p with nextFeeder := nextMultiple t feederPeriod }
  refine .ite ((set.andThen passed).mono fun x hx => ?_) (set.mono fun x hx => ?_)
  · simp at hx ⊢
    tauto
  · exact .inl (.inl (.inl hx))

theorem Part.periodBegun_feeder (t : Time) (f : Fin 6) (p : Part) : (p.periodBegun t).feeders[f] =
    if t % 1000 = 0 ∧ p.feeders[f].cfg.used = true then p.feeders[f].second (p.runs f) (p.cvOf f) else p.feeders[f] := by
  unfold Part.periodBegun
  by_cases boundary : t % second = 0
  · have passed := Part.stationSecond_feeder f { p with nextFeeder := nextMultiple t feederPeriod }
    rw [if_pos boundary, passed]
    have boundary' : t % 1000 = 0 := boundary
    simp only [boundary', true_and]
    rfl
  · rw [if_neg boundary, if_neg fun h => boundary h.1]

/-- What the second leaves of a feeder's drive and configuration. -/
theorem Part.periodBegun_same (t : Time) (f : Fin 6) (p : Part) :
    let y := (p.periodBegun t).feeders[f]
    y.cfg = p.feeders[f].cfg ∧ y.mix = p.feeders[f].mix ∧ y.state = p.feeders[f].state ∧ y.setpoint = p.feeders[f].setpoint ∧
    y.rampRem = p.feeders[f].rampRem ∧ y.trim = p.feeders[f].trim := by
  rw [p.periodBegun_feeder t f]
  split
  · exact Feeder.second_same _ _ _
  · exact ⟨rfl, rfl, rfl, rfl, rfl, rfl⟩

/-- A state found again is the one R100 gives, for its setpoint as it is then. -/
theorem Feeder.refound_found {x y : Feeder} {b : Burner} (away : y.state ≠ .inLocal)
    (state : y.state = (x.refound true (x.wantedBy f b)).state) (setpoint : y.setpoint = (x.refound true (x.wantedBy f b)).setpoint)
    (mix : y.mix = x.mix) : (y.wantedBy f b = true → y.state = .running) ∧ (y.wantedBy f b = false → y.state = .stopped) := by
  obtain ⟨-, same, wants, stops, -, -, -⟩ := Feeder.refound_shows true (x.wantedBy f b) x
  have remote : x.state ≠ .inLocal := fun here => away (by rw [state, same (.inl here), here])
  cases wanted : x.wantedBy f b with
  | true =>
    obtain ⟨runs, goes⟩ := wants remote rfl wanted
    have still : y.wantedBy f b = true := (Feeder.wantedBy_congr (setpoint.trans goes) fun _ => mix).trans wanted
    exact ⟨fun _ => state.trans runs, fun not => absurd (still.symm.trans not) nofun⟩
  | false =>
    obtain ⟨stopped, kept | zero⟩ := stops remote rfl wanted
    · have still : y.wantedBy f b = false :=
        (Feeder.wantedBy_congr (setpoint.trans (by rw [kept])) fun _ => mix).trans wanted
      exact ⟨fun is => absurd (still.symm.trans is) nofun, fun _ => state.trans stopped⟩
    · have still : y.wantedBy f b = false := by
        unfold Feeder.wantedBy at wanted ⊢
        rw [mix, setpoint.trans zero]
        cases e : b.state <;> rw [e] at wanted <;> simp_all
      exact ⟨fun is => absurd (still.symm.trans is) nofun, fun _ => state.trans stopped⟩

theorem Part.dose_found (started : p.started = true) (f : Fin 6) : p.dose.Found f := by
  have frame := p.dose_frame
  have measured : p.dose.feeders[f].measured = p.feeders[f].measured := frame.same (.feeder f) (by simp)
  have cfg := (Feeder.measured_eq measured).1
  have image : p.dose.field.image = p.field.image := frame.same .image (by simp)
  have burners (c : Fin 2) := frame.burner_eq c
  intro _ used good away
  rw [cfg] at used
  have feeder : p.dose.feeders[f] = (p.dosed f).testTimers p.now (p.dosed f).commands.1 :=
    congrArg Prod.fst (p.dose_driven started used)
  have input : p.inputGood f = true := by rw [Part.inputGood, ← image]; exact good
  have goal := p.feeders[f].moveSetpoint_measured p.alloc.massF[f]
  obtain ⟨-, state, setpoint, -⟩ := (p.dosed f).testTimers_show p.now (p.dosed f).commands.1
  obtain ⟨-, state', setpoint', -⟩ := Feeder.updateTrim_shows ((p.feeders[f].moveSetpoint p.alloc.massF[f]).refound (p.inputGood f)
    ((p.feeders[f].moveSetpoint p.alloc.massF[f]).wantedBy f p.burners[p.feeders[f].cfg.burner]))
  rw [input] at state' setpoint'
  have dosed : p.dosed f = ((p.feeders[f].moveSetpoint p.alloc.massF[f]).refound true
    ((p.feeders[f].moveSetpoint p.alloc.massF[f]).wantedBy f p.burners[p.feeders[f].cfg.burner])).updateTrim := by
    rw [Part.dosed, input]
  have mix := (Feeder.measured_eq (measured.trans goal.symm)).2.2.2.2
  rw [Part.wanted_eq]
  simp only [cfg, burners]
  refine Feeder.refound_found away ?_ ?_ mix
  · rw [feeder, state, dosed, state']
  · rw [feeder, setpoint, dosed, setpoint']

theorem Part.Found.heated {d : Part} (h : d.Found f) : d.deliverHeat.Found f := h

/-- What the ends of LOADING and STOPPING and the end of the event leave of the doses d that a control period has set. -/
structure PeriodEnds (d q : Part) : Prop where
  gauges : ∀ f : Fin 6, q.feeders[f].gauged = d.feeders[f].gauged
  commands : ∀ f : Fin 6, q.commands f = d.commands f
  ramp : ∀ f : Fin 6, d.burners[d.feeders[f].cfg.burner].state ≠ .stopping → q.feeders[f].rampRem = d.feeders[f].rampRem
  delivered : q.alloc.delivered = d.deliverHeat.alloc.delivered
  fires : ∀ b : Fin 2, d.burners[b].state = .loading → d.alloc.targetB[b] * 9 ≤ q.alloc.deliveredB[b] * 10 →
    q.burners[b].state = .firing ∧ ¬ q.holdsFor 0 b.val
  loads : ∀ b : Fin 2, d.burners[b].state = .loading → q.alloc.deliveredB[b] * 10 < d.alloc.targetB[b] * 9 →
    q.burners[b] = d.burners[b]
  stops : ∀ b : Fin 2, d.burners[b].state = .stopping → q.Emptied b → q.burners[b] = d.burners[b].cleared .off
  goes : ∀ b : Fin 2, d.burners[b].state = .stopping → ¬ q.Emptied b → q.burners[b] = d.burners[b]
  other : ∀ b : Fin 2, d.burners[b].state ≠ .loading → d.burners[b].state ≠ .stopping → q.burners[b] = d.burners[b]

theorem Part.period_ends {d : Part} (found : ∀ f : Fin 6, d.Found f) : PeriodEnds d d.deliverHeat.ended.settle := by
  have heated (f : Fin 6) := (found f).heated
  have feeders : d.deliverHeat.feeders = d.feeders := rfl
  have outputs (f : Fin 6) : d.deliverHeat.commands f = d.commands f := rfl
  have burners : d.deliverHeat.burners = d.burners := rfl
  have target : d.deliverHeat.alloc.targetB = d.alloc.targetB := rfl
  generalize heat : d.deliverHeat = h at *
  have kept := h.ended_keeps heated
  have ends (b : Fin 2) := Part.ended_burner heated b
  generalize h.ended = e at *
  have settled := e.settle_frame
  obtain ⟨delivered, deliveredB⟩ := e.settle_delivered
  have quits : Quits 0 e e.settle := (quits_carries 0).settle e
  generalize e.settle = q at *
  have feeder (f : Fin 6) := settled.feeder_eq f
  have burner (b : Fin 2) := settled.burner_eq b
  have gauges (f : Fin 6) : q.feeders[f].gauged = h.feeders[f].gauged := by
    rw [feeder]
    exact kept.gauges f
  have empty (b : Fin 2) : q.Emptied b ↔ h.Emptied b := by
    refine Iff.trans ?_ (kept.emptied b)
    have of : q.feedersOf b = e.feedersOf b := Part.feedersOf_congr (fun f => by rw [feeder]; exact ⟨rfl, rfl⟩) b
    unfold Part.Emptied
    rw [of]
    exact forall_congr' fun f => by rw [feeder]
  rw [kept.alloc] at delivered deliveredB
  refine ⟨fun f => by rw [gauges, feeders], fun f => ?_, fun f going => ?_, by rw [heat]; exact delivered, fun b => ?_, fun b => ?_, fun b => ?_, fun b => ?_,
    fun b => ?_⟩
  · exact ((settled.commands_eq f).trans (kept.commands f)).trans (outputs f)
  · rw [feeder, kept.ramp f (by rw [burners]; simp only [feeders]; exact going), feeders]
  all_goals rw [← burners, burner]
  · rw [deliveredB, ← target]
    exact fun loading enough => ((ends b).1 loading enough).imp id quits.holdsNot
  · rw [deliveredB, ← target]
    exact (ends b).2.1
  · rw [empty]
    exact (ends b).2.2.1
  · rw [empty]
    exact (ends b).2.2.2.1
  · exact (ends b).2.2.2.2

theorem Part.periodBegun_next (t : Time) (p : Part) : (p.periodBegun t).nextFeeder = nextMultiple t 200 := by
  have kept := (Part.stationSecond_frame { p with nextFeeder := nextMultiple t feederPeriod }).same .feederClock (by simp)
  exact ite_keeps (I := fun q : Part => q.nextFeeder = nextMultiple t 200) (fun _ => kept) fun _ => rfl

/-- The meters of a feeder when its drive, then its mix and its ramp remainder, have moved. -/
theorem Feeder.metered {x y z : Feeder} (h : x.gauged = y.gauged) (g : y.measured = z.measured) : x.kg = z.kg ∧ x.gramRem = z.gramRem ∧
    x.kWh = z.kWh ∧ x.energyRem = z.energyRem ∧ x.seconds = z.seconds ∧ x.bucket = z.bucket ∧ x.whole = z.whole ∧
    x.ring = z.ring ∧ x.measBad = z.measBad ∧ x.rate = z.rate ∧ x.cfg = z.cfg := by
  have first : x.gauged.measured = y.gauged.measured := congrArg Feeder.measured h
  have second : y.gauged.measured = z.gauged.measured := congrArg (fun v : Feeder => { v with mix := 0 }) g
  have all := first.trans second
  have kg := congrArg Feeder.kg all
  have gramRem := congrArg Feeder.gramRem all
  have kWh := congrArg Feeder.kWh all
  have energyRem := congrArg Feeder.energyRem all
  have seconds := congrArg Feeder.seconds all
  have bucket := congrArg Feeder.bucket all
  have whole := congrArg Feeder.whole all
  have ring := congrArg Feeder.ring all
  have measBad := congrArg Feeder.measBad all
  have rate := congrArg Feeder.rate all
  have cfg := congrArg Feeder.cfg all
  exact ⟨kg, gramRem, kWh, energyRem, seconds, bucket, whole, ring, measBad, rate, cfg⟩

/-- A control period (R107): what it begins with, what it doses, what it ends. -/
theorem Part.controlPeriod_ends (t : Time) (started : p.started = true) :
    PeriodEnds (p.periodBegun t).dose (p.controlPeriod t) := by
  rw [p.controlPeriod_eq t]
  exact Part.period_ends (Part.dose_found ((p.periodBegun_frame t).started_eq.trans started))

/-- The meters of every feeder after a control period, from those at its beginning. -/
theorem Part.controlPeriod_meters (t : Time) (started : p.started = true) (f : Fin 6) :
    let y := (p.controlPeriod t).feeders[f]
    let x := (p.periodBegun t).feeders[f]
    y.kg = x.kg ∧ y.gramRem = x.gramRem ∧ y.kWh = x.kWh ∧ y.energyRem = x.energyRem ∧ y.seconds = x.seconds ∧ y.bucket = x.bucket ∧
    y.whole = x.whole ∧ y.ring = x.ring ∧ y.measBad = x.measBad ∧ y.rate = x.rate ∧ y.cfg = x.cfg :=
  Feeder.metered ((Part.controlPeriod_ends t started).gauges f) ((p.periodBegun t).dose_frame.same (.feeder f) (by simp))

theorem Part.runs_iff (f : Fin 6) (p : Part) : p.runs f = true ↔ p.feeders[f].state = .running ∨
    (p.feeders[f].state = .inLocal ∧ p.field.image.running[f] = ⟨true, true⟩) := by
  unfold Part.runs
  cases p.field.image.running[f] with
  | mk value valid => cases value <;> cases valid <;> simp

/-- The totals of a second (R103 to R106). -/
theorem Part.controlPeriod_totals (t : Time) (started : p.started = true) (f : Fin 6) :
    let x := p.feeders[f]
    let y := (p.controlPeriod t).feeders[f]
    let runs := x.state = .running ∨ (x.state = .inLocal ∧ p.field.image.running[f] = ⟨true, true⟩)
    let ring := (x.ring ++ [x.bucket]).drop ((x.ring ++ [x.bucket]).length - x.cfg.window)
    (t % 1000 = 0 → x.cfg.used = true →
      y.kg = x.kg + BitVec.ofNat 32 ((x.gramRem + x.bucket * x.cfg.weight) / 1000) ∧
      y.gramRem = (x.gramRem + x.bucket * x.cfg.weight) % 1000 ∧
      y.kWh = x.kWh + BitVec.ofNat 32 ((x.energyRem + x.bucket * x.cfg.weight * p.cvOf f) / 3600000) ∧
      y.energyRem = (x.energyRem + x.bucket * x.cfg.weight * p.cvOf f) % 3600000 ∧
      (runs → y.seconds = x.seconds + 1) ∧ (¬ runs → y.seconds = x.seconds) ∧ y.bucket = 0 ∧ y.whole = true ∧
      (x.whole = true → y.ring = ring ∧ y.measBad = false ∧ y.rate = ringRate ring x.cfg.weight) ∧
      (x.whole = false → y.ring = x.ring ∧ y.measBad = x.measBad ∧ y.rate = x.rate)) ∧
    (t % 1000 ≠ 0 ∨ x.cfg.used = false →
      y.kg = x.kg ∧ y.kWh = x.kWh ∧ y.seconds = x.seconds ∧ y.bucket = x.bucket ∧ y.ring = x.ring ∧ y.rate = x.rate) := by
  obtain ⟨kg, gramRem, kWh, energyRem, seconds, bucket, whole, ring, measBad, rate, -⟩ := Part.controlPeriod_meters t started f
  have begun := p.periodBegun_feeder t f
  dsimp only
  rw [kg, gramRem, kWh, energyRem, seconds, bucket, whole, ring, measBad, rate, begun]
  refine ⟨fun boundary used => ?_, fun not => ?_⟩
  · obtain ⟨kg, gramRem, kWh, energyRem, counts, stays, rest⟩ := Feeder.second_shows (p.runs f) (p.cvOf f) p.feeders[f]
    rw [if_pos ⟨boundary, used⟩, ← p.runs_iff f]
    exact ⟨kg, gramRem, kWh, energyRem, counts, fun off => stays (Bool.eq_false_iff.2 off), rest⟩
  · have apart : ¬ (t % 1000 = 0 ∧ p.feeders[f].cfg.used = true) := fun ⟨boundary, used⟩ =>
      not.elim (fun h => h boundary) fun h => absurd (h.symm.trans used) nofun
    rw [if_neg apart]
    exact ⟨rfl, rfl, rfl, rfl, rfl, rfl⟩

theorem Feeder.gauged_all {x y : Feeder} (h : x.gauged = y.gauged) : x.state = y.state ∧ x.setpoint = y.setpoint ∧ x.trim = y.trim ∧
    x.rate = y.rate ∧ x.ring = y.ring ∧ x.measBad = y.measBad ∧ x.devTimer = y.devTimer ∧ x.noFlow = y.noFlow := by
  have state := congrArg Feeder.state h
  have setpoint := congrArg Feeder.setpoint h
  have trim := congrArg Feeder.trim h
  have rate := congrArg Feeder.rate h
  have ring := congrArg Feeder.ring h
  have measBad := congrArg Feeder.measBad h
  have devTimer := congrArg Feeder.devTimer h
  have noFlow := congrArg Feeder.noFlow h
  exact ⟨state, setpoint, trim, rate, ring, measBad, devTimer, noFlow⟩

/-- The doses of a feeder depend on its configuration, state, setpoint, ramp remainder and trim alone. -/
theorem Feeder.Doses.of_same {x z y : Feeder} {goal : Nat} {good wanted : Bool} {c : Nat × Bool × Bool} (h : x.Doses goal good wanted y c)
    (cfg : x.cfg = z.cfg) (state : x.state = z.state) (setpoint : x.setpoint = z.setpoint) (rampRem : x.rampRem = z.rampRem)
    (trim : x.trim = z.trim) : z.Doses goal good wanted y c := by
  have target : x.target goal = z.target goal := by
    unfold Feeder.target
    rw [cfg, state, setpoint, rampRem]
  obtain ⟨inLocal, settled, unsettled, ramp, trims, dropped, speed, run, remote, timers, untimed⟩ := h
  rw [target, state] at settled unsettled
  rw [state] at inLocal ramp dropped
  rw [setpoint, rampRem, cfg] at ramp
  rw [cfg] at speed timers
  rw [state, cfg, trim] at trims
  exact ⟨inLocal, settled, unsettled, ramp, trims, dropped, speed, run, remote, timers, untimed⟩

/-- The doses of a used feeder of a STARTED station (R107 to R113). -/
theorem Part.dose_doses (t : Time) (started : p.started = true) (used : p.feeders[f].cfg.used = true)
    (open_ : p.feeders[f].state ≠ .unused) : ∃ w : Bool,
      p.feeders[f].Doses p.alloc.massF[f] (p.inputGood f) w (p.periodBegun t).dose.feeders[f] ((p.periodBegun t).dose.commands f) ∧
      (p.feeders[f].state ≠ .inLocal → w = ({ p.feeders[f] with setpoint := p.feeders[f].target p.alloc.massF[f] }).wantedBy f
        p.burners[p.feeders[f].cfg.burner]) := by
  have begun := p.periodBegun_frame t
  obtain ⟨cfg, mix, state, setpoint, rampRem, trim⟩ := p.periodBegun_same t f
  have alloc := begun.alloc_eq
  have image : (p.periodBegun t).field.image = p.field.image := begun.same .image (by simp)
  have burners (c : Fin 2) := begun.burner_eq c
  have driven := (p.periodBegun t).dose_driven (begun.started_eq.trans started) (f := f) (by rw [cfg]; exact used)
  have feeder := congrArg Prod.fst driven
  have commands := congrArg Prod.snd driven
  have input : (p.periodBegun t).inputGood f = p.inputGood f := by rw [Part.inputGood, image, Part.inputGood]
  generalize p.periodBegun t = b at *
  have dosed : b.dosed f = ((b.feeders[f].moveSetpoint p.alloc.massF[f]).refound (p.inputGood f)
      ((b.feeders[f].moveSetpoint p.alloc.massF[f]).wantedBy f p.burners[p.feeders[f].cfg.burner])).updateTrim := by
    unfold Part.dosed
    simp only [alloc, input, cfg, burners]
  have doses := b.feeders[f].doses p.alloc.massF[f] (p.inputGood f)
    ((b.feeders[f].moveSetpoint p.alloc.massF[f]).wantedBy f p.burners[p.feeders[f].cfg.burner]) b.now (by rw [state]; exact open_)
  rw [← dosed] at doses
  refine ⟨(b.feeders[f].moveSetpoint p.alloc.massF[f]).wantedBy f p.burners[p.feeders[f].cfg.burner], ?_, fun remote => ?_⟩
  · have all := doses.of_same cfg state setpoint rampRem trim
    rw [show b.dose.feeders[f] = (b.dosed f).testTimers b.now (b.dosed f).commands.1 from feeder,
      show b.dose.commands f = (b.dosed f).commands from commands]
    exact all
  · obtain ⟨measured, -, -, -, moved, -⟩ := Feeder.moveSetpoint_shows (x := b.feeders[f]) p.alloc.massF[f] (by rw [state]; exact open_)
    have goes := moved (by rw [state]; exact remote)
    have mixed := (Feeder.measured_eq measured).2.2.2.2
    refine Feeder.wantedBy_congr (goes.trans ?_) fun _ => mixed.trans mix
    unfold Feeder.target
    rw [state, setpoint, rampRem, cfg]

theorem Part.inputGood_iff : p.inputGood f = true ↔ p.field.image.inLocal[f] = ⟨false, true⟩ := by
  unfold Part.inputGood
  cases p.field.image.inLocal[f] with
  | mk value valid => cases value <;> cases valid <;> simp

theorem Feeder.wantedBy_iff (b : Burner) (x : Feeder) : x.wantedBy f b = true ↔ (b.state = .igniting ∧ b.cfg.feeder = f) ∨
    ((b.state = .loading ∨ b.state = .firing) ∧ (0 < x.mix ∨ 0 < x.setpoint)) ∨ (b.state = .stopping ∧ 0 < x.setpoint) := by
  unfold Feeder.wantedBy
  cases b.state <;> simp

end

theorem Part.controlPeriod_delivered {p : Part} (t : Time) (started : p.started = true) :
    (p.controlPeriod t).alloc.delivered = min 65535
      ((2 * ((feederIds.filter fun f => p.feeders[f].cfg.used).map fun f =>
        (p.controlPeriod t).feeders[f].rate * (p.controlPeriod t).cvOf f).sum + 36000) / 72000) := by
  have ends := Part.controlPeriod_ends t started
  have fuel : (p.controlPeriod t).fuel = (p.periodBegun t).dose.fuel := by
    rw [Part.controlPeriod_fuel, (p.periodBegun t).dose_frame.fuel_eq, (p.periodBegun_frame t).fuel_eq]
  have cfgs (f : Fin 6) : (p.periodBegun t).dose.feeders[f].cfg = p.feeders[f].cfg :=
    ((Feeder.measured_eq ((p.periodBegun t).dose_frame.same (.feeder f) (by simp))).1).trans (p.periodBegun_same t f).1
  rw [ends.delivered]
  generalize p.controlPeriod t = q at *
  generalize (p.periodBegun t).dose = d at *
  have rates (f : Fin 6) : d.feeders[f].rate * d.cvOf f = q.feeders[f].rate * q.cvOf f := by
    obtain ⟨-, -, -, rate, -⟩ := Feeder.gauged_all (ends.gauges f)
    obtain ⟨cfg, -, -⟩ := Feeder.gauged_eq (ends.gauges f)
    unfold Part.cvOf
    simp only [rate, cfg, fuel]
  have used : (feederIds.filter fun f => d.feeders[f].cfg.used) = feederIds.filter fun f => p.feeders[f].cfg.used :=
    List.filter_congr fun f _ => by rw [cfgs]
  have heat : d.deliverHeat.alloc.delivered = d.deliveredOver (feederIds.filter fun f => d.feeders[f].cfg.used) := rfl
  rw [heat, used, Part.deliveredOver, sumOver_congr fun f _ => rates f, sumOver_eq_sum, satAt_eq_min, roundHalfUp]

/-- The doses of a feeder at the end of its control period's row (R107 to R113). -/
theorem Part.controlPeriod_feeder {p : Part} {f : Fin 6} (t : Time) (started : p.started = true) (used : p.feeders[f].cfg.used = true)
    (open_ : p.feeders[f].state ≠ .unused) :
    let q := p.controlPeriod t
    let x := p.feeders[f]
    let y := q.feeders[f]
    let b := p.burners[x.cfg.burner]
    let target := p.alloc.massF[f]
    let apart := if x.setpoint ≤ target then target - x.setpoint else x.setpoint - target
    let step := (x.rampRem + x.cfg.ramp) / 5
    let moved := if x.state ≠ .running then 0 else if apart ≤ step then target
      else if x.setpoint < target then x.setpoint + step else x.setpoint - step
    let wanted := (b.state = .igniting ∧ b.cfg.feeder = f) ∨
      ((b.state = .loading ∨ b.state = .firing) ∧ (0 < x.mix ∨ 0 < moved)) ∨ (b.state = .stopping ∧ 0 < moved)
    let before := if x.state = .running then x.trim else 0
    (x.state = .inLocal → y.state = .inLocal ∧ y.setpoint = y.rate) ∧
    (x.state ≠ .inLocal → p.field.image.inLocal[f] = ⟨false, true⟩ →
      (wanted → y.state = .running ∧ y.setpoint = moved) ∧ (¬ wanted → y.state = .stopped ∧ y.setpoint = 0)) ∧
    (x.state ≠ .inLocal → p.field.image.inLocal[f] ≠ ⟨false, true⟩ → y.state = x.state ∧ y.setpoint = moved) ∧
    (x.state = .running → y.state = .running → b.state ≠ .stopping →
      y.rampRem = if apart ≤ step then 0 else (x.rampRem + x.cfg.ramp) % 5) ∧
    (y.state = .running → y.trim =
      if y.measBad = false ∧ y.ring ≠ [] ∧ x.cfg.gain ≠ 0 then
        max (-200) (min 200 (before +
          Int.tdiv (((y.setpoint : Int) - y.rate) * 1000 * x.cfg.gain) (x.cfg.maxRate * 100)))
      else before) ∧
    (x.state = .running → y.state ≠ .running → y.trim = 0) ∧
    ((q.field.output.speed[f] : Int) = if y.state = .running then
        max 0 (min 1000 ((roundHalfUp (y.setpoint * 1000) x.cfg.maxRate : Nat) + y.trim)) else 0) ∧
    q.field.output.run[f] = decide (y.state = .running) ∧
    q.field.output.remote[f] = decide (y.state = .running ∨ y.state = .stopped) ∧
    (y.state = .running → y.measBad = false →
      (y.devTimer.isSome = true ↔ x.cfg.deviation < ((y.setpoint : Int) - y.rate).natAbs) ∧
      (y.noFlow.isSome = true ↔ 200 ≤ q.field.output.speed[f])) ∧
    (y.state ≠ .running ∨ y.measBad = true → y.devTimer = none ∧ y.noFlow = none) := by
  obtain ⟨w, doses, wants⟩ := Part.dose_doses t started used open_
  have ends := Part.controlPeriod_ends t started
  have cfg : (p.periodBegun t).dose.feeders[f].cfg = p.feeders[f].cfg :=
    ((Feeder.measured_eq ((p.periodBegun t).dose_frame.same (.feeder f) (by simp))).1).trans (p.periodBegun_same t f).1
  have burners (b : Fin 2) : (p.periodBegun t).dose.burners[b] = p.burners[b] :=
    ((p.periodBegun t).dose_frame.burner_eq b).trans ((p.periodBegun_frame t).burner_eq b)
  generalize p.controlPeriod t = q at *
  generalize (p.periodBegun t).dose = d at *
  obtain ⟨state, setpoint, trim, rate, ring, measBad, devTimer, noFlow⟩ := Feeder.gauged_all (ends.gauges f)
  have commands := ends.commands f
  have ramp : p.burners[p.feeders[f].cfg.burner].state ≠ .stopping → q.feeders[f].rampRem = d.feeders[f].rampRem := fun going =>
    ends.ramp f (by simp only [burners, cfg]; exact going)
  have speed := congrArg Prod.fst commands
  have run := congrArg (fun c => c.2.1) commands
  have remote := congrArg (fun c => c.2.2) commands
  replace speed : q.field.output.speed[f] = (d.commands f).1 := speed
  replace run : q.field.output.run[f] = (d.commands f).2.1 := run
  replace remote : q.field.output.remote[f] = (d.commands f).2.2 := remote
  dsimp only
  rw [state, setpoint, trim, rate, ring, measBad, devTimer, noFlow, speed, run, remote]
  obtain ⟨inLocal, settled, unsettled, ramps, trims, dropped, speeds, runs, remotes, timers, untimed⟩ := doses
  refine ⟨inLocal, fun away good => ?_, fun away bad => ?_, fun was is going => (ramp going).trans (ramps was is), trims, dropped,
    speeds, runs, remotes, timers, untimed⟩
  · obtain ⟨on, off⟩ := settled away (Part.inputGood_iff.2 good)
    have asked := Feeder.wantedBy_iff (f := f) p.burners[p.feeders[f].cfg.burner]
      { p.feeders[f] with setpoint := p.feeders[f].target p.alloc.massF[f] }
    rw [← wants away] at asked
    exact ⟨fun wanted => on (asked.2 wanted), fun not => off (Bool.eq_false_iff.2 fun is => not (asked.1 is))⟩
  · exact unsettled away (Bool.eq_false_iff.2 fun good => bad (Part.inputGood_iff.1 good))

/-- Each burner at the end of a control period's row (R83, R87). -/
theorem Part.controlPeriod_burner {p : Part} (t : Time) (started : p.started = true) (b : Fin 2) :
    let q := p.controlPeriod t
    (p.burners[b].state = .loading → p.alloc.targetB[b] * 9 ≤ q.alloc.deliveredB[b] * 10 →
      q.burners[b].state = .firing ∧ ¬ q.holdsFor 0 b.val) ∧
    (p.burners[b].state = .loading → q.alloc.deliveredB[b] * 10 < p.alloc.targetB[b] * 9 → q.burners[b].state = .loading) ∧
    (p.burners[b].state = .stopping →
      ((∀ f ∈ p.feedersOf b, q.feeders[f].state = .inLocal ∨ q.feeders[f].setpoint = 0) →
        q.burners[b] = p.burners[b].cleared .off) ∧
      ((∃ f ∈ p.feedersOf b, q.feeders[f].state ≠ .inLocal ∧ q.feeders[f].setpoint ≠ 0) → q.burners[b] = p.burners[b])) ∧
    (p.burners[b].state ≠ .loading → p.burners[b].state ≠ .stopping → q.burners[b] = p.burners[b]) := by
  have ends := Part.controlPeriod_ends t started
  have both := (p.periodBegun_frame t).andThen (p.periodBegun t).dose_frame
  have cfg (f : Fin 6) : (p.periodBegun t).dose.feeders[f].cfg = p.feeders[f].cfg :=
    ((Feeder.measured_eq ((p.periodBegun t).dose_frame.same (.feeder f) (by simp))).1).trans (p.periodBegun_same t f).1
  have alloc := both.alloc_eq
  have burner := both.burner_eq b
  generalize p.controlPeriod t = q at *
  generalize (p.periodBegun t).dose = d at *
  have of : q.feedersOf b = p.feedersOf b := Part.feedersOf_congr (fun f => by
    obtain ⟨same, -, -⟩ := Feeder.gauged_eq (ends.gauges f)
    rw [same, cfg]
    exact ⟨rfl, rfl⟩) b
  obtain ⟨-, -, -, -, fires, loads, stops, goes, other⟩ := ends
  have fires := fires b
  have loads := loads b
  have stops := stops b
  have goes := goes b
  have other := other b
  rw [burner] at fires loads stops goes other
  rw [alloc] at fires loads
  unfold Part.Emptied at stops goes
  rw [of] at stops goes
  refine ⟨fires, fun loading less => (congrArg Burner.state (loads loading less)).trans loading,
    fun stopping => ⟨stops stopping, fun ⟨f, mem, away, full⟩ => goes stopping fun all => ?_⟩, other⟩
  exact (all f mem).elim away full

theorem Part.ended_frame (p : Part) : ChangesOnly (burnerBlocks 0 ∪ burnerBlocks 1) p p.ended :=
  ChangesOnly.trans (.forAll (fun b q => (q.checkLoaded_frame b).mono (Part.oneBurner b)) _ p)
    (.forAll (fun b q => (q.checkStopped_frame b).mono (Part.oneBurner b)) _ _)

theorem Part.period_next (b : Part) : ((b.dose).deliverHeat).ended.settle.nextFeeder = b.nextFeeder := by
  have dosed : b.dose.nextFeeder = b.nextFeeder := b.dose_frame.same .feederClock (by simp)
  generalize b.dose = d at *
  have ended : d.deliverHeat.ended.nextFeeder = d.deliverHeat.nextFeeder := d.deliverHeat.ended_frame.same .feederClock (by simp)
  generalize d.deliverHeat.ended = e at *
  have settled : e.settle.nextFeeder = e.nextFeeder := e.settle_frame.same .feederClock (by simp)
  have delivered : d.deliverHeat.nextFeeder = d.nextFeeder := rfl
  rw [settled, ended, delivered, dosed]

/-- The next control period (R107). -/
theorem Part.controlPeriod_next (t : Time) (p : Part) : (p.controlPeriod t).nextFeeder = nextMultiple t 200 :=
  (congrArg Part.nextFeeder (p.controlPeriod_eq t)).trans ((p.periodBegun t).period_next.trans (p.periodBegun_next t))

/-- Settles O42: the totals by `Part.controlPeriod_totals`, the doses by `Part.dose_doses` and `Part.controlPeriod_ends`. -/
theorem controlPeriodTotals : Obligations.ControlPeriodTotals := by
  unfold Obligations.ControlPeriodTotals
  intro p
  refine ⟨fun off => takes_row rfl (if_neg (by simp [off])), fun started => ?_⟩
  have now := (p.controlPeriod_frame p.nextFeeder).now_eq
  have next := p.controlPeriod_next p.nextFeeder
  have delivered := Part.controlPeriod_delivered p.nextFeeder started
  have totals := Part.controlPeriod_totals p.nextFeeder started
  have doses (f : Fin 6) := Part.controlPeriod_feeder (p := p) (f := f) p.nextFeeder started
  have burners (b : Fin 2) := Part.controlPeriod_burner (p := p) p.nextFeeder started b
  refine takesAt_row (f := Part.controlPeriod p.nextFeeder) rfl (if_pos started) fun _ => ⟨now, ?_⟩
  generalize p.controlPeriod p.nextFeeder = q at *
  exact ⟨next, delivered, totals, fun f used open_ => doses f used open_, burners⟩

end Sys2Proof.Machine
end

section
/-! SUPPORT. The two blocks of a scan on the field port, bit by bit, and the table of the scan state (R177 to R179, R198, R200). -/

namespace Sys2Proof.Machine

-- One proof at a time: the whole package as one text must not start a thread for each of them.
set_option Elab.async false

open Sys2Proof.Config

/-! ## Bits and bytes of the field port (R198) -/

theorem fieldBits_at (b : Byte) {i : Nat} (lt : i < 8) : (fieldBits b)[i]? = some (b.getLsbD (7 - i)) := by
  rw [fieldBits_eq]
  rcases (by omega : i = 0 ∨ i = 1 ∨ i = 2 ∨ i = 3 ∨ i = 4 ∨ i = 5 ∨ i = 6 ∨ i = 7) with rfl | rfl | rfl | rfl | rfl | rfl | rfl | rfl <;> rfl

theorem flatMap_fieldBits_length (l : List Byte) : (l.flatMap fieldBits).length = 8 * l.length := by
  induction l with
  | nil => rfl
  | cons b l ih => rw [List.flatMap_cons, List.length_append, ih, fieldBits_eq, List.length_cons]; simp; omega

/-- Byte n goes out as bits 8n to 8n + 7, its most significant bit first. -/
theorem flatMap_fieldBits_at {l : List Byte} {n i : Nat} {b : Byte} (lt : i < 8) (at_ : l[n]? = some b) :
    (l.flatMap fieldBits)[8 * n + i]? = some (b.getLsbD (7 - i)) := by
  induction l generalizing n with
  | nil => exact nomatch at_
  | cons c l ih =>
    have size : (fieldBits c).length = 8 := rfl
    rw [List.flatMap_cons]
    cases n with
    | zero =>
      obtain rfl : c = b := Option.some.inj at_
      rw [List.getElem?_append_left (by omega), Nat.mul_zero, Nat.zero_add, fieldBits_at c lt]
    | succ n =>
      rw [List.getElem?_append_right (by omega), size, show 8 * (n + 1) + i - 8 = 8 * n + i by omega]
      exact ih at_

/-- The block that 312 bits of FDI make. -/
theorem fieldBytes_block {fdi : List Bool} (size : fdi.length = 312) : (fieldBytes fdi).length = 39 ∧
    ∀ (n i : Nat) (b : Bool), i < 8 → fdi[8 * n + i]? = some b → ((fieldBytes fdi).getD n 0).getLsbD (7 - i) = b := by
  obtain ⟨length, bits⟩ := fieldBytes_spec fdi
  rw [size] at length
  refine ⟨length, fun n i b lt at_ => bits n i b lt ?_ at_⟩
  obtain ⟨inside, -⟩ := List.getElem?_eq_some_iff.1 at_
  omega

/-! ## The output block (R178, R200) -/

theorem OutputImage.bytes_length (o : OutputImage) : o.bytes.length = 26 := by simp [OutputImage.bytes, be16, feederIds, fanIds]

theorem Part.outputBlock_shows (p : Part) : p.outputBlock.length = 28 ∧ crc p.outputBlock = 0 ∧
    p.outputBlock.take 26 = if p.started then p.field.output.bytes else List.replicate 26 0 := by
  have off : OutputImage.off.bytes = List.replicate 26 0 := by decide
  have image : (if p.started then p.field.output.bytes else OutputImage.off.bytes) =
      if p.started then p.field.output.bytes else List.replicate 26 0 := by rw [off]
  have size : (if p.started then p.field.output.bytes else OutputImage.off.bytes).length = 26 := by
    split <;> exact OutputImage.bytes_length _
  rw [← image]
  unfold Part.outputBlock
  generalize (if p.started then p.field.output.bytes else OutputImage.off.bytes) = l at size
  exact ⟨by simp [withCrc, be16, size], crc_withCrc l, by rw [withCrc, ← size, List.take_left]⟩

/-- FDO goes out with the output block and is 0 behind it. -/
theorem Field.fdoBits_shows (f : Field) (size : f.sentBlock.length = 28) : f.fdoBits.length = 312 ∧
    f.fdoBits.drop 224 = List.replicate 88 false ∧ ∀ (n i : Nat) (b : Byte), i < 8 → f.sentBlock[n]? = some b →
      f.fdoBits[8 * n + i]? = some (b.getLsbD (7 - i)) := by
  refine ⟨?_, ?_, fun n i b lt at_ => flatMap_fieldBits_at lt ?_⟩
  · rw [Field.fdoBits, flatMap_fieldBits_length, Field.fdoBytes, List.length_append, size, List.length_replicate]
  · have front : (f.sentBlock.flatMap fieldBits).length = 224 := by rw [flatMap_fieldBits_length, size]
    rw [Field.fdoBits, Field.fdoBytes, List.flatMap_append, ← front, List.drop_left]
    rfl
  · obtain ⟨inside, -⟩ := List.getElem?_eq_some_iff.1 at_
    rw [Field.fdoBytes, List.getElem?_append_left inside, at_]

/-! ## The table of R179 -/

section
variable (l : List Byte) (f : Field)

/-- The table moves no count and no time of a good scan. -/
theorem Field.move_counts (good : Bool) : (f.move good l).scans = f.scans ∧ (f.move good l).crcErrors = f.crcErrors ∧
    (f.move good l).notReady = f.notReady ∧ (f.move good l).lastGood = f.lastGood := by
  unfold Field.move
  repeat' split
  all_goals exact ⟨rfl, rfl, rfl, rfl⟩

/-- The table of R179 for a good scan. -/
theorem Field.move_good : let g := f.move true l
    (f.state = .good → g.state = .good ∧ g.image = .ofBlock l) ∧
    (f.state = .holding → g.state = .good ∧ g.image = .ofBlock l ∧ g.badRun = 0) ∧
    (f.state = .failed → f.goodRun < 2 → g.state = .failed ∧ g.image = f.image.spoil ∧ g.goodRun = f.goodRun + 1) ∧
    (f.state = .failed → f.goodRun = 2 → g.state = .good ∧ g.image = .ofBlock l ∧ g.badRun = 0 ∧ g.goodRun = 0) := by
  unfold Field.move
  refine ⟨fun s => ?_, fun s => ?_, fun s few => ?_, fun s enough => ?_⟩ <;> rw [s]
  · exact ⟨rfl, rfl⟩
  · exact ⟨rfl, rfl, rfl⟩
  · dsimp only
    rw [if_pos few]
    exact ⟨rfl, rfl, rfl⟩
  · dsimp only
    rw [if_neg (by omega)]
    exact ⟨rfl, rfl, rfl, rfl⟩

/-- The table of R179 for a bad scan. -/
theorem Field.move_bad : let g := f.move false l
    (f.state = .good → g.state = .holding ∧ g.image = f.image ∧ g.badRun = 1) ∧
    (f.state = .holding → f.badRun < 3 → g.state = .holding ∧ g.image = f.image ∧ g.badRun = f.badRun + 1) ∧
    (f.state = .holding → f.badRun = 3 → g.state = .failed ∧ g.image = f.image.spoil ∧ g.badRun = 4 ∧ g.goodRun = 0 ∧
      g.failures = f.failures + 1) ∧
    (f.state = .failed → g.state = .failed ∧ g.image = f.image.spoil ∧ g.goodRun = 0) := by
  unfold Field.move
  refine ⟨fun s => ?_, fun s few => ?_, fun s enough => ?_, fun s => ?_⟩ <;> rw [s]
  · exact ⟨rfl, rfl, rfl⟩
  · dsimp only
    rw [if_pos few]
    exact ⟨rfl, rfl, rfl⟩
  · dsimp only
    rw [if_neg (by omega)]
    exact ⟨rfl, rfl, rfl, rfl, rfl⟩
  · exact ⟨rfl, rfl, rfl⟩

end

/-- The Field Scanner when a scan that brought in block l is complete (R179). -/
def Field.completed (now : Time) (l : List Byte) (f : Field) : Field :=
  { (f.count now l).move (blockCrcGood l && blockReady l) l with inFlight := false }

/-- What a scan makes of the Field Scanner, by the test of its block (R179). -/
theorem Field.completed_shows (now : Time) (l : List Byte) (f : Field) :
    let g := f.completed now l
    let sound := crc (l.take 37) = BitVec.ofNat 16 (wordAt l 37)
    let ready := (l.getD 0 0).getLsbD 0 = true
    g.inFlight = false ∧ g.scans = f.scans + 1 ∧
      g.crcErrors = (if sound then f.crcErrors else f.crcErrors + 1) ∧
      g.notReady = (if sound ∧ ¬ ready then f.notReady + 1 else f.notReady) ∧
      (sound ∧ ready → g.lastGood = some now ∧
        (f.state = .good → g.state = .good ∧ g.image = .ofBlock l) ∧
        (f.state = .holding → g.state = .good ∧ g.image = .ofBlock l ∧ g.badRun = 0) ∧
        (f.state = .failed → f.goodRun < 2 → g.state = .failed ∧ g.image = f.image.spoil ∧ g.goodRun = f.goodRun + 1) ∧
        (f.state = .failed → f.goodRun = 2 → g.state = .good ∧ g.image = .ofBlock l ∧ g.badRun = 0 ∧ g.goodRun = 0)) ∧
      (¬ (sound ∧ ready) → g.lastGood = f.lastGood ∧
        (f.state = .good → g.state = .holding ∧ g.image = f.image ∧ g.badRun = 1) ∧
        (f.state = .holding → f.badRun < 3 → g.state = .holding ∧ g.image = f.image ∧ g.badRun = f.badRun + 1) ∧
        (f.state = .holding → f.badRun = 3 → g.state = .failed ∧ g.image = f.image.spoil ∧ g.badRun = 4 ∧ g.goodRun = 0 ∧
          g.failures = f.failures + 1) ∧
        (f.state = .failed → g.state = .failed ∧ g.image = f.image.spoil ∧ g.goodRun = 0)) := by
  intro g sound ready
  have isSound : blockCrcGood l = true ↔ sound := beq_iff_eq
  have isReady : blockReady l = true ↔ ready := Iff.rfl
  have isGood : (blockCrcGood l && blockReady l) = true ↔ sound ∧ ready := by rw [Bool.and_eq_true, isSound, isReady]
  obtain ⟨scans, crcErrors, notReady, lastGood⟩ := (f.count now l).move_counts l (blockCrcGood l && blockReady l)
  refine ⟨rfl, scans, crcErrors.trans ?_, notReady.trans ?_, fun good => ⟨lastGood.trans ?_, ?_⟩, fun bad => ⟨lastGood.trans ?_, ?_⟩⟩
  · exact if_congr isSound rfl rfl
  · exact if_congr (by rw [Bool.and_eq_true, isSound, Bool.not_eq_true', ← Bool.not_eq_true, isReady]) rfl rfl
  · exact if_pos (isGood.2 good)
  · have moved := (f.count now l).move_good l
    rw [← isGood.2 good] at moved
    exact moved
  · exact if_neg (mt isGood.1 bad)
  · have moved := (f.count now l).move_bad l
    rw [← Bool.eq_false_iff.2 (mt isGood.1 bad)] at moved
    exact moved

end Sys2Proof.Machine
end

section
/-! SUPPORT. What becomes of a feeder and of its outputs when a burner changes its state: LOCAL is not left and not entered,
a feeder whose local input is BAD keeps its state, and a feeder of another burner is left alone. -/

namespace Sys2Proof.Machine

-- One proof at a time: the whole package as one text must not start a thread for each of them.
set_option Elab.async false

open Sys2Proof.Config

/-- A feeder but for its drive and its mix fraction. -/
def Feeder.plain (x : Feeder) : Feeder := { x.measured with mix := 0 }

/-- From x to y a feeder has turned as its burner made it; its local input is valid or not. -/
structure Turned (valid : Bool) (x y : Feeder × Nat × Bool × Bool) : Prop where
  plain : y.1.plain = x.1.plain
  inLocal : y.1.state = .inLocal ↔ x.1.state = .inLocal
  stands : x.1.state = .inLocal → y.1.trim = x.1.trim ∧ y.2 = x.2
  drawn : x.1.state = .running ∨ x.1.state = .stopped → y.1.state = .running ∨ y.1.state = .stopped
  kept : valid = false → y.1.state = x.1.state

/-- From p to q feeder f has turned as its burner made it. -/
structure Turns (f : Fin 6) (p q : Part) : Prop where
  image : q.field.image = p.field.image
  driven : Turned p.field.image.inLocal[f].valid (p.driven f) (q.driven f)

theorem Turned.refl (valid : Bool) (x : Feeder × Nat × Bool × Bool) : Turned valid x x := ⟨rfl, .rfl, fun _ => ⟨rfl, rfl⟩, id, fun _ => rfl⟩

theorem Turned.trans {valid : Bool} {x y z : Feeder × Nat × Bool × Bool} (h : Turned valid x y) (g : Turned valid y z) :
    Turned valid x z := by
  refine ⟨g.plain.trans h.plain, g.inLocal.trans h.inLocal, fun is => ?_, g.drawn ∘ h.drawn, fun bad => (g.kept bad).trans (h.kept bad)⟩
  obtain ⟨trim, out⟩ := h.stands is
  obtain ⟨trim', out'⟩ := g.stands (h.inLocal.2 is)
  exact ⟨trim'.trans trim, out'.trans out⟩

section
variable {p q r : Part} {b : Fin 2} {f g : Fin 6} {T : Set Block}

theorem Turns.refl (p : Part) : Turns f p p := ⟨rfl, .refl _ _⟩

theorem Turns.trans (h : Turns f p q) (g : Turns f q r) : Turns f p r :=
  ⟨g.image.trans h.image, h.driven.trans (h.image ▸ g.driven)⟩

theorem Turns.of_driven (image : q.field.image = p.field.image) (driven : q.driven f = p.driven f) : Turns f p q :=
  ⟨image, driven ▸ .refl _ _⟩

theorem ChangesOnly.driven_eq (h : ChangesOnly T p q) (f : Fin 6)
    (hT : Block.feeder f ∉ T ∧ Block.drive f ∉ T ∧ Block.driveOut ∉ T := by simp) : q.driven f = p.driven f := by
  obtain ⟨feeder, drive, out⟩ := hT
  unfold Part.driven
  rw [h.feeder_eq f ⟨feeder, drive⟩, h.commands_eq f out]

theorem Turns.of_frame (h : ChangesOnly T p q)
    (hT : Block.feeder f ∉ T ∧ Block.drive f ∉ T ∧ Block.driveOut ∉ T := by simp) (image : Block.image ∉ T := by simp) :
    Turns f p q := .of_driven (h.same .image image) (h.driven_eq f hT)

/-! ## Another feeder's turn -/

theorem Part.updFeeder_driven_other (ne : f ≠ g) (h : Feeder → Feeder) (p : Part) : (p.updFeeder g h).driven f = p.driven f := by
  have feeder : (p.updFeeder g h).feeders[f] = p.feeders[f] := Part.updFeeder_other ne ..
  exact congrArg (fun x => (x, p.commands f)) feeder

theorem Part.feederTo_driven_other (ne : f ≠ g) (s : FeederState) (sp : Nat) (p : Part) : (p.feederTo g s sp).driven f = p.driven f := by
  have feeder : (p.feederTo g s sp).feeders[f] = p.feeders[f] := Part.feederTo_other ne ..
  have out : (p.feederTo g s sp).commands f = p.commands f := by
    unfold Part.feederTo Part.writeFeeder Part.commands
    simp only [Part.updOutput, Part.updFeeder, set_other _ _ _ _ ne]
  exact Prod.ext feeder out

theorem Part.settleFeeder_driven_other (ne : f ≠ g) (p : Part) : (p.settleFeeder g).driven f = p.driven f := by
  rcases p.settleFeeder_cases g with e | e | e <;> rw [e] <;> exact Part.feederTo_driven_other ne ..

/-! ## The feeder's own turn -/

theorem Part.feederTo_driven (f : Fin 6) (s : FeederState) (sp : Nat) (p : Part) :
    (p.feederTo f s sp).driven f = (p.feeders[f].entered s sp, (p.feeders[f].entered s sp).commands) := by
  have feeder : (p.feederTo f s sp).feeders[f] = p.feeders[f].entered s sp := Part.feederTo_self ..
  have out : (p.feederTo f s sp).commands f = (p.feeders[f].entered s sp).commands := by
    unfold Part.feederTo Part.writeFeeder Part.commands
    simp only [Part.updOutput, Part.updFeeder, set_self]
    rfl
  exact Prod.ext feeder out

theorem Part.settleFeeder_turns (g : Fin 6) (p : Part) : Turns f p (p.settleFeeder g) := by
  have image : (p.settleFeeder g).field.image = p.field.image := (p.settleFeeder_frame g).same .image (by simp)
  by_cases e : f = g
  · subst e
    refine ⟨image, ?_⟩
    have entered (s : FeederState) (sp : Nat) (on : s = .running ∨ s = .stopped) (remote : p.feeders[f].state ≠ .inLocal)
        (valid : p.field.image.inLocal[f].valid = true) :
        Turned p.field.image.inLocal[f].valid (p.driven f) ((p.feederTo f s sp).driven f) := by
      rw [Part.feederTo_driven, valid]
      refine ⟨rfl, iff_of_false ?_ remote, fun is => absurd is remote, fun _ => on, nofun⟩
      rcases on with rfl | rfl <;> nofun
    unfold Part.settleFeeder
    dsimp only
    split
    · exact .refl _ _
    · next free =>
      simp only [Bool.or_eq_true, Bool.not_eq_true', beq_iff_eq, not_or, Bool.not_eq_false] at free
      obtain ⟨⟨⟨⟨-, -⟩, remote⟩, valid⟩, -⟩ := free
      split
      · split
        · exact .refl _ _
        · exact entered _ _ (.inl rfl) remote valid
      · split
        · exact .refl _ _
        · exact entered _ _ (.inr rfl) remote valid
  · exact .of_driven image (p.settleFeeder_driven_other e)

theorem Part.settleFeedersOf_turns (b : Fin 2) (p : Part) : Turns f p (p.settleFeedersOf b) :=
  Part.forAll_rel .refl .trans (fun g q => q.settleFeeder_turns g) _ p

theorem Part.updFeeder_turns (g : Fin 6) (h : Feeder → Feeder) (p : Part)
    (same : g = f → (h p.feeders[f]).plain = p.feeders[f].plain ∧ (h p.feeders[f]).state = p.feeders[f].state ∧
      (h p.feeders[f]).trim = p.feeders[f].trim) : Turns f p (p.updFeeder g h) := by
  by_cases e : f = g
  · subst e
    obtain ⟨plain, state, trim⟩ := same rfl
    have feeder : (p.updFeeder f h).feeders[f] = h p.feeders[f] := Part.updFeeder_self ..
    rw [← feeder] at plain state trim
    exact ⟨rfl, plain, by rw [Part.driven, Part.driven, state], fun _ => ⟨trim, rfl⟩, fun on => by rw [Part.driven, state]; exact on,
      fun _ => state⟩
  · exact .of_driven rfl (p.updFeeder_driven_other e h)

theorem Part.replaceMix_turns (b : Fin 2) (m : Vector Nat 6) (p : Part) : Turns f p (p.replaceMix b m) :=
  (Part.forAll_rel (f := fun g => Part.updFeeder g fun x => { x with mix := m[g] }) .refl .trans
    (fun g q => q.updFeeder_turns g _ fun _ => ⟨rfl, rfl, rfl⟩) _ p).trans (Part.settleFeedersOf_turns b _)

theorem Part.endRamp_turns (b : Fin 2) (p : Part) : Turns f p (p.endRamp b) := by
  unfold Part.endRamp
  split
  · next r _ => exact (p.replaceMix_turns b r.target).trans (.of_frame ((Part.setRamp_frame b none _).andThen (Part.withdraw_frame 2 _ _)))
  · exact .refl p

theorem Part.leaveFor_turns (b : Fin 2) (s : BurnerState) (p : Part) : Turns f p (p.leaveFor b s) := by
  have left : Turns f p (if s = .lightWait ∨ s = .igniting ∨ s = .loading then p else p.withdraw 0 b.val) :=
    ite_keeps (I := Turns f p) (fun _ => .refl p) fun _ => .of_frame (p.withdraw_frame 0 b.val)
  exact ite_keeps (I := Turns f p) (fun _ => left) fun _ => left.trans (Part.endRamp_turns b _)

theorem Part.zeroSetpoints_turns (b : Fin 2) (p : Part) : Turns f p (p.zeroSetpoints b) := by
  refine Part.forAll_rel (f := fun g => Part.updFeeder g fun x => if x.state = .inLocal then x else { x with setpoint := 0, rampRem := 0 })
    .refl .trans (fun g q => q.updFeeder_turns g _ fun _ => ?_) _ p
  split <;> exact ⟨rfl, rfl, rfl⟩

theorem Part.burnerTo_turns (b : Fin 2) (s : BurnerState) (fix : Burner → Burner) (mark : Bool) (p : Part) :
    Turns f p (p.burnerTo b s fix mark) := by
  have entered : Turns f p (p.entering b s fix) := (p.leaveFor_turns b s).trans (.of_frame (p.entering_frame b s fix))
  rw [Part.burnerTo_eq]
  generalize p.entering b s fix = u at entered
  have zeroed : Turns f p (if s = .off ∨ s = .held ∨ s = .tripped then u.zeroSetpoints b else u) :=
    ite_keeps (I := Turns f p) (fun _ => entered.trans (u.zeroSetpoints_turns b)) fun _ => entered
  exact (zeroed.trans (Part.settleFeedersOf_turns b _)).trans
    (.of_frame ((Part.record_frame _ _).andThen (Part.offer_frame ..)))

/-! ## The feeders of the other burner -/

theorem Part.burner_of_driven (same : q.driven f = p.driven f) (ne : p.feeders[f].cfg.burner ≠ b) : q.feeders[f].cfg.burner ≠ b := by
  have feeder : q.feeders[f] = p.feeders[f] := congrArg Prod.fst same
  rwa [feeder]

theorem Part.settleFeedersOf_apart (ne : p.feeders[f].cfg.burner ≠ b) : (p.settleFeedersOf b).driven f = p.driven f :=
  Part.forAll_absent (V := Part.driven f) (fun _ q e => q.settleFeeder_driven_other (Ne.symm e))
    (fun mem => ne (Part.mem_feedersOf.1 mem).2) p

theorem Part.updFeeders_apart (h : Fin 6 → Feeder → Feeder) (ne : p.feeders[f].cfg.burner ≠ b) :
    (p.forAll (p.feedersOf b) fun g => Part.updFeeder g (h g)).driven f = p.driven f :=
  Part.forAll_absent (V := Part.driven f) (fun _ q e => q.updFeeder_driven_other (Ne.symm e) _)
    (fun mem => ne (Part.mem_feedersOf.1 mem).2) p

theorem Part.endRamp_apart (ne : p.feeders[f].cfg.burner ≠ b) : (p.endRamp b).driven f = p.driven f := by
  unfold Part.endRamp
  split
  · next r _ =>
    have mixed := p.updFeeders_apart (fun g x => { x with mix := r.target[g] }) ne
    have settled := Part.settleFeedersOf_apart (Part.burner_of_driven mixed ne)
    exact (((Part.setRamp_frame b none _).andThen (Part.withdraw_frame 2 _ _)).driven_eq f).trans (settled.trans mixed)
  · rfl

theorem Part.burnerTo_apart (s : BurnerState) (fix : Burner → Burner) (mark : Bool) (ne : p.feeders[f].cfg.burner ≠ b) :
    (p.burnerTo b s fix mark).driven f = p.driven f := by
  have withdrawn : (if s = .lightWait ∨ s = .igniting ∨ s = .loading then p else p.withdraw 0 b.val).driven f = p.driven f :=
    ite_keeps (I := fun q : Part => q.driven f = p.driven f) (fun _ => rfl) fun _ => (p.withdraw_frame 0 b.val).driven_eq f
  have left : (p.leaveFor b s).driven f = p.driven f :=
    ite_keeps (I := fun q : Part => q.driven f = p.driven f) (fun _ => withdrawn)
      fun _ => (Part.endRamp_apart (Part.burner_of_driven withdrawn ne)).trans withdrawn
  have entered : (p.entering b s fix).driven f = p.driven f := ((p.entering_frame b s fix).driven_eq f).trans left
  rw [Part.burnerTo_eq]
  generalize p.entering b s fix = u at entered
  have zeroed : (if s = .off ∨ s = .held ∨ s = .tripped then u.zeroSetpoints b else u).driven f = p.driven f :=
    ite_keeps (I := fun q : Part => q.driven f = p.driven f)
      (fun _ => (u.updFeeders_apart (fun _ x => if x.state = .inLocal then x else { x with setpoint := 0, rampRem := 0 })
        (Part.burner_of_driven entered ne)).trans entered) fun _ => entered
  have settled := (Part.settleFeedersOf_apart (Part.burner_of_driven zeroed ne)).trans zeroed
  exact (((Part.record_frame _ _).andThen (Part.offer_frame ..)).driven_eq f).trans settled

end

end Sys2Proof.Machine
end

section
/-! SUPPORT. What the hand-on of a scan carries: a burner that has changed its state in it does not come back to that state,
the feeders of a burner that has not stand as they are, and a burner without its permit is not resumed. -/

namespace Sys2Proof.Machine

-- One proof at a time: the whole package as one text must not start a thread for each of them.
set_option Elab.async false

open Sys2Proof.Config

/-! ## Relations that the hand-on carries -/

/-- The blocks that the hand-on writes besides burners, feeders and their outputs. -/
def handOnBlocks : Set Block :=
  alarmBlocks ∪ settleBlocks ∪ {.grate, .ext, .fanOut} ∪ Set.range .fan ∪ leaveBlocks 1

@[simp] theorem mem_handOnBlocks {x : Block} : x ∈ handOnBlocks ↔ (((x ∈ alarmBlocks ∨ x ∈ settleBlocks) ∨
    x ∈ ({.grate, .ext, .fanOut} : Set Block)) ∨ x ∈ Set.range Block.fan) ∨ x ∈ leaveBlocks 1 := Iff.rfl

/-- Carried from before to after a trip of a burner, and its hold causes and resume. -/
structure ScanCarries (R : Part → Part → Prop) : Prop extends PointCarries handOnBlocks R where
  resumes : ∀ (b : Fin 2) (p : Part), R p ((p.followCauses b).autoResume b)

/-- The end of the hand-on: fans, grate, external conditions, and the event's end. -/
def Part.handRest (p : Part) : Part := (((p.forAll fanIds Part.scanFan).scanGrate).forAll (List.finRange 16) Part.scanExternal).settleAll

namespace ScanCarries

variable {R : Part → Part → Prop} (w : ScanCarries R)
include w

theorem settleAll (p : Part) : R p p.settleAll := by
  rw [p.settleAll_eq]
  have points := w.settlePoints promptPoints p
  have holds : R (p.settlePoints promptPoints) (p.settlePoints promptPoints).settleHolds :=
    w.forAll (f := fun b p => (p.followCauses b).autoResume b) w.resumes _ _
  exact w.trans (w.trans points holds) (w.frame ((Part.settle_frame _).mono fun x hx => .inl (.inl (.inl (.inr hx)))))

theorem scanFan (n : Fin 4) (p : Part) : R p (p.scanFan n) :=
  w.frame ((p.scanFan_frame n).mono fun x hx => by
    rcases hx with (rfl | rfl) | hx
    · exact .inl (.inr ⟨n, rfl⟩)
    · exact .inl (.inl (.inr (.inr (.inr rfl))))
    · exact .inr hx)

theorem handRest (p : Part) : R p p.handRest := by
  have fans : R p (p.forAll fanIds Part.scanFan) := w.forAll w.scanFan _ p
  have grate : R (p.forAll fanIds Part.scanFan) (p.forAll fanIds Part.scanFan).scanGrate :=
    w.frame ((Part.updGrate_frame _ _).mono fun x hx => .inl (.inl (.inr (.inl hx))))
  have ext : R (p.forAll fanIds Part.scanFan).scanGrate
      (((p.forAll fanIds Part.scanFan).scanGrate).forAll (List.finRange 16) Part.scanExternal) :=
    w.forAll (fun n q => w.frame ((q.scanExternal_frame n).mono fun x hx => .inl (.inl (.inr (.inr (.inl hx)))))) _ _
  exact w.trans (w.trans (w.trans fans grate) ext) (w.settleAll _)

end ScanCarries

/-! ## A burner and its feeders -/

/-- How far a burner has gone in the hand-on, by whether its permit is there: a resume leads on from HELD, a hold leads to it. -/
def BurnerState.rank (permit : Bool) : BurnerState → Nat
  | .off | .tripped => 2
  | .held => if permit then 0 else 1
  | _ => if permit then 1 else 0

theorem BurnerState.rank_lt {s : BurnerState} (permit : Bool) (off : s ≠ .off) (tripped : s ≠ .tripped) : s.rank permit < 2 := by
  cases s <;> cases permit <;> first | decide | contradiction

/-- From p to q the burner of feeder f has gone on and f has followed it, or both stand as they were. -/
structure Follows (f : Fin 6) (p q : Part) : Prop where
  started : q.started = p.started
  turns : Turns f p q
  items : ∀ b : Fin 2, q.burners[b].cfg = p.burners[b].cfg
  goes : ∀ b : Fin 2, p.feeders[f].cfg.burner = b →
    (q.burners[b].state = p.burners[b].state ∧ q.feeders[f] = p.feeders[f]) ∨
      p.burners[b].state.rank (p.permitGood b) < q.burners[b].state.rank (p.permitGood b)

theorem Part.permitGood_congr {p q : Part} (image : q.field.image = p.field.image) (b : Fin 2) : q.permitGood b = p.permitGood b := by
  rw [Part.permitGood, Part.permitGood, image]

theorem Feeder.plain_cfg {x y : Feeder} (h : y.plain = x.plain) : y.cfg = x.cfg := by
  have cfg := congrArg Feeder.cfg h
  exact cfg

section
variable {p q r : Part} {b : Fin 2} {f g : Fin 6} {T : Set Block}

theorem Follows.refl (p : Part) : Follows f p p := ⟨rfl, .refl p, fun _ => rfl, fun _ _ => .inl ⟨rfl, rfl⟩⟩

theorem Follows.trans (h : Follows f p q) (g : Follows f q r) : Follows f p r := by
  refine ⟨g.started.trans h.started, h.turns.trans g.turns, fun b => (g.items b).trans (h.items b), fun b own => ?_⟩
  have cfg : q.feeders[f].cfg = p.feeders[f].cfg := Feeder.plain_cfg h.turns.driven.plain
  have second := g.goes b ((congrArg FeederCfg.burner cfg).trans own)
  rw [Part.permitGood_congr h.turns.image] at second
  rcases h.goes b own with ⟨state, same⟩ | rises <;> rcases second with ⟨state', same'⟩ | rises'
  · exact .inl ⟨state'.trans state, same'.trans same⟩
  · exact .inr (state ▸ rises')
  · exact .inr (by rw [state']; exact rises)
  · exact .inr (rises.trans rises')

theorem Follows.of_driven (started : q.started = p.started) (image : q.field.image = p.field.image)
    (driven : q.driven f = p.driven f) (burners : ∀ c : Fin 2, q.burners[c].cfg = p.burners[c].cfg ∧ q.burners[c].state = p.burners[c].state) :
    Follows f p q :=
  ⟨started, .of_driven image driven, fun c => (burners c).1, fun c _ => .inl ⟨(burners c).2, congrArg Prod.fst driven⟩⟩

/-- What changes neither burners nor feeders nor the image. -/
theorem Follows.of_frame (h : ChangesOnly T p q)
    (hT : Block.feeder f ∉ T ∧ Block.drive f ∉ T ∧ Block.driveOut ∉ T := by simp)
    (apart : Block.image ∉ T ∧ Block.started ∉ T ∧ ∀ c, Block.burner c ∉ T := by simp) : Follows f p q := by
  obtain ⟨image, started, burners⟩ := apart
  have same (c : Fin 2) := h.burner_eq c (burners c)
  exact .of_driven (h.started_eq started) (h.same .image image) (h.driven_eq f hT) fun c => by rw [same]; exact ⟨rfl, rfl⟩

theorem Part.burnerTo_follows {s : BurnerState} {fix : Burner → Burner} (mark : Bool)
    (keeps : ∀ x : Burner, (fix x).cfg = x.cfg ∧ (fix x).state = x.state)
    (rises : p.burners[b].state.rank (p.permitGood b) < s.rank (p.permitGood b)) : Follows f p (p.burnerTo b s fix mark) := by
  have frame := p.burnerTo_frame b s fix mark
  have self := p.burnerTo_burner b s fix mark
  refine ⟨frame.started_eq, p.burnerTo_turns b s fix mark, fun c => ?_, fun c own => ?_⟩
  · by_cases e : c = b
    · subst e
      rw [self, (keeps _).1]
      rfl
    · rw [Part.burnerTo_other e]
  · by_cases e : c = b
    · subst e
      right
      rw [self, (keeps _).2]
      exact rises
    · have driven := p.burnerTo_apart s fix mark (b := b) (f := f) (by rw [own]; exact e)
      exact .inl ⟨by rw [Part.burnerTo_other e], congrArg Prod.fst driven⟩

theorem Part.tripBurner_follows (b : Fin 2) (p : Part) : Follows f p (p.tripBurner b) := by
  refine ite_keeps (I := Follows f p) (fun _ => .refl p) fun on => Part.burnerTo_follows false (fun _ => ⟨rfl, rfl⟩) ?_
  simp only [Bool.or_eq_true, beq_iff_eq, not_or] at on
  exact BurnerState.rank_lt _ on.1.2 on.2

theorem Part.checkStopped_follows (b : Fin 2) (p : Part) : Follows f p (p.checkStopped b) := by
  refine ite_keeps (I := Follows f p) (fun stops => Part.burnerTo_follows false (fun _ => ⟨rfl, rfl⟩) ?_) fun _ => .refl p
  exact BurnerState.rank_lt _ (by rw [stops.1]; nofun) (by rw [stops.1]; nofun)

theorem Part.scanPermit_follows (b : Fin 2) (p : Part) : Follows f p (p.scanPermit b) := by
  refine ite_keeps (I := Follows f p) (fun _ => .refl p) fun lost => ?_
  have bad : p.permitGood b = false := by
    rw [Bool.or_eq_true, not_or] at lost
    exact Bool.eq_false_iff.2 lost.2
  have held (h : p.burners[b].state = .igniting ∨ p.burners[b].state = .loading ∨ p.burners[b].state = .firing) :
      Follows f p (p.hold b false) := by
    refine Part.burnerTo_follows false (fun _ => ⟨rfl, rfl⟩) ?_
    rw [bad]
    rcases h with e | e | e <;> rw [e] <;> decide
  split
  · next e => exact Part.burnerTo_follows false (fun _ => ⟨rfl, rfl⟩) (by rw [e, bad]; decide)
  · next e => exact held (.inl e)
  · next e => exact held (.inr (.inl e))
  · next e => exact held (.inr (.inr e))
  · exact .refl p

/-- Hold causes followed: what a burner shows then. -/
theorem Part.followCauses_burner (b : Fin 2) (p : Part) : (p.followCauses b).burners[b] =
    if p.burners[b].state = .held then
      { p.burners[b] with causePermit := !p.permitGood b, causeConflict := p.claims[(0 : Fin 3)].conflict.isSome }
    else p.burners[b] := set_self ..

theorem Part.followCauses_other {c : Fin 2} (ne : c ≠ b) (p : Part) : (p.followCauses b).burners[c] = p.burners[c] := set_other _ _ _ _ ne

/-- What a resume without a command tells of the burner (R92). -/
theorem Part.mayAutoResume_held (may : p.mayAutoResume b = true) : p.burners[b].state = .held ∧ p.burners[b].causePermit = false := by
  simp only [Part.mayAutoResume, Bool.and_eq_true, beq_iff_eq, Bool.not_eq_true'] at may
  exact ⟨may.1.1.1.1.1.2, may.1.1.1.1.2⟩

/-- A burner resumes without a command only with its permit, once its hold causes are followed. -/
theorem Part.resumes_permitted (may : (p.followCauses b).mayAutoResume b = true) :
    p.burners[b].state = .held ∧ p.permitGood b = true := by
  obtain ⟨held, cause⟩ := Part.mayAutoResume_held may
  rw [Part.followCauses_burner] at held cause
  by_cases was : p.burners[b].state = .held
  · rw [if_pos was] at cause
    exact ⟨was, by simpa using cause⟩
  · rw [if_neg was] at held
    exact absurd held was

theorem Part.resume_follows (held : p.burners[b].state = .held) (permit : p.permitGood b = true) : Follows f p (p.resume b) := by
  have entered (s : BurnerState) (fix : Burner → Burner) (keeps : ∀ x : Burner, (fix x).cfg = x.cfg ∧ (fix x).state = x.state)
      (goes : s = .firing ∨ s = .lightWait) : Follows f p (p.burnerTo b s fix) := by
    refine Part.burnerTo_follows false keeps ?_
    rw [held, permit]
    rcases goes with rfl | rfl <;> decide
  unfold Part.resume
  split
  · exact entered .firing _ (fun _ => ⟨rfl, rfl⟩) (.inl rfl)
  · next c _ =>
    exact (entered .lightWait (fun x => { x with cont := some c, lightWait := some (later p.now lightWaitTime) })
      (fun _ => ⟨rfl, rfl⟩) (.inr rfl)).trans (.of_frame (Part.request_frame 0 b.val _))

theorem Part.followCauses_follows (b : Fin 2) (p : Part) : Follows f p (p.followCauses b) := by
  have frame := p.followCauses_frame b
  refine .of_driven frame.started_eq (frame.same .image (by simp)) (frame.driven_eq f) fun c => ?_
  by_cases e : c = b
  · subst e
    rw [Part.followCauses_burner]
    split <;> exact ⟨rfl, rfl⟩
  · rw [Part.followCauses_other e]
    exact ⟨rfl, rfl⟩

theorem Part.resumes_follow (b : Fin 2) (p : Part) : Follows f p ((p.followCauses b).autoResume b) := by
  have caused := p.followCauses_follows (f := f) b
  refine caused.trans (ite_keeps (I := Follows f (p.followCauses b)) (fun may => ?_) fun _ => .refl _)
  have permit := (Part.resumes_permitted may).2
  rw [← Part.permitGood_congr caused.turns.image] at permit
  exact Part.resume_follows (Part.mayAutoResume_held may).1 permit

theorem follows_carries (f : Fin 6) : ScanCarries (Follows f) where
  alarms x hx := .inl (.inl (.inl (.inl hx)))
  refl := .refl
  trans := .trans
  frame h := .of_frame h
  tripBurner b p := p.tripBurner_follows b
  resumes b p := p.resumes_follow b

end

end Sys2Proof.Machine
end

section
/-! SUPPORT. The pulses and the local input of a feeder as a scan brings them (R100, R102, R104, R110, R111). -/

namespace Sys2Proof.Machine

-- One proof at a time: the whole package as one text must not start a thread for each of them.
set_option Elab.async false

open Sys2Proof.Config

/-- One object among those that an operation is applied to in turn, where only the others relate the parts by R. -/
theorem Part.forAll_around {α : Type} {R : Part → Part → Prop} {f : α → Part → Part} {a : α} {l : List α} (refl : ∀ p, R p p)
    (trans : ∀ {p q r}, R p q → R q r → R p r) (others : ∀ b q, b ≠ a → R q (f b q)) (once : l.Nodup) (mem : a ∈ l) (p : Part) :
    ∃ q, R p q ∧ R (f a q) (p.forAll l f) := by
  induction l generalizing p with
  | nil => cases mem
  | cons b l ih =>
    obtain ⟨fresh, once⟩ := List.nodup_cons.1 once
    rcases List.mem_cons.1 mem with rfl | mem
    · refine ⟨p, refl p, ?_⟩
      have rest : ∀ (m : List α) (q : Part), a ∉ m → R q (q.forAll m f) := by
        intro m
        induction m with
        | nil => exact fun q _ => refl q
        | cons c m ih =>
          intro q absent
          obtain ⟨ne, absent⟩ := not_or.1 (mt List.mem_cons.2 absent)
          exact trans (others c q fun e => ne e.symm) (ih _ absent)
      exact rest l _ fresh
    · obtain ⟨q, upTo, after⟩ := ih once mem (f b p)
      exact ⟨q, trans (others b p fun e => fresh (e ▸ mem)) upTo, after⟩

/-! ## Pulses (R102, R104) -/

/-- What a scan of the pulse count shows of a feeder. -/
theorem Feeder.scan_shows (c : Channel Nat) (x : Feeder) :
    (c.valid = true → (x.scan c).baseline = some c.value ∧ (x.scan c).measBad = x.measBad ∧
      (x.baseline = none → (x.scan c).bucket = x.bucket) ∧
      ∀ base, x.baseline = some base → (x.scan c).bucket = x.bucket + (c.value + 65536 - base) % 65536) ∧
    (c.valid = false → (x.scan c).baseline = none ∧ (x.scan c).whole = false ∧ (x.scan c).measBad = true ∧
      (x.scan c).bucket = x.bucket) := by
  refine ⟨fun valid => ?_, fun bad => ?_⟩
  · unfold Feeder.scan
    rw [if_pos valid]
    cases start : x.baseline with
    | none => exact ⟨rfl, rfl, fun _ => rfl, nofun⟩
    | some base => exact ⟨rfl, rfl, nofun, fun other e => by rw [Option.some.inj e]⟩
  · have spoilt : x.scan c = x.spoil := if_neg (by rw [bad]; nofun)
    rw [spoilt]
    exact ⟨rfl, rfl, rfl, rfl⟩

/-- A scan of the pulse count leaves what is not measured, but for the two timers. -/
theorem Feeder.scan_same (c : Channel Nat) (x : Feeder) : (x.scan c).cfg = x.cfg ∧ (x.scan c).mix = x.mix ∧ (x.scan c).rate = x.rate ∧
    (x.scan c).state = x.state ∧ (x.scan c).setpoint = x.setpoint ∧ (x.scan c).trim = x.trim := by
  unfold Feeder.scan
  repeat' split
  all_goals exact ⟨rfl, rfl, rfl, rfl, rfl, rfl⟩

/-! ## The local input (R100, R110, R111) -/

/-- A feeder once its local input `sw` is taken; `before` is the input of the scan before. -/
def Feeder.takenOver (sw before : Channel Bool) (wanted : Bool) (x : Feeder) : Feeder :=
  if sw.valid = false then x
  else if sw.value = true then (if x.state = .inLocal then x else x.entered .inLocal x.setpoint)
  else if x.state = .inLocal then (if wanted then x.entered .running (min x.rate x.cfg.maxRate) else x.entered .stopped 0)
  else if sw = before then x else x.refound true wanted

/-- Feeder f has taken its local input in from p to q; its burner has still to follow. -/
structure TakenOver (before : Channel Bool) (f : Fin 6) (p q : Part) : Prop where
  frame : ChangesOnly {.drive f, .driveOut, .events, .alloc} p q
  feeder : q.feeders[f] = p.feeders[f].takenOver p.field.image.inLocal[f] before (p.wanted f)
  entered : p.field.image.inLocal[f] = ⟨true, true⟩ → p.feeders[f].state ≠ .inLocal →
    q.commands f = (0, false, false) ∧ Reported ⟨.feeder, f.val, 1, false, p.now, 0, none⟩ q
  left : p.field.image.inLocal[f] = ⟨false, true⟩ → p.feeders[f].state = .inLocal →
    Reported ⟨.feeder, f.val, 0, false, p.now, 0, none⟩ q

section
variable {p q : Part} {b : Fin 2} {f g : Fin 6} {before : Channel Bool}

/-- A takeover before its burner follows. -/
def Part.takeoverOf (f : Fin 6) (s : FeederState) (sp v : Nat) (p : Part) : Part :=
  (((p.feederTo f s sp).offer .feeder f.val v).freeze p.feeders[f].cfg.burner)

theorem Part.takeover_shows (f : Fin 6) (s : FeederState) (sp v : Nat) (p : Part) :
    ChangesOnly {.drive f, .driveOut, .events, .alloc} p (p.takeoverOf f s sp v) ∧
      (p.takeoverOf f s sp v).driven f = (p.feeders[f].entered s sp, (p.feeders[f].entered s sp).commands) ∧
      Reported ⟨.feeder, f.val, v, false, p.now, 0, none⟩ (p.takeoverOf f s sp v) := by
  have moved := p.feederTo_frame f s sp
  have own := p.feederTo_driven f s sp
  unfold Part.takeoverOf
  generalize p.feederTo f s sp = q at *
  have offered := q.offer_frame .feeder f.val v false 0 none
  have reported := q.offer_reported .feeder f.val v false 0 none
  have frozen := Part.freeze_frame p.feeders[f].cfg.burner (q.offer .feeder f.val v)
  rw [moved.now_eq] at reported
  exact ⟨(moved.mono.next offered).next frozen, (frozen.driven_eq f).trans ((offered.driven_eq f).trans own), frozen.reported reported⟩

/-- A feeder's takeover leaves the others alone. -/
theorem Part.takeoverOf_follows (ne : f ≠ g) (s : FeederState) (sp v : Nat) (p : Part) : Follows f p (p.takeoverOf g s sp v) := by
  have moved := p.feederTo_frame g s sp
  have other := p.feederTo_driven_other ne s sp
  have image : (p.feederTo g s sp).field.image = p.field.image := moved.same .image (by simp)
  have burners (c : Fin 2) := moved.burner_eq c
  have first : Follows f p (p.feederTo g s sp) := .of_driven moved.started_eq image other fun c => by rw [burners]; exact ⟨rfl, rfl⟩
  exact first.trans (.of_frame ((Part.offer_frame .feeder g.val v false 0 none _).andThen (Part.freeze_frame _ _)))

theorem Part.enterLocal_eq (f : Fin 6) (p : Part) :
    p.enterLocal f = (p.takeoverOf f .inLocal p.feeders[f].setpoint 1).checkStopped p.feeders[f].cfg.burner := rfl

theorem Part.leaveLocal_eq (f : Fin 6) (p : Part) : p.leaveLocal f =
    (if p.wanted f then p.takeoverOf f .running (min p.feeders[f].rate p.feeders[f].cfg.maxRate) 0
      else p.takeoverOf f .stopped 0 0).checkStopped p.feeders[f].cfg.burner := by
  unfold Part.leaveLocal
  split <;> rfl

theorem Part.takeLocal_follows (ne : f ≠ g) (p : Part) : Follows f p (p.takeLocal before g) := by
  have settled : Follows f p (p.settleFeeder g) := by
    have frame := p.settleFeeder_frame g
    have burners (c : Fin 2) := frame.burner_eq c
    exact .of_driven frame.started_eq (frame.same .image (by simp)) (p.settleFeeder_driven_other ne) fun c => by rw [burners]; exact ⟨rfl, rfl⟩
  have entered : Follows f p (p.enterLocal g) := by
    rw [p.enterLocal_eq g]
    exact (Part.takeoverOf_follows ne ..).trans (Part.checkStopped_follows _ _)
  have left : Follows f p (p.leaveLocal g) := by
    rw [p.leaveLocal_eq g]
    exact Follows.trans (ite_keeps (I := Follows f p) (fun _ => Part.takeoverOf_follows ne ..) fun _ => Part.takeoverOf_follows ne ..)
      (Part.checkStopped_follows _ _)
  exact ite_keeps (I := Follows f p) (fun _ => .refl p) fun _ => ite_keeps (fun _ => ite_keeps (fun _ => .refl p) fun _ => entered) fun _ =>
    ite_keeps (fun _ => left) fun _ => ite_keeps (fun _ => .refl p) fun _ => settled

/-- The local input of a used feeder taken; then the end of its burner's stopping is looked for (R87, R100). -/
theorem Part.takeLocal_at (started : p.started = true) (used : p.feeders[f].cfg.used = true) : ∃ q, TakenOver before f p q ∧
    (p.takeLocal before f = q ∨ p.takeLocal before f = q.checkStopped p.feeders[f].cfg.burner) := by
  have whole {v w : Bool} (value : p.field.image.inLocal[f].value = v) (valid : p.field.image.inLocal[f].valid = w) :
      p.field.image.inLocal[f] = ⟨v, w⟩ := by rw [← value, ← valid]
  have stays (same : p.feeders[f].takenOver p.field.image.inLocal[f] before (p.wanted f) = p.feeders[f])
      (entered : p.field.image.inLocal[f] = ⟨true, true⟩ → p.feeders[f].state = .inLocal)
      (left : p.field.image.inLocal[f] = ⟨false, true⟩ → p.feeders[f].state ≠ .inLocal) : TakenOver before f p p :=
    ⟨.refl, same.symm, fun e n => absurd (entered e) n, fun e n => absurd n (left e)⟩
  cases valid : p.field.image.inLocal[f].valid with
  | false =>
    refine ⟨p, stays (if_pos valid) (fun e => ?_) (fun e => ?_), .inl (if_pos (by simp [valid, -Fin.getElem_fin]))⟩ <;>
      exact absurd (valid.symm.trans (congrArg Channel.valid e)) nofun
  | true =>
    have free : ¬ ((!p.started || !p.feeders[f].cfg.used || !p.field.image.inLocal[f].valid) = true) := by
      rw [started, used, valid]
      decide
    have taking : p.takeLocal before f = if p.field.image.inLocal[f].value then (if p.feeders[f].state = .inLocal then p else p.enterLocal f)
      else if p.feeders[f].state = .inLocal then p.leaveLocal f
      else if p.field.image.inLocal[f] = before then p else p.settleFeeder f := if_neg free
    rw [taking]
    have taken (wanted : Bool) : p.feeders[f].takenOver p.field.image.inLocal[f] before wanted = _ := if_neg (by rw [valid]; nofun)
    cases value : p.field.image.inLocal[f].value with
    | true =>
      have sw := whole value valid
      rw [if_pos rfl]
      by_cases inLocal : p.feeders[f].state = .inLocal
      · rw [if_pos inLocal]
        refine ⟨p, stays ?_ (fun _ => inLocal) (fun e => absurd (sw.symm.trans e) nofun), .inl rfl⟩
        rw [taken, if_pos value, if_pos inLocal]
      · rw [if_neg inLocal, Part.enterLocal_eq]
        obtain ⟨frame, own, reported⟩ := p.takeover_shows f .inLocal p.feeders[f].setpoint 1
        generalize p.takeoverOf f .inLocal p.feeders[f].setpoint 1 = q at *
        refine ⟨q, ⟨frame, ?_, fun _ _ => ⟨congrArg Prod.snd own, reported⟩, fun e => absurd (sw.symm.trans e) nofun⟩, .inr rfl⟩
        rw [taken, if_pos value, if_neg inLocal]
        exact congrArg Prod.fst own
    | false =>
      have sw := whole value valid
      rw [if_neg (by decide)]
      by_cases inLocal : p.feeders[f].state = .inLocal
      · rw [if_pos inLocal, Part.leaveLocal_eq]
        have left (s : FeederState) (sp : Nat) (is : p.feeders[f].takenOver p.field.image.inLocal[f] before (p.wanted f) = p.feeders[f].entered s sp) :
            TakenOver before f p (p.takeoverOf f s sp 0) := by
          obtain ⟨frame, own, reported⟩ := p.takeover_shows f s sp 0
          generalize p.takeoverOf f s sp 0 = q at *
          exact ⟨frame, (congrArg Prod.fst own).trans is.symm, fun e => absurd (sw.symm.trans e) nofun, fun _ _ => reported⟩
        rw [taken, if_neg (by rw [value]; decide), if_pos inLocal] at left
        cases wanted : p.wanted f with
        | true => exact ⟨_, left .running _ (if_pos wanted), .inr rfl⟩
        | false => exact ⟨_, left .stopped _ (if_neg (by rw [wanted]; decide)), .inr rfl⟩
      · rw [if_neg inLocal]
        by_cases same : p.field.image.inLocal[f] = before
        · rw [if_pos same]
          refine ⟨p, stays ?_ (fun e => absurd (sw.symm.trans e) nofun) (fun _ => inLocal), .inl rfl⟩
          rw [taken, if_neg (by rw [value]; decide), if_neg inLocal, if_pos same]
        · rw [if_neg same]
          have own := Part.settleFeeder_self started used
          have input : p.inputGood f = true := by rw [Part.inputGood, valid, value]; rfl
          rw [input] at own
          refine ⟨p.settleFeeder f, ⟨(p.settleFeeder_frame f).mono, ?_, fun e => absurd (sw.symm.trans e) nofun,
            fun _ n => absurd n inLocal⟩, .inl rfl⟩
          rw [taken, if_neg (by rw [value]; decide), if_neg inLocal, if_neg same]
          exact own

end

end Sys2Proof.Machine
end

section
/-! SUPPORT. The feeders once the image of a scan is handed on (R100 to R104, R110, R111, R180). -/

namespace Sys2Proof.Machine

-- One proof at a time: the whole package as one text must not start a thread for each of them.
set_option Elab.async false

open Sys2Proof.Config

section
variable {p q u y : Part} {b : Fin 2} {f g : Fin 6} {before : Vector (Channel Bool) 6}

theorem Part.scanFeeder_follows (ne : f ≠ g) (p : Part) : Follows f p (p.scanFeeder before g) :=
  ite_keeps (I := Follows f p) (fun _ => .trans (q := p.updFeeder g (Feeder.scan p.field.image.pulses[g]))
    (.of_driven rfl rfl (p.updFeeder_driven_other ne (Feeder.scan p.field.image.pulses[g])) fun _ => ⟨rfl, rfl⟩)
    (Part.takeLocal_follows ne _)) fun _ => .refl p

theorem Part.scanFlame_frame (b : Fin 2) (p : Part) : ChangesOnly {.burner b} p (p.scanFlame b) := .ite (p.updBurner_frame b _) .refl

theorem Part.scanFlame_follows (b : Fin 2) (p : Part) : Follows f p (p.scanFlame b) := by
  refine ite_keeps (I := Follows f p) (fun _ => ?_) fun _ => .refl p
  have frame := p.updBurner_frame b (Burner.seeFlame p.now
    (p.field.image.flame[b].valid && decide (p.burners[b].cfg.threshold ≤ p.field.image.flame[b].value)) (p.flameBelowWeak b))
  refine .of_driven frame.started_eq rfl (frame.driven_eq f) fun c => ?_
  by_cases e : c = b
  · subst e
    have own : (p.updBurner c (Burner.seeFlame p.now (p.field.image.flame[c].valid &&
      decide (p.burners[c].cfg.threshold ≤ p.field.image.flame[c].value)) (p.flameBelowWeak c))).burners[c] = _ := set_self ..
    rw [own]
    exact ⟨rfl, rfl⟩
  · have other := frame.burner_eq c (by simp [e])
    rw [other]
    exact ⟨rfl, rfl⟩

/-- From p to q the hand-on has gone on past feeder f. -/
structure HandedOn (f : Fin 6) (p q : Part) : Prop where
  follows : Follows f p q
  frame : ChangesOnly scanBlocks p q

theorem HandedOn.refl (p : Part) : HandedOn f p p := ⟨.refl p, .refl⟩

theorem HandedOn.trans {r : Part} (h : HandedOn f p q) (g : HandedOn f q r) : HandedOn f p r :=
  ⟨h.follows.trans g.follows, h.frame.trans g.frame⟩

theorem burnerBlocks_scan (b : Fin 2) : burnerBlocks b ⊆ scanBlocks :=
  ((Part.oneBurner b).trans Part.burnersIn).trans (Set.subset_union_left.trans Set.subset_union_right)

theorem Part.scanFlame_handedOn (b : Fin 2) (p : Part) : HandedOn f p (p.scanFlame b) :=
  ⟨p.scanFlame_follows b, (p.scanFlame_frame b).mono ((Set.singleton_subset_iff.2 (.inl (.inl (.inl (.inl rfl))))).trans (burnerBlocks_scan b))⟩

theorem Part.scanPermit_handedOn (b : Fin 2) (p : Part) : HandedOn f p (p.scanPermit b) :=
  ⟨p.scanPermit_follows b, (p.scanPermit_frame b).mono (burnerBlocks_scan b)⟩

@[simp] theorem mem_scanBlocks {x : Block} : x ∈ scanBlocks ↔ ((x ∈ ({.grate, .ext, .fanOut} : Set Block) ∨
    x ∈ Set.range Block.fan) ∨ x ∈ leaveBlocks 1) ∨ x ∈ settleAllBlocks := Iff.rfl

theorem fanBlocks_scan (n : Fin 4) : fanBlocks n ⊆ scanBlocks := by
  rintro x ((rfl | rfl) | hx)
  · exact .inl (.inl (.inr ⟨n, rfl⟩))
  · exact .inl (.inl (.inl (.inr (.inr rfl))))
  · exact .inl (.inr hx)

theorem Part.handRest_frame (p : Part) : ChangesOnly scanBlocks p p.handRest := by
  have fans : ChangesOnly scanBlocks p (p.forAll fanIds Part.scanFan) :=
    .forAll (fun n q => (q.scanFan_frame n).mono (fanBlocks_scan n)) _ p
  have grate : ChangesOnly scanBlocks (p.forAll fanIds Part.scanFan) (p.forAll fanIds Part.scanFan).scanGrate :=
    (Part.updGrate_frame _ _).mono (Set.singleton_subset_iff.2 (.inl (.inl (.inl (.inl rfl)))))
  have ext := ChangesOnly.forAll (T := scanBlocks) (f := Part.scanExternal)
    (fun n q => (q.scanExternal_frame n).mono (Set.singleton_subset_iff.2 (.inl (.inl (.inl (.inr (.inl rfl)))))))
    (List.finRange 16) (p.forAll fanIds Part.scanFan).scanGrate
  exact ((fans.trans grate).trans ext).next (Part.settleAll_frame _) Set.subset_union_right

/-- The hand-on, its parts named (R180). -/
theorem Part.handScan_eq (before : Vector (Channel Bool) 6) (p : Part) : p.handScan before =
    (((((p.settlePoint 0).forAll feederIds (Part.scanFeeder before)).forAll burnerIds Part.scanFlame).forAll burnerIds
      Part.scanPermit)).handRest := rfl

/-- A used feeder's turn in the hand-on, and what comes before and after it. -/
theorem Part.handScan_at (before : Vector (Channel Bool) 6) (started : p.started = true) (used : p.feeders[f].cfg.used = true) :
    ∃ u y, HandedOn f p u ∧ TakenOver before[f] f (u.updFeeder f (Feeder.scan u.field.image.pulses[f])) y ∧
      HandedOn f y (p.handScan before) := by
  have first : HandedOn f p (p.settlePoint 0) := ⟨(follows_carries f).settlePoint 0 false p,
    (p.settlePoint_frame 0 false).1.mono (Set.subset_union_left.trans Set.subset_union_right)⟩
  obtain ⟨u, upTo, after⟩ := Part.forAll_around (R := HandedOn f) (f := Part.scanFeeder before) (a := f) .refl .trans
    (fun g q ne => ⟨q.scanFeeder_follows (Ne.symm ne), (q.scanFeeder_frame before g).mono Set.subset_union_right⟩)
    (List.nodup_finRange 6) (List.mem_finRange f) (p.settlePoint 0)
  have upTo := first.trans upTo
  have rest (q : Part) : HandedOn f q (((q.forAll burnerIds Part.scanFlame).forAll burnerIds Part.scanPermit)).handRest :=
    ((Part.forAll_rel .refl .trans (fun b q => q.scanFlame_handedOn b) _ q).trans
      (Part.forAll_rel .refl .trans (fun b q => q.scanPermit_handedOn b) _ _)).trans
      ⟨(follows_carries f).handRest _, Part.handRest_frame _⟩
  have after := after.trans (rest _)
  rw [← Part.handScan_eq] at after
  have cfg : u.feeders[f].cfg = p.feeders[f].cfg := Feeder.plain_cfg upTo.follows.turns.driven.plain
  have up : u.started = true := upTo.follows.started.trans started
  have inUse : u.feeders[f].cfg.used = true := by rw [cfg]; exact used
  have scanned : u.scanFeeder before f = (u.updFeeder f (Feeder.scan u.field.image.pulses[f])).takeLocal before[f] f :=
    if_pos (by rw [up, inUse]; rfl)
  have own : (u.updFeeder f (Feeder.scan u.field.image.pulses[f])).feeders[f] = u.feeders[f].scan u.field.image.pulses[f] :=
    Part.updFeeder_self ..
  rw [scanned] at after
  obtain ⟨y, taken, ends⟩ := Part.takeLocal_at (p := u.updFeeder f (Feeder.scan u.field.image.pulses[f])) (before := before[f]) up
    (f := f) (by rw [own, (Feeder.scan_same _ _).1]; exact inUse)
  refine ⟨u, y, upTo, taken, HandedOn.trans ?_ after⟩
  rcases ends with e | e <;> rw [e]
  · exact .refl y
  · exact ⟨Part.checkStopped_follows _ y, (y.checkStopped_frame _).mono (burnerBlocks_scan _)⟩

end

end Sys2Proof.Machine
end

section
/-! SUPPORT. What a scan makes of each used feeder (R100 to R104, R110, R111). -/

namespace Sys2Proof.Machine

-- One proof at a time: the whole package as one text must not start a thread for each of them.
set_option Elab.async false

open Sys2Proof.Config

/-- The measured items of a feeder that has only been driven or mixed since. -/
theorem Feeder.plain_all {x y : Feeder} (h : y.plain = x.plain) : y.baseline = x.baseline ∧ y.bucket = x.bucket ∧ y.whole = x.whole ∧
    y.measBad = x.measBad ∧ y.rate = x.rate := by
  have baseline := congrArg Feeder.baseline h
  have bucket := congrArg Feeder.bucket h
  have whole := congrArg Feeder.whole h
  have measBad := congrArg Feeder.measBad h
  have rate := congrArg Feeder.rate h
  exact ⟨baseline, bucket, whole, measBad, rate⟩

section
variable (sw before : Channel Bool) (wanted : Bool) (x : Feeder)

theorem Feeder.refound_plain (good wanted : Bool) : (x.refound good wanted).plain = x.plain := by
  unfold Feeder.refound
  repeat' split
  all_goals rfl

theorem Feeder.takenOver_plain : (x.takenOver sw before wanted).plain = x.plain := by
  unfold Feeder.takenOver
  repeat' split
  all_goals first | rfl | exact x.refound_plain ..

/-- What the local input makes of a feeder, by its value and validity (R100, R110, R111). -/
theorem Feeder.takenOver_shows : let y := x.takenOver sw before wanted
    (sw = ⟨true, true⟩ → y.state = .inLocal ∧ (x.state ≠ .inLocal → y.trim = 0)) ∧
    (sw = ⟨false, true⟩ → x.state = .inLocal → y =
      if wanted then x.entered .running (min x.rate x.cfg.maxRate) else x.entered .stopped 0) ∧
    (sw = ⟨false, true⟩ → x.state ≠ .inLocal → y = if sw = before then x else x.refound true wanted) ∧
    (sw.valid = false → y = x) := by
  refine ⟨?_, ?_, ?_, fun bad => if_pos bad⟩ <;> rintro rfl
  · unfold Feeder.takenOver
    rw [if_neg (by decide), if_pos rfl]
    split
    · next inLocal => exact ⟨inLocal, fun n => absurd inLocal n⟩
    · exact ⟨rfl, fun _ => rfl⟩
  · intro inLocal
    unfold Feeder.takenOver
    rw [if_neg (by decide), if_neg (by decide), if_pos inLocal]
  · intro remote
    unfold Feeder.takenOver
    rw [if_neg (by decide), if_neg (by decide), if_neg remote]

/-- A remote feeder's state found again, where it was RUNNING or STOPPED. -/
theorem Feeder.refound_state (remote : x.state ≠ .inLocal) :
    (x.refound true wanted).state = if wanted then .running else .stopped := by
  unfold Feeder.refound
  rw [if_pos ⟨rfl, remote⟩]
  cases wanted with
  | true =>
    change (if x.state = .running then x else x.entered .running x.setpoint).state = .running
    split
    · next e => exact e
    · rfl
  | false =>
    change (if x.state = .stopped then x else x.entered .stopped 0).state = .stopped
    split
    · next e => exact e
    · rfl

end

section
variable {p q u : Part} {f : Fin 6} {before : Vector (Channel Bool) 6}

/-- Where the burner of f stands at the end as it did, neither it nor f has moved before or after f's own turn. -/
theorem HandedOn.still {y : Part} {b : Fin 2} (own : p.feeders[f].cfg.burner = b) (first : HandedOn f p u)
    (burners : ∀ c : Fin 2, y.burners[c] = u.burners[c]) (image : y.field.image = u.field.image)
    (cfg : y.feeders[f].cfg = u.feeders[f].cfg) (rest : HandedOn f y q) (same : q.burners[b].state = p.burners[b].state) :
    u.feeders[f] = p.feeders[f] ∧ q.feeders[f] = y.feeders[f] ∧ u.burners[b].state = p.burners[b].state := by
  have cfg' : u.feeders[f].cfg = p.feeders[f].cfg := Feeder.plain_cfg first.follows.turns.driven.plain
  have before := first.follows.goes b own
  have after := rest.follows.goes b (by rw [cfg, cfg']; exact own)
  rw [Part.permitGood_congr (image.trans first.follows.turns.image), burners, same] at after
  rcases before with ⟨state, feeder⟩ | rises
  · rcases after with ⟨-, feeder'⟩ | rises'
    · exact ⟨feeder, feeder', state⟩
    · rw [state] at rises'
      exact absurd rises' (lt_irrefl _)
  · rcases after with ⟨state', -⟩ | rises'
    · rw [state'] at rises
      exact absurd rises (lt_irrefl _)
    · exact absurd (rises.trans rises') (lt_irrefl _)

/-- What the hand-on of a scan makes of a used feeder. -/
theorem Part.handScan_feeder (before : Vector (Channel Bool) 6) (started : p.started = true) (used : p.feeders[f].cfg.used = true) :
    let q := p.handScan before
    let x := p.feeders[f]
    let y := q.feeders[f]
    let pulse := p.field.image.pulses[f]
    let sw := p.field.image.inLocal[f]
    let b := x.cfg.burner
    (pulse.valid = true → y.baseline = some pulse.value ∧ y.measBad = x.measBad ∧
      (x.baseline = none → y.bucket = x.bucket) ∧
      ∀ base, x.baseline = some base → y.bucket = x.bucket + (pulse.value + 65536 - base) % 65536) ∧
    (pulse.valid = false → y.baseline = none ∧ y.whole = false ∧ y.measBad = true ∧ y.bucket = x.bucket) ∧
    y.rate = x.rate ∧
    (sw = ⟨true, true⟩ → y.state = .inLocal ∧
      (x.state ≠ .inLocal → Reported ⟨.feeder, f.val, 1, false, p.now, 0, none⟩ q ∧ y.trim = 0 ∧
        q.field.output.speed[f] = 0 ∧ q.field.output.run[f] = false ∧ q.field.output.remote[f] = false)) ∧
    (sw = ⟨false, true⟩ → x.state = .inLocal → (y.state = .running ∨ y.state = .stopped) ∧
      Reported ⟨.feeder, f.val, 0, false, p.now, 0, none⟩ q) ∧
    (sw = ⟨false, true⟩ → q.burners[b].state = p.burners[b].state →
      (x.state = .inLocal → p.wanted f = true → y.state = .running ∧ y.setpoint = min x.rate x.cfg.maxRate) ∧
      (x.state = .inLocal → p.wanted f = false → y.state = .stopped ∧ y.setpoint = 0) ∧
      (x.state = .running ∨ x.state = .stopped → y.state =
        if sw = before[f] then x.state else if p.wanted f then .running else .stopped)) ∧
    (sw.valid = false → y.state = x.state) := by
  obtain ⟨u, y, first, taken, rest⟩ := Part.handScan_at before started used
  have own : (u.updFeeder f (Feeder.scan u.field.image.pulses[f])).feeders[f] = u.feeders[f].scan u.field.image.pulses[f] :=
    Part.updFeeder_self ..
  have wanted : u.burners[p.feeders[f].cfg.burner].state = p.burners[p.feeders[f].cfg.burner].state → u.feeders[f] = p.feeders[f] →
      (u.updFeeder f (Feeder.scan u.field.image.pulses[f])).wanted f = p.wanted f := fun state feeder => by
    have items := first.follows.items p.feeders[f].cfg.burner
    have at_ : (u.updFeeder f (Feeder.scan u.field.image.pulses[f])).burners = u.burners := rfl
    obtain ⟨cfg, mix, -, -, setpoint, -⟩ := Feeder.scan_same u.field.image.pulses[f] p.feeders[f]
    rw [Part.wanted_eq, Part.wanted_eq]
    unfold Feeder.wantedBy
    simp only [own, feeder, cfg, mix, setpoint, at_, state, items]
  have burners (c : Fin 2) : y.burners[c] = u.burners[c] := taken.frame.burner_eq c
  have image' : y.field.image = u.field.image := taken.frame.same .image (by simp)
  have now' : (u.updFeeder f (Feeder.scan u.field.image.pulses[f])).now = p.now := first.frame.now_eq
  have scanImage : (u.updFeeder f (Feeder.scan u.field.image.pulses[f])).field.image = p.field.image := first.follows.turns.image
  obtain ⟨frame, feeder, entered, left⟩ := taken
  rw [scanImage] at feeder entered left
  rw [now'] at entered left
  generalize u.updFeeder f (Feeder.scan u.field.image.pulses[f]) = v at *
  generalize p.handScan before = q at *
  have pulses : u.field.image.pulses[f] = p.field.image.pulses[f] := by rw [first.follows.turns.image]
  rw [pulses] at own
  obtain ⟨good, bad⟩ := Feeder.scan_shows p.field.image.pulses[f] u.feeders[f]
  obtain ⟨cfg, mix, rate, state, setpoint, trim⟩ := Feeder.scan_same p.field.image.pulses[f] u.feeders[f]
  rw [← own] at good bad cfg mix rate state setpoint trim
  have cfg' : u.feeders[f].cfg = p.feeders[f].cfg := Feeder.plain_cfg first.follows.turns.driven.plain
  have plain₀ : u.feeders[f].plain = p.feeders[f].plain := first.follows.turns.driven.plain
  have inLocal₀ : u.feeders[f].state = .inLocal ↔ p.feeders[f].state = .inLocal := first.follows.turns.driven.inLocal
  have kept₀ : p.field.image.inLocal[f].valid = false → u.feeders[f].state = p.feeders[f].state := first.follows.turns.driven.kept
  have image : y.field.image = p.field.image := image'.trans first.follows.turns.image
  have inLocal₃ : q.feeders[f].state = .inLocal ↔ y.feeders[f].state = .inLocal := rest.follows.turns.driven.inLocal
  have stands₃ : y.feeders[f].state = .inLocal → q.feeders[f].trim = y.feeders[f].trim ∧ q.commands f = y.commands f :=
    rest.follows.turns.driven.stands
  have drawn₃ : y.feeders[f].state = .running ∨ y.feeders[f].state = .stopped →
    q.feeders[f].state = .running ∨ q.feeders[f].state = .stopped := rest.follows.turns.driven.drawn
  have kept₃ : p.field.image.inLocal[f].valid = false → q.feeders[f].state = y.feeders[f].state := by
    rw [← image]
    exact rest.follows.turns.driven.kept
  have still (same : q.burners[p.feeders[f].cfg.burner].state = p.burners[p.feeders[f].cfg.burner].state) :=
    HandedOn.still rfl first burners image' (by
      rw [Feeder.plain_cfg (x := v.feeders[f]) (by rw [feeder, Feeder.takenOver_plain]), cfg]) rest same
  obtain ⟨baseline₀, bucket₀, -, measBad₀, rate₀⟩ := Feeder.plain_all plain₀
  obtain ⟨inLocal₁, inLocal₂, remote₂, held⟩ := Feeder.takenOver_shows p.field.image.inLocal[f] before[f] (v.wanted f) v.feeders[f]
  have plain : q.feeders[f].plain = v.feeders[f].plain := Eq.trans rest.follows.turns.driven.plain (by
    rw [Part.driven, feeder, Feeder.takenOver_plain])
  obtain ⟨baseline, bucket, whole, measBad, rate'⟩ := Feeder.plain_all plain
  rw [← feeder] at inLocal₁ inLocal₂ remote₂ held
  rw [baseline₀, bucket₀, measBad₀] at good
  rw [bucket₀] at bad
  rw [state] at entered left inLocal₁ inLocal₂ remote₂
  dsimp only
  rw [baseline, bucket, whole, measBad, rate', rate, rate₀]
  refine ⟨good, bad, rfl, fun sw => ?_, fun sw was => ?_, fun sw same => ?_, fun not => ?_⟩
  · obtain ⟨inLocal, zero⟩ := inLocal₁ sw
    refine ⟨inLocal₃.2 inLocal, fun was => ?_⟩
    have was' := mt inLocal₀.1 was
    obtain ⟨out, reported⟩ := entered sw was'
    obtain ⟨trim', out'⟩ := stands₃ inLocal
    have commands := out'.trans out
    have speed := congrArg Prod.fst commands
    have run := congrArg (fun c => c.2.1) commands
    have remote := congrArg (fun c => c.2.2) commands
    exact ⟨rest.frame.reported reported, trim'.trans (zero was'), speed, run, remote⟩
  · have was' := inLocal₀.2 was
    have out := inLocal₂ sw was'
    refine ⟨drawn₃ ?_, rest.frame.reported (left sw was')⟩
    rw [out]
    split
    · exact .inl rfl
    · exact .inr rfl
  · obtain ⟨before', after, burner⟩ := still same
    have wants := wanted burner before'
    rw [after]
    rw [before'] at inLocal₂ remote₂ cfg rate
    rw [wants] at inLocal₂ remote₂
    refine ⟨fun was on => ?_, fun was not => ?_, fun was => ?_⟩
    · rw [inLocal₂ sw was, on, if_pos rfl]
      exact ⟨rfl, by rw [Feeder.entered, rate, cfg]⟩
    · rw [inLocal₂ sw was, not]
      exact ⟨rfl, rfl⟩
    · have remote : p.feeders[f].state ≠ .inLocal := by rcases was with e | e <;> rw [e] <;> nofun
      rw [remote₂ sw remote]
      split
      · rw [state, before']
      · exact Feeder.refound_state _ _ (by rw [state, before']; exact remote)
  · exact (kept₃ not).trans ((congrArg Feeder.state (held not)).trans (state.trans (kept₀ not)))

end

end Sys2Proof.Machine
end

section
/-! SUPPORT. The flame and the permit of each used burner as a scan brings them (R79, R81, R90). -/

namespace Sys2Proof.Machine

-- One proof at a time: the whole package as one text must not start a thread for each of them.
set_option Elab.async false

open Sys2Proof.Config

/-- From p to q burner b shows the flame it showed. -/
structure Sees (b : Fin 2) (p q : Part) : Prop where
  cfg : q.burners[b].cfg = p.burners[b].cfg
  flame : q.burners[b].flame = p.burners[b].flame
  since : q.burners[b].flameSince = p.burners[b].flameSince

/-- Burner b without its permit stands as it did, is tripped, or has ended its stopping. -/
def Barred (x y : Burner) : Prop :=
  (y.state = x.state ∧ y.heldStep = x.heldStep ∧ y.heldUntil = x.heldUntil ∧
    (x.state = .held → x.causePermit = true → y.causePermit = true)) ∨
  y.state = .tripped ∨ (x.state = .stopping ∧ y.state = .off)

/-- From p to q the image stands, and burner b is barred where it has no permit. -/
structure Bars (b : Fin 2) (p q : Part) : Prop where
  now : q.now = p.now
  image : q.field.image = p.field.image
  barred : p.permitGood b = false → Barred p.burners[b] q.burners[b]

/-- From p to q burner b shows the flame it showed, and is barred where it has no permit. -/
structure Watches (b : Fin 2) (p q : Part) : Prop where
  sees : Sees b p q
  bars : Bars b p q

theorem Barred.refl (x : Burner) : Barred x x := .inl ⟨rfl, rfl, rfl, fun _ => id⟩

theorem Barred.trans {x y z : Burner} (h : Barred x y) (g : Barred y z) : Barred x z := by
  rcases g with ⟨state', step', time', cause'⟩ | tripped | ⟨stops, off⟩
  · rcases h with ⟨state, step, time, cause⟩ | tripped | ⟨stops, off⟩
    · exact .inl ⟨state'.trans state, step'.trans step, time'.trans time, fun held c => cause' (state.trans held) (cause held c)⟩
    · exact .inr (.inl (state'.trans tripped))
    · exact .inr (.inr ⟨stops, state'.trans off⟩)
  · exact .inr (.inl tripped)
  · rcases h with ⟨state, -⟩ | tripped | ⟨-, off'⟩
    · exact .inr (.inr ⟨state.symm.trans stops, off⟩)
    · exact absurd (tripped.symm.trans stops) nofun
    · exact absurd (off'.symm.trans stops) nofun

section
variable {p q r : Part} {b c : Fin 2} {T : Set Block}

theorem Sees.trans (h : Sees b p q) (g : Sees b q r) : Sees b p r :=
  ⟨g.cfg.trans h.cfg, g.flame.trans h.flame, g.since.trans h.since⟩

theorem Bars.trans (h : Bars b p q) (g : Bars b q r) : Bars b p r :=
  ⟨g.now.trans h.now, g.image.trans h.image, fun bad => (h.barred bad).trans (g.barred ((Part.permitGood_congr h.image b).trans bad))⟩

theorem Watches.trans (h : Watches b p q) (g : Watches b q r) : Watches b p r := ⟨h.sees.trans g.sees, h.bars.trans g.bars⟩

theorem Watches.of_same (now : q.now = p.now) (image : q.field.image = p.field.image) (burner : q.burners[b] = p.burners[b]) :
    Watches b p q := ⟨⟨by rw [burner], by rw [burner], by rw [burner]⟩, now, image, fun _ => burner ▸ .refl _⟩

theorem Watches.refl (p : Part) : Watches b p p := .of_same rfl rfl rfl

theorem Watches.of_frame (h : ChangesOnly T p q)
    (hT : Block.clock ∉ T ∧ Block.image ∉ T ∧ Block.burner b ∉ T := by simp) : Watches b p q :=
  .of_same (h.now_eq hT.1) (h.same .image hT.2.1) (h.burner_eq b hT.2.2)

/-- A burner's change of state, where it is another's, or a way that one without its permit may go. -/
theorem Part.burnerTo_watches {s : BurnerState} {fix : Burner → Burner} (mark : Bool)
    (keeps : ∀ x : Burner, (fix x).cfg = x.cfg ∧ (fix x).state = x.state ∧ (fix x).flame = x.flame ∧ (fix x).flameSince = x.flameSince)
    (way : b = c → p.permitGood b = false → s = .tripped ∨ (p.burners[b].state = .stopping ∧ s = .off)) :
    Watches b p (p.burnerTo c s fix mark) := by
  have frame := p.burnerTo_frame c s fix mark
  by_cases e : b = c
  · subst e
    have self := p.burnerTo_burner b s fix mark
    obtain ⟨cfg, state, flame, since⟩ := keeps (p.burners[b].cleared s)
    refine ⟨⟨?_, ?_, ?_⟩, frame.now_eq, frame.same .image (by simp), fun bad => .inr ?_⟩
    · rw [self, cfg]; rfl
    · rw [self, flame]; rfl
    · rw [self, since]; rfl
    · rw [self, state]
      exact way rfl bad
  · exact .of_frame frame (by simp [e])

theorem Part.tripBurner_watches (c : Fin 2) (p : Part) : Watches b p (p.tripBurner c) :=
  ite_keeps (I := Watches b p) (fun _ => .refl p) fun _ => Part.burnerTo_watches false (fun _ => ⟨rfl, rfl, rfl, rfl⟩) fun _ _ => .inl rfl

theorem Part.checkStopped_watches (c : Fin 2) (p : Part) : Watches b p (p.checkStopped c) :=
  ite_keeps (I := Watches b p) (fun stops => Part.burnerTo_watches false (fun _ => ⟨rfl, rfl, rfl, rfl⟩)
    fun e _ => .inr ⟨by rw [e]; exact stops.1, rfl⟩) fun _ => .refl p

theorem Part.resume_watches (permit : b = c → p.permitGood b = true) : Watches b p (p.resume c) := by
  have entered (s : BurnerState) (fix : Burner → Burner) (keeps : ∀ x : Burner, (fix x).cfg = x.cfg ∧ (fix x).state = x.state ∧
      (fix x).flame = x.flame ∧ (fix x).flameSince = x.flameSince) : Watches b p (p.burnerTo c s fix) :=
    Part.burnerTo_watches false keeps fun e bad => absurd ((permit e).symm.trans bad) nofun
  unfold Part.resume
  split
  · exact entered .firing _ fun _ => ⟨rfl, rfl, rfl, rfl⟩
  · next k _ =>
    exact (entered .lightWait (fun x => { x with cont := some k, lightWait := some (later p.now lightWaitTime) })
      fun _ => ⟨rfl, rfl, rfl, rfl⟩).trans (.of_frame (Part.request_frame 0 c.val _))

theorem Part.followCauses_watches (c : Fin 2) (p : Part) : Watches b p (p.followCauses c) := by
  have frame := p.followCauses_frame c
  have image : (p.followCauses c).field.image = p.field.image := frame.same .image (by simp)
  by_cases e : b = c
  · subst e
    have own := p.followCauses_burner (b := b)
    by_cases held : p.burners[b].state = .held
    · rw [if_pos held] at own
      exact ⟨⟨by rw [own], by rw [own], by rw [own]⟩, frame.now_eq, image, fun bad => .inl ⟨by rw [own], by rw [own], by rw [own],
        fun _ _ => by rw [own, bad]; rfl⟩⟩
    · rw [if_neg held] at own
      exact .of_same frame.now_eq image own
  · exact .of_frame frame (by simp [e])

theorem watches_carries (b : Fin 2) : ScanCarries (Watches b) where
  alarms x hx := .inl (.inl (.inl (.inl hx)))
  refl := .refl
  trans := .trans
  frame h := .of_frame h
  tripBurner c p := p.tripBurner_watches c
  resumes c p := by
    have caused := p.followCauses_watches (b := b) c
    refine caused.trans (ite_keeps (I := Watches b (p.followCauses c)) (fun may => Part.resume_watches fun e => ?_) fun _ => .refl _)
    rw [Part.permitGood_congr caused.bars.image, e]
    exact (Part.resumes_permitted may).2

/-! ## The turns of a burner in the hand-on -/

theorem Part.scanFeeder_watches (before : Vector (Channel Bool) 6) (f : Fin 6) (p : Part) : Watches b p (p.scanFeeder before f) := by
  refine ite_keeps (I := Watches b p) (fun on => ?_) fun _ => .refl p
  rw [Bool.and_eq_true] at on
  have scanned := p.updFeeder_frame f (Feeder.scan p.field.image.pulses[f])
  have first : Watches b p (p.updFeeder f (Feeder.scan p.field.image.pulses[f])) := .of_frame scanned
  have used : (p.updFeeder f (Feeder.scan p.field.image.pulses[f])).feeders[f].cfg.used = true := by
    rw [Part.updFeeder_self, (Feeder.scan_same _ _).1]
    exact on.2
  obtain ⟨q, taken, ends⟩ := Part.takeLocal_at (before := before[f]) (scanned.started_eq.trans on.1) used
  refine first.trans (.trans (.of_frame taken.frame) ?_)
  rcases ends with e | e <;> rw [e]
  · exact .refl q
  · exact q.checkStopped_watches _

theorem Part.scanFlame_other (ne : b ≠ c) (p : Part) : Watches b p (p.scanFlame c) := .of_frame (p.scanFlame_frame c) (by simp [ne])

theorem Part.scanPermit_other (ne : b ≠ c) (p : Part) : Watches b p (p.scanPermit c) := .of_frame (p.scanPermit_frame c) (by simp [ne])

/-- The presence of a burner's flame as an image shows it (R79). -/
def Part.flameShown (b : Fin 2) (p : Part) : Bool :=
  p.field.image.flame[b].valid && decide (p.burners[b].cfg.threshold ≤ p.field.image.flame[b].value)

theorem Part.scanFlame_own (used : p.burners[b].cfg.used = true) : (p.scanFlame b).burners[b] =
    p.burners[b].seeFlame p.now (p.flameShown b) (p.flameBelowWeak b) :=
  (congrArg (fun q : Part => q.burners[b]) (if_pos used)).trans (set_self ..)

theorem Part.scanFlame_bars (p : Part) : Bars b p (p.scanFlame b) := by
  have frame := p.scanFlame_frame b
  refine ⟨frame.now_eq, frame.same .image (by simp), fun _ => ?_⟩
  by_cases used : p.burners[b].cfg.used = true
  · rw [Part.scanFlame_own used]
    exact .inl ⟨rfl, rfl, rfl, fun _ => id⟩
  · have same : p.scanFlame b = p := if_neg used
    rw [same]
    exact .refl _

theorem Part.scanPermit_sees (p : Part) : Sees b p (p.scanPermit b) := by
  have moved (s : BurnerState) (fix : Burner → Burner) (keeps : ∀ x : Burner, (fix x).cfg = x.cfg ∧ (fix x).state = x.state ∧
      (fix x).flame = x.flame ∧ (fix x).flameSince = x.flameSince) : Sees b p (p.burnerTo b s fix) := by
    have self := p.burnerTo_burner b s fix false
    obtain ⟨cfg, -, flame, since⟩ := keeps (p.burners[b].cleared s)
    exact ⟨by rw [self, cfg]; rfl, by rw [self, flame]; rfl, by rw [self, since]; rfl⟩
  have held : Sees b p (p.hold b false) := moved .held _ fun _ => ⟨rfl, rfl, rfl, rfl⟩
  refine ite_keeps (I := Sees b p) (fun _ => ⟨rfl, rfl, rfl⟩) fun _ => ?_
  split
  · exact moved .off id fun _ => ⟨rfl, rfl, rfl, rfl⟩
  · exact held
  · exact held
  · exact held
  · exact ⟨rfl, rfl, rfl⟩

/-- A burner that loses its permit (R81, R90). -/
theorem Part.scanPermit_lost (used : p.burners[b].cfg.used = true) (bad : p.permitGood b = false) :
    (p.burners[b].state = .lightWait → (p.scanPermit b).burners[b].state = .off) ∧
    (p.burners[b].state = .igniting ∨ p.burners[b].state = .loading ∨ p.burners[b].state = .firing →
      (p.scanPermit b).burners[b].state = .held ∧ (p.scanPermit b).burners[b].causePermit = true ∧
      (p.scanPermit b).burners[b].heldStep = some p.burners[b].state ∧
      (p.scanPermit b).burners[b].heldUntil = some (later p.now (p.burners[b].cfg.held * 1000))) ∧
    (p.burners[b].state = .tripped → p.scanPermit b = p) := by
  have lost : ¬ ((!p.burners[b].cfg.used || p.permitGood b) = true) := by rw [used, bad]; decide
  have eq : p.scanPermit b = _ := if_neg lost
  have held : (p.hold b false).burners[b] = _ := p.burnerTo_burner b .held _ false
  refine ⟨fun waits => ?_, fun goes => ?_, fun out => ?_⟩
  · rw [waits] at eq
    rw [eq]
    exact congrArg Burner.state (p.burnerTo_burner b .off id false)
  · have eq : p.scanPermit b = p.hold b false := by rcases goes with e | e | e <;> rw [eq, e]
    rw [eq, held, bad]
    exact ⟨rfl, rfl, rfl, rfl⟩
  · rw [eq, out]

theorem Watches.forAll {α : Type} {f : α → Part → Part} (h : ∀ a q, Watches b q (f a q)) (l : List α) (p : Part) :
    Watches b p (p.forAll l f) := Part.forAll_rel .refl .trans h l p

/-- A burner's two turns in the hand-on, and what comes before, between and after them. -/
theorem Part.handScan_turns (before : Vector (Channel Bool) 6) (b : Fin 2) (p : Part) : ∃ u v, Watches b p u ∧
    Watches b (u.scanFlame b) v ∧ Watches b (v.scanPermit b) (p.handScan before) := by
  have first := (watches_carries b).settlePoint 0 false p
  have fed := Watches.forAll (b := b) (fun f q => q.scanFeeder_watches before f) feederIds (p.settlePoint 0)
  obtain ⟨u, upTo, after⟩ := Part.forAll_around (R := Watches b) (f := Part.scanFlame) (a := b) .refl .trans
    (fun c q ne => q.scanFlame_other (Ne.symm ne)) (List.nodup_finRange 2) (List.mem_finRange b)
    ((p.settlePoint 0).forAll feederIds (Part.scanFeeder before))
  obtain ⟨v, upTo', after'⟩ := Part.forAll_around (R := Watches b) (f := Part.scanPermit) (a := b) .refl .trans
    (fun c q ne => q.scanPermit_other (Ne.symm ne)) (List.nodup_finRange 2) (List.mem_finRange b)
    (((p.settlePoint 0).forAll feederIds (Part.scanFeeder before)).forAll burnerIds Part.scanFlame)
  have rest := after'.trans ((watches_carries b).handRest _)
  rw [← Part.handScan_eq] at rest
  exact ⟨u, v, (first.trans fed).trans upTo, after.trans upTo', rest⟩

theorem Part.permitGood_iff : p.permitGood b = true ↔ p.field.image.permit[b] = ⟨true, true⟩ := by
  unfold Part.permitGood
  cases p.field.image.permit[b] with
  | mk v ok => cases v <;> cases ok <;> decide

/-- What the hand-on of a scan makes of a used burner (R79, R81, R90). -/
theorem Part.handScan_burner (before : Vector (Channel Bool) 6) (used : p.burners[b].cfg.used = true) :
    let q := p.handScan before
    let flame := p.field.image.flame[b]
    let present := flame.valid && decide (p.burners[b].cfg.threshold ≤ flame.value)
    q.burners[b].flame = present ∧
    q.burners[b].flameSince = (if present = p.burners[b].flame then p.burners[b].flameSince else p.now) ∧
    (p.field.image.permit[b] ≠ ⟨true, true⟩ →
      (p.burners[b].state = .lightWait → q.burners[b].out) ∧
      (p.burners[b].state = .igniting ∨ p.burners[b].state = .loading ∨ p.burners[b].state = .firing →
        q.burners[b].state = .tripped ∨ (q.burners[b].state = .held ∧ q.burners[b].causePermit = true ∧
          q.burners[b].heldStep = some p.burners[b].state ∧
          q.burners[b].heldUntil = some (later p.now (p.burners[b].cfg.held * 1000))))) := by
  obtain ⟨u, v, first, between, rest⟩ := p.handScan_turns before b
  have seen := u.scanFlame_own (b := b) (by rw [first.sees.cfg]; exact used)
  have shown : u.flameShown b = p.flameShown b := by
    unfold Part.flameShown
    rw [first.bars.image, first.sees.cfg]
  have lost := (first.bars.trans u.scanFlame_bars).trans between.bars
  have after := between.sees.trans (v.scanPermit_sees.trans rest.sees)
  have cfg₁ : v.burners[b].cfg = p.burners[b].cfg := between.sees.cfg.trans (by rw [seen]; exact first.sees.cfg)
  have image : (v.scanPermit b).field.image = v.field.image := (v.scanPermit_frame b).same .image (by simp)
  have barred (bad : p.permitGood b = false) : Barred (v.scanPermit b).burners[b] (p.handScan before).burners[b] :=
    rest.bars.barred ((Part.permitGood_congr (image.trans lost.image) b).trans bad)
  generalize p.handScan before = q at *
  obtain ⟨-, flame, since⟩ := after
  rw [seen, shown] at flame since
  refine ⟨flame, since.trans ?_, fun bad => ?_⟩
  · change (if p.flameShown b = u.burners[b].flame then u.burners[b].flameSince else u.now) = _
    rw [first.sees.flame, first.sees.since, first.bars.now]
    rfl
  have bad : p.permitGood b = false := Bool.eq_false_iff.2 (mt Part.permitGood_iff.1 bad)
  obtain ⟨waits, goes, out⟩ := Part.scanPermit_lost (p := v) (b := b) (by rw [cfg₁]; exact used)
    ((Part.permitGood_congr lost.image b).trans bad)
  have tripped (t : v.burners[b].state = .tripped) : q.burners[b].state = .tripped := by
    rcases out t ▸ barred bad with ⟨state, -⟩ | tripped | ⟨stops, -⟩
    · exact state.trans t
    · exact tripped
    · exact absurd (t.symm.trans stops) nofun
  have stood (going : p.burners[b].state ≠ .stopping) : v.burners[b].state = p.burners[b].state ∨ v.burners[b].state = .tripped := by
    rcases lost.barred bad with ⟨state, -⟩ | tripped | ⟨stops, -⟩
    · exact .inl state
    · exact .inr tripped
    · exact absurd stops going
  refine ⟨fun was => ?_, fun was => ?_⟩
  · rcases stood (by rw [was]; nofun) with state | t
    · have off := waits (state.trans was)
      rcases barred bad with ⟨same, -⟩ | tripped | ⟨-, off'⟩
      · exact .inl (same.trans off)
      · exact .inr tripped
      · exact .inl off'
    · exact .inr (tripped t)
  · rcases stood (by rcases was with e | e | e <;> rw [e] <;> nofun) with state | t
    · rw [← state] at was ⊢
      obtain ⟨held, cause, step, time⟩ := goes was
      rw [cfg₁, lost.now] at time
      rcases barred bad with ⟨same, step', time', cause'⟩ | tripped | ⟨stops, -⟩
      · exact .inr ⟨same.trans held, cause' held cause, step'.trans step, time'.trans time⟩
      · exact .inl tripped
      · exact absurd (held.symm.trans stops) nofun
    · exact .inl (tripped t)

end

end Sys2Proof.Machine
end

section
/-! SUPPORT. The fans, the grate, the external conditions and FIELD SCAN FAIL as a scan brings them (R125, R126, R131, R133,
R135, R150, R179). -/

namespace Sys2Proof.Machine

-- One proof at a time: the whole package as one text must not start a thread for each of them.
set_option Elab.async false

open Sys2Proof.Config

/-- From p to q the hand-on has gone on past fan n. -/
structure FanPassed (n : Fin 4) (p q : Part) : Prop where
  fan : q.fans[n] = p.fans[n]
  frame : ChangesOnly scanBlocks p q
  quits : Quits 1 p q

section
variable {p q r : Part} {n m : Fin 4} {T : Set Block}

theorem FanPassed.refl (p : Part) : FanPassed n p p := ⟨rfl, .refl, .refl p⟩

theorem FanPassed.trans (h : FanPassed n p q) (g : FanPassed n q r) : FanPassed n p r :=
  ⟨g.fan.trans h.fan, h.frame.trans g.frame, h.quits.trans g.quits⟩

theorem Part.scanFeeder_quits (before : Vector (Channel Bool) 6) (f : Fin 6) (p : Part) : Quits 1 p (p.scanFeeder before f) := by
  refine ite_keeps (I := Quits 1 p) (fun on => ?_) fun _ => .refl p
  rw [Bool.and_eq_true] at on
  have scanned := p.updFeeder_frame f (Feeder.scan p.field.image.pulses[f])
  have used : (p.updFeeder f (Feeder.scan p.field.image.pulses[f])).feeders[f].cfg.used = true := by
    rw [Part.updFeeder_self, (Feeder.scan_same _ _).1]
    exact on.2
  obtain ⟨q, taken, ends⟩ := Part.takeLocal_at (before := before[f]) (scanned.started_eq.trans on.1) used
  refine Quits.trans (.of_frame scanned) (.trans (.of_frame taken.frame) ?_)
  rcases ends with e | e <;> rw [e]
  · exact .refl q
  · exact q.checkStopped_quits 1 _

theorem Part.scanFeeder_passed (before : Vector (Channel Bool) 6) (f : Fin 6) (p : Part) : FanPassed n p (p.scanFeeder before f) := by
  have frame := p.scanFeeder_frame before f
  exact ⟨frame.fan_eq n, frame.mono Set.subset_union_right, p.scanFeeder_quits before f⟩

theorem Part.scanPermit_quits (b : Fin 2) (p : Part) : Quits 1 p (p.scanPermit b) := by
  refine ite_keeps (I := Quits 1 p) (fun _ => .refl p) fun _ => ?_
  split
  · exact p.burnerTo_quits b _ _ _
  · exact p.burnerTo_quits b _ _ _
  · exact p.burnerTo_quits b _ _ _
  · exact p.burnerTo_quits b _ _ _
  · exact .refl p

theorem Part.scanPermit_passed (b : Fin 2) (p : Part) : FanPassed n p (p.scanPermit b) :=
  ⟨(p.scanPermit_frame b).fan_eq n, (p.scanPermit_frame b).mono (burnerBlocks_scan b), p.scanPermit_quits b⟩

theorem Part.scanFlame_passed (b : Fin 2) (p : Part) : FanPassed n p (p.scanFlame b) :=
  ⟨(p.scanFlame_frame b).fan_eq n, (p.scanFlame_handedOn (f := 0) b).frame, .of_frame (p.scanFlame_frame b)⟩

theorem Part.fanTo_quits (n : Fin 4) (s : FanState) (p : Part) : Quits 1 p (p.fanTo n s) := by
  have left : Quits 1 p (p.leaveForFan n s) := ite_keeps (I := Quits 1 p) (fun _ => .refl p) fun _ => p.withdraw_quits 1 _
  rw [Part.fanTo_eq]
  have set : ChangesOnly {.fan n, .fanOut} (p.leaveForFan n s)
      (((p.leaveForFan n s).updFan n fun x => x.cleared s).updOutput (OutputImage.fanTo n s)) :=
    ((p.leaveForFan n s).updFan_frame n _).mono.next (Part.fanOut_frame n s _)
  exact (left.trans (.of_frame set)).trans (.of_frame (Part.afterFan_frame n s _))

theorem Part.scanFan_quits (m : Fin 4) (p : Part) : Quits 1 p (p.scanFan m) := by
  have begun : Quits 1 p (if p.startComplete m then p.fanTo m .running else p) :=
    ite_keeps (I := Quits 1 p) (fun _ => p.fanTo_quits m _) fun _ => .refl p
  unfold Part.scanFan
  dsimp only
  generalize (if p.startComplete m = true then p.fanTo m .running else p) = q at begun
  exact begun.trans (.of_frame (q.updFan_frame m _))

theorem Part.scanFan_passed (ne : n ≠ m) (p : Part) : FanPassed n p (p.scanFan m) :=
  ⟨(p.scanFan_frame m).fan_eq n (by simp [ne]), (p.scanFan_frame m).mono (fanBlocks_scan m), p.scanFan_quits m⟩

/-- The rest of the hand-on behind the fans. -/
def Part.handLast (p : Part) : Part := ((p.scanGrate).forAll (List.finRange 16) Part.scanExternal).settleAll

theorem Part.handLast_blocks (p : Part) : ChangesOnly ({.grate, .ext} ∪ settleAllBlocks) p p.handLast := by
  have grate : ChangesOnly {.grate, .ext} p p.scanGrate := (Part.updGrate_frame _ _).mono
  have ext := ChangesOnly.forAll (T := {.grate, .ext}) (f := Part.scanExternal) (fun n q => (q.scanExternal_frame n).mono)
    (List.finRange 16) p.scanGrate
  exact ((grate.trans ext).mono Set.subset_union_left).next (Part.settleAll_frame _) Set.subset_union_right

theorem Part.handLast_passed (p : Part) : FanPassed n p p.handLast := by
  have grate : Quits 1 p p.scanGrate := .of_frame (Part.updGrate_frame _ _)
  have ext : Quits 1 p.scanGrate ((p.scanGrate).forAll (List.finRange 16) Part.scanExternal) :=
    Part.forAll_rel .refl .trans (fun n q => .of_frame (q.scanExternal_frame n)) _ _
  refine ⟨p.handLast_blocks.fan_eq n, p.handLast_blocks.mono ?_, (grate.trans ext).trans ((quits_carries 1).settleAll _)⟩
  refine Set.union_subset ?_ Set.subset_union_right
  simp [Set.insert_subset_iff]

/-- A fan's turn in the hand-on. -/
theorem Part.handScan_fanTurn (before : Vector (Channel Bool) 6) (n : Fin 4) (p : Part) : ∃ u, FanPassed n p u ∧
    FanPassed n (u.scanFan n) (p.handScan before) := by
  have point : FanPassed n p (p.settlePoint 0) := ⟨(p.settlePoint_frame 0 false).1.fan_eq n,
    (p.settlePoint_frame 0 false).1.mono (Set.subset_union_left.trans Set.subset_union_right), (quits_carries 1).settlePoint 0 false p⟩
  have first := ((point.trans (Part.forAll_rel .refl .trans (fun f q => q.scanFeeder_passed before f) feederIds _)).trans
    (Part.forAll_rel .refl .trans (fun b q => q.scanFlame_passed b) burnerIds _)).trans
    (Part.forAll_rel .refl .trans (fun b q => q.scanPermit_passed b) burnerIds _)
  obtain ⟨u, upTo, after⟩ := Part.forAll_around (R := FanPassed n) (f := Part.scanFan) (a := n) .refl .trans
    (fun m q ne => q.scanFan_passed (Ne.symm ne)) (List.nodup_finRange 4) (List.mem_finRange n)
    ((((p.settlePoint 0).forAll feederIds (Part.scanFeeder before)).forAll burnerIds Part.scanFlame).forAll burnerIds Part.scanPermit)
  have rest := after.trans (Part.handLast_passed (n := n) _)
  exact ⟨u, first.trans upTo, rest⟩

/-! ## A fan's flow and feedback -/

/-- A fan's flow and feedback as a scan brings them (R126, R131). -/
theorem Part.scanFan_own (n : Fin 4) (p : Part) : (p.scanFan n).fans[n] =
    ((if p.startComplete n = true then p.fans[n].cleared .running else p.fans[n]).seeFlow p.now p.field.image.flow[n]).seeFeedback
      p.now (p.fanFeedback n) p.imageHeld := by
  unfold Part.scanFan
  cases p.startComplete n with
  | false => exact set_self ..
  | true =>
    have frame := p.fanTo_frame n .running
    have own := p.fanTo_fan n .running
    have image : (p.fanTo n .running).field.image = p.field.image := frame.same .image (by simp)
    have scanning : (p.fanTo n .running).field.scanning = p.field.scanning := frame.same .scan (by simp)
    have state : (p.fanTo n .running).field.state = p.field.state := by
      have s := congrArg Field.state scanning
      exact s
    rw [if_pos rfl, if_pos rfl, ← own]
    have now := frame.now_eq
    generalize p.fanTo n .running = q at *
    refine (set_self ..).trans ?_
    rw [now, image, Part.fanFeedback, image, Part.imageHeld, state]
    rfl

/-- What a scan makes of a fan that is RUNNING, and of any other (R126, R131). -/
theorem Fan.seen_shows (now : Time) (flow : Channel Nat) (present held : Bool) (x : Fan) :
    let y := (x.seeFlow now flow).seeFeedback now present held
    y.state = x.state ∧
    (x.state = .running →
      (flow.valid = true → y.lastGood = some flow.value ∧ y.heldFlow = none ∧ y.holdUntil = none) ∧
      (flow.valid = false → y.lastGood = x.lastGood ∧
        (∀ g, x.heldFlow = none → x.lastGood = some g → x.holdSpent = false →
          y.heldFlow = some g ∧ y.holdUntil = some (later now 30000)) ∧
        (x.heldFlow ≠ none ∨ x.lastGood = none ∨ x.holdSpent = true →
          y.heldFlow = x.heldFlow ∧ y.holdUntil = x.holdUntil)) ∧
      (present = true → y.fbLoss = none) ∧
      (present = false → held = true → y.fbLoss = x.fbLoss) ∧
      (present = false → held = false → y.fbLoss = x.fbLoss.or (some now))) := by
  have flows : (x.seeFlow now flow).state = x.state ∧ (x.seeFlow now flow).fbLoss = x.fbLoss := by
    unfold Fan.seeFlow
    repeat' split
    all_goals exact ⟨rfl, rfl⟩
  obtain ⟨state, loss⟩ := flows
  refine ⟨state, fun running => ?_⟩
  have timer : ((x.seeFlow now flow).seeFeedback now present held).fbLoss = lossTimer now true present held x.fbLoss := by
    change lossTimer now ((x.seeFlow now flow).state == .running) present held (x.seeFlow now flow).fbLoss = _
    rw [state, loss, running]
    rfl
  refine ⟨fun good => ?_, fun bad => ?_, fun on => ?_, fun lost holding => ?_, fun lost passing => ?_⟩
  · have seen : x.seeFlow now flow = _ := (if_pos running).trans (if_pos good)
    change (x.seeFlow now flow).lastGood = _ ∧ (x.seeFlow now flow).heldFlow = _ ∧ (x.seeFlow now flow).holdUntil = _
    rw [seen]
    exact ⟨rfl, rfl, rfl⟩
  · have seen : x.seeFlow now flow = if x.heldFlow.isNone && x.lastGood.isSome && !x.holdSpent then
        { x with heldFlow := x.lastGood, holdUntil := some (later now holdTime) } else x :=
      (if_pos running).trans (if_neg (by rw [bad]; nofun))
    change (x.seeFlow now flow).lastGood = _ ∧ (∀ g, _ → _ → _ → (x.seeFlow now flow).heldFlow = _ ∧ (x.seeFlow now flow).holdUntil = _) ∧
      (_ → (x.seeFlow now flow).heldFlow = _ ∧ (x.seeFlow now flow).holdUntil = _)
    rw [seen]
    refine ⟨by split <;> rfl, fun g none last fresh => ?_, fun stays => ?_⟩
    · rw [if_pos (by rw [none, last, fresh]; rfl)]
      exact ⟨last, rfl⟩
    · rw [if_neg]
      · exact ⟨rfl, rfl⟩
      · simp only [Bool.and_eq_true, Option.isNone_iff_eq_none, Option.isSome_iff_ne_none, Bool.not_eq_true', not_and_or, not_not,
          Bool.not_eq_false]
        tauto
  · rw [timer, on]
    rfl
  · rw [timer, lost, holding]
    rfl
  · rw [timer, lost, passing]
    rfl

theorem Part.fanFeedback_iff : p.fanFeedback n = true ↔ p.field.image.fanRun[n] = ⟨true, true⟩ := by
  unfold Part.fanFeedback
  cases p.field.image.fanRun[n] with
  | mk v ok => cases v <;> cases ok <;> decide

theorem Part.startComplete_iff (starting : p.fans[n].state = .starting) : p.startComplete n = true ↔
    p.field.image.fanRun[n] = ⟨true, true⟩ ∧ p.field.image.flow[n].valid = true ∧ p.fans[n].cfg.minFlow ≤ p.field.image.flow[n].value := by
  unfold Part.startComplete
  simp only [Bool.and_eq_true, beq_iff_eq, decide_eq_true_eq, Part.fanFeedback_iff, starting, true_and, and_assoc]

/-- What the hand-on of a scan makes of a fan (R125, R126, R131). -/
theorem Part.handScan_fan (before : Vector (Channel Bool) 6) (n : Fin 4) (p : Part) :
    let q := p.handScan before
    let x := p.fans[n]
    let y := q.fans[n]
    let flow := p.field.image.flow[n]
    let bit := p.field.image.fanRun[n]
    (x.state = .starting →
      (bit = ⟨true, true⟩ ∧ flow.valid = true ∧ x.cfg.minFlow ≤ flow.value → y.state = .running ∧
        y.lastGood = some flow.value ∧ ¬ q.holdsFor 1 n.val ∧ Reported ⟨.fan, n.val, 4, false, p.now, 0, none⟩ q) ∧
      (¬ (bit = ⟨true, true⟩ ∧ flow.valid = true ∧ x.cfg.minFlow ≤ flow.value) → y.state = .starting)) ∧
    (x.state ≠ .starting → y.state = x.state) ∧
    (x.state = .running →
      (flow.valid = true → y.lastGood = some flow.value ∧ y.heldFlow = none ∧ y.holdUntil = none) ∧
      (flow.valid = false → y.lastGood = x.lastGood ∧
        (∀ g, x.heldFlow = none → x.lastGood = some g → x.holdSpent = false →
          y.heldFlow = some g ∧ y.holdUntil = some (later p.now 30000)) ∧
        (x.heldFlow ≠ none ∨ x.lastGood = none ∨ x.holdSpent = true →
          y.heldFlow = x.heldFlow ∧ y.holdUntil = x.holdUntil)) ∧
      (bit = ⟨true, true⟩ → y.fbLoss = none) ∧
      (bit ≠ ⟨true, true⟩ → p.field.state = .holding → y.fbLoss = x.fbLoss) ∧
      (bit ≠ ⟨true, true⟩ → p.field.state ≠ .holding → y.fbLoss = x.fbLoss.or (some p.now))) := by
  obtain ⟨u, first, rest⟩ := p.handScan_fanTurn before n
  have own := u.scanFan_own n
  have fan : u.fans[n] = p.fans[n] := first.fan
  have image : u.field.image = p.field.image := first.frame.same .image (by simp)
  have scanning : u.field.scanning = p.field.scanning := first.frame.same .scan (by simp)
  have scan : u.field.state = p.field.state := by
    have s := congrArg Field.state scanning
    exact s
  have feedback : u.fanFeedback n = p.fanFeedback n := by rw [Part.fanFeedback, image, Part.fanFeedback]
  have held : u.imageHeld = p.imageHeld := by rw [Part.imageHeld, scan, Part.imageHeld]
  have complete : u.startComplete n = p.startComplete n := by
    unfold Part.startComplete
    rw [fan, image, feedback]
  rw [fan, complete, feedback, held, image, first.frame.now_eq] at own
  have same := rest.fan.trans own
  have starts (done : p.startComplete n = true) : ¬ (p.handScan before).holdsFor 1 n.val ∧
      Reported ⟨.fan, n.val, 4, false, p.now, 0, none⟩ (p.handScan before) := by
    have begun : u.scanFan n = (u.fanTo n .running).updFan n fun x => (x.seeFlow (u.fanTo n .running).now
        (u.fanTo n .running).field.image.flow[n]).seeFeedback (u.fanTo n .running).now ((u.fanTo n .running).fanFeedback n)
        (u.fanTo n .running).imageHeld := by
      unfold Part.scanFan
      rw [complete, done]
      rfl
    have free := Part.fanTo_holdsNot (n := n) (s := .running) (by rintro (e | e) <;> cases e) u
    have reported := u.fanTo_reported n .running
    rw [first.frame.now_eq] at reported
    generalize u.fanTo n .running = v at *
    have frame := v.updFan_frame n fun x => (x.seeFlow v.now v.field.image.flow[n]).seeFeedback v.now (v.fanFeedback n) v.imageHeld
    rw [← begun] at frame
    exact ⟨rest.quits.holdsNot (mt (frame.holdsFor 1 n.val).1 free), rest.frame.reported (frame.reported reported)⟩
  generalize p.handScan before = q at *
  dsimp only
  refine ⟨fun starting => ⟨fun ready => ?_, fun not => ?_⟩, fun other => ?_, fun running => ?_⟩
  · have done := (Part.startComplete_iff starting).2 ready
    rw [if_pos done] at same
    obtain ⟨state, flows⟩ := Fan.seen_shows p.now p.field.image.flow[n] (p.fanFeedback n) p.imageHeld (p.fans[n].cleared .running)
    obtain ⟨good, -⟩ := flows rfl
    rw [← same] at state good
    obtain ⟨free, reported⟩ := starts done
    exact ⟨state, (good ready.2.1).1, free, reported⟩
  · rw [if_neg (mt (Part.startComplete_iff starting).1 not)] at same
    rw [same, (Fan.seen_shows ..).1, starting]
  · have idle : ¬ p.startComplete n = true := fun done => by
      unfold Part.startComplete at done
      simp only [Bool.and_eq_true, beq_iff_eq] at done
      exact other done.1.1.1
    rw [if_neg idle] at same
    rw [same, (Fan.seen_shows ..).1]
  · have idle : ¬ p.startComplete n = true := fun done => by
      unfold Part.startComplete at done
      simp only [Bool.and_eq_true, beq_iff_eq] at done
      exact absurd (running.symm.trans done.1.1.1) nofun
    rw [if_neg idle] at same
    obtain ⟨-, flows⟩ := Fan.seen_shows p.now p.field.image.flow[n] (p.fanFeedback n) p.imageHeld p.fans[n]
    obtain ⟨good, bad, on, holding, passing⟩ := flows running
    rw [← same] at good bad on holding passing
    have lost (off : p.field.image.fanRun[n] ≠ ⟨true, true⟩) : p.fanFeedback n = false :=
      Bool.eq_false_iff.2 (mt Part.fanFeedback_iff.1 off)
    exact ⟨good, bad, fun bit => on (Part.fanFeedback_iff.2 bit), fun off h => holding (lost off) (beq_iff_eq.2 h),
      fun off h => passing (lost off) (beq_eq_false_iff_ne.2 h)⟩

end

end Sys2Proof.Machine
end

section
/-! OBLIGATION O54. Field scans: the blocks, the table of the scan state, and the image handed on (R175 to R180). -/

namespace Sys2Proof.Machine

-- One proof at a time: the whole package as one text must not start a thread for each of them.
set_option Elab.async false

open Sys2Proof.Config

section
variable {p q : Part}

theorem ChangesOnly.field_eq {T : Set Block} (h : ChangesOnly T p q) (hT : Block.image ∉ T ∧ Block.scan ∉ T := by simp) :
    q.field.image = p.field.image ∧ q.field.state = p.field.state := by
  have scanning : q.field.scanning = p.field.scanning := h.same .scan hT.2
  have state := congrArg Field.state scanning
  exact ⟨h.same .image hT.1, state⟩

/-! ## The grate, the external conditions, FIELD SCAN FAIL -/

/-- The hand-on up to the fans. -/
def Part.handFirst (before : Vector (Channel Bool) 6) (p : Part) : Part :=
  ((((p.settlePoint 0).forAll feederIds (Part.scanFeeder before)).forAll burnerIds Part.scanFlame).forAll burnerIds
    Part.scanPermit).forAll fanIds Part.scanFan

theorem Part.handScan_last (before : Vector (Channel Bool) 6) (p : Part) : p.handScan before = (p.handFirst before).handLast := rfl

/-- The blocks of fans, and those of an event's end. -/
def fanScanBlocks : Set Block := Set.range .fan ∪ {.fanOut} ∪ leaveBlocks 1 ∪ settleAllBlocks

@[simp] theorem mem_fanScanBlocks {x : Block} : x ∈ fanScanBlocks ↔
    ((x ∈ Set.range Block.fan ∨ x = .fanOut) ∨ x ∈ leaveBlocks 1) ∨ x ∈ settleAllBlocks := Iff.rfl

theorem burnerBlocks_fanScan (b : Fin 2) : burnerBlocks b ⊆ fanScanBlocks :=
  ((Part.oneBurner b).trans Part.burnersIn).trans (Set.subset_union_left.trans Set.subset_union_right)

theorem Part.handFirst_frame (before : Vector (Channel Bool) 6) (p : Part) : ChangesOnly fanScanBlocks p (p.handFirst before) := by
  have point : ChangesOnly fanScanBlocks p (p.settlePoint 0) :=
    (p.settlePoint_frame 0 false).1.mono (Set.subset_union_left.trans Set.subset_union_right)
  have feeders := ChangesOnly.forAll (T := fanScanBlocks) (f := Part.scanFeeder before)
    (fun f q => (q.scanFeeder_frame before f).mono Set.subset_union_right) feederIds (p.settlePoint 0)
  have flames (q : Part) := ChangesOnly.forAll (T := fanScanBlocks) (f := Part.scanFlame)
    (fun b q => (q.scanFlame_frame b).mono ((Set.singleton_subset_iff.2 (.inl (.inl (.inl (.inl rfl))))).trans (burnerBlocks_fanScan b)))
    burnerIds q
  have permits (q : Part) := ChangesOnly.forAll (T := fanScanBlocks) (f := Part.scanPermit)
    (fun b q => (q.scanPermit_frame b).mono (burnerBlocks_fanScan b)) burnerIds q
  have fans (q : Part) := ChangesOnly.forAll (T := fanScanBlocks) (f := Part.scanFan)
    (fun n q => (q.scanFan_frame n).mono (by
      rintro x ((rfl | rfl) | hx)
      · exact .inl (.inl (.inl ⟨n, rfl⟩))
      · exact .inl (.inl (.inr rfl))
      · exact .inl (.inr hx))) fanIds q
  exact (((point.trans feeders).trans (flames _)).trans (permits _)).trans (fans _)

theorem Part.scanExternals_ext (n : Fin 16) (p : Part) :
    (p.forAll (List.finRange 16) Part.scanExternal).alarms.ext[n] =
      if p.alarms.ext[n].source = .field ∧ p.field.image.discrete[n].valid = true then
        { p.alarms.ext[n] with cond := p.field.image.discrete[n].value } else p.alarms.ext[n] := by
  have own (q : Part) : (q.scanExternal n).alarms.ext[n] =
      if q.alarms.ext[n].source = .field ∧ q.field.image.discrete[n].valid = true then
        { q.alarms.ext[n] with cond := q.field.image.discrete[n].value } else q.alarms.ext[n] := set_self ..
  obtain ⟨q, before, same, found, -⟩ := Part.forAll_at (V := fun q : Part => q.alarms.ext[n]) (a := n)
    (R := fun p q : Part => q.field = p.field) (f := Part.scanExternal) (fun _ => rfl) (fun h g => Eq.trans g h) (fun _ _ => rfl)
    (fun m q ne => set_other _ _ _ _ (Ne.symm ne)) (List.nodup_finRange 16) (List.mem_finRange n) p
  have same : q.alarms.ext[n] = p.alarms.ext[n] := same
  refine found.trans ?_
  rw [own, same, before]

theorem lossTimer_running (now : Time) (present held : Bool) (t : Option Time) : lossTimer now true present held t =
    if present then none else if held then t else t.or (some now) := by
  cases present <;> cases held <;> rfl

theorem Part.grateFeedback_iff : p.grateFeedback = true ↔ p.field.image.grateRun = ⟨true, true⟩ := by
  unfold Part.grateFeedback
  cases p.field.image.grateRun with
  | mk v ok => cases v <;> cases ok <;> decide

/-- The timers of the grate as a scan leaves them (R133, R135). -/
theorem Part.handScan_grate (before : Vector (Channel Bool) 6) (p : Part) :
    let q := p.handScan before
    q.grate.state = p.grate.state ∧
    (p.grate.state = .running →
      (p.field.image.grateRun = ⟨true, true⟩ → q.grate.fbLoss = none) ∧
      (p.field.image.grateRun ≠ ⟨true, true⟩ → p.field.state = .holding → q.grate.fbLoss = p.grate.fbLoss) ∧
      (p.field.image.grateRun ≠ ⟨true, true⟩ → p.field.state ≠ .holding → q.grate.fbLoss = p.grate.fbLoss.or (some p.now))) ∧
    q.grate.bedHigh =
      if p.grate.cfg.used = true ∧ p.field.image.bed.valid = true ∧ p.grate.cfg.highLimit < p.field.image.bed.value then
        p.grate.bedHigh.or (some ⟨p.now, false⟩)
      else none := by
  have first := p.handFirst_frame before
  rw [Part.handScan_last]
  generalize p.handFirst before = u at first
  have ext := ChangesOnly.forAll (T := {.ext}) (fun n q => Part.scanExternal_frame n q) (List.finRange 16) u.scanGrate
  have settled := (u.scanGrate.forAll (List.finRange 16) Part.scanExternal).settleAll_frame
  have last : u.handLast.grate = u.scanGrate.grate := settled.grate_eq.trans ext.grate_eq
  obtain ⟨image, state⟩ := first.field_eq
  have held : u.imageHeld = p.imageHeld := by rw [Part.imageHeld, state, Part.imageHeld]
  have feedback : u.grateFeedback = p.grateFeedback := by rw [Part.grateFeedback, image, Part.grateFeedback]
  have above : u.bedAbove = p.bedAbove := by rw [Part.bedAbove, image, first.grate_eq, Part.bedAbove]
  have own : u.scanGrate.grate = { u.grate with
      fbLoss := lossTimer u.now (u.grate.state == .running) u.grateFeedback u.imageHeld u.grate.fbLoss
      bedHigh := if u.bedAbove then u.grate.bedHigh.or (some ⟨u.now, false⟩) else none } := rfl
  rw [first.grate_eq, held, feedback, above, first.now_eq] at own
  have grate := last.trans own
  generalize u.handLast = q at grate
  dsimp only
  rw [grate]
  refine ⟨rfl, fun running => ?_, ?_⟩
  · have lost (off : p.field.image.grateRun ≠ ⟨true, true⟩) : p.grateFeedback = false :=
      Bool.eq_false_iff.2 (mt Part.grateFeedback_iff.1 off)
    dsimp only
    rw [running, beq_self_eq_true, lossTimer_running]
    refine ⟨fun on => ?_, fun off holding => ?_, fun off passing => ?_⟩
    · rw [Part.grateFeedback_iff.2 on, if_pos rfl]
    · rw [lost off, show p.imageHeld = true from beq_iff_eq.2 holding]
      rfl
    · rw [lost off, show p.imageHeld = false from beq_eq_false_iff_ne.2 passing]
      rfl
  · refine if_congr ?_ rfl rfl
    simp only [Part.bedAbove, Bool.and_eq_true, decide_eq_true_eq, and_assoc]

theorem Part.handScan_ext (before : Vector (Channel Bool) 6) (n : Fin 16) (p : Part) :
    (p.handScan before).alarms.ext[n] = { p.alarms.ext[n] with
      cond := if p.alarms.ext[n].source = .field ∧ p.field.image.discrete[n].valid = true then p.field.image.discrete[n].value
        else p.alarms.ext[n].cond } := by
  have first := p.handFirst_frame before
  rw [Part.handScan_last]
  generalize p.handFirst before = u at first
  have found := u.scanGrate.scanExternals_ext n
  have settled := (u.scanGrate.forAll (List.finRange 16) Part.scanExternal).settleAll_frame
  have last := settled.ext_eq
  rw [show (u.scanGrate.forAll (List.finRange 16) Part.scanExternal).settleAll = u.handLast from rfl] at last
  have image : u.scanGrate.field.image = p.field.image := first.field_eq.1
  have ext : u.scanGrate.alarms.ext = p.alarms.ext := first.ext_eq
  rw [last, found, image, ext]
  split <;> rfl

/-- FIELD SCAN FAIL follows the scan state (R140, R179). -/
theorem Part.handScan_fails (before : Vector (Channel Bool) 6) (p : Part) :
    (p.handScan before).alarms.points[(0 : Fin 62)].eff = (p.started && p.field.state == .failed) := by
  have condition (q : Part) : q.condition 0 = (q.field.state == .failed && q.started) := rfl
  have first := p.handFirst_frame before
  rw [Part.handScan_last]
  generalize p.handFirst before = u at first
  have grate : ChangesOnly {.grate, .ext} u u.scanGrate := (Part.updGrate_frame _ _).mono
  have ext := ChangesOnly.forAll (T := {.grate, .ext}) (fun n q => (Part.scanExternal_frame n q).mono) (List.finRange 16) u.scanGrate
  have same := grate.trans ext
  have found := Part.settleAll_follows (p := u.scanGrate.forAll (List.finRange 16) Part.scanExternal) (i := 0) (by decide)
    fun q settles => by
      rw [condition, condition, settles.frame.field_eq.2, settles.frame.started_eq]
  have last : u.handLast = (u.scanGrate.forAll (List.finRange 16) Part.scanExternal).settleAll := rfl
  rw [last, found, condition, same.field_eq.2, first.field_eq.2, same.started_eq, first.started_eq]
  cases p.started <;> cases p.field.state <;> rfl

end

/-! ## The completion of a scan -/

/-- The part with the scan state moved and nothing handed on yet; a completion with no scan in flight begins its own (log 16). -/
def Part.scanned (fdi : List Bool) (p : Part) : Part :=
  let q := if p.field.inFlight then p else p.startScan p.now
  { q with field := q.field.completed q.now (fieldBytes fdi) }

section
variable (p : Part) (fdi : List Bool)

theorem Part.completeScan_eq : (if p.field.inFlight then p else p.startScan p.now).completeScan (fieldBytes fdi) =
    (p.scanned fdi).handScan p.field.image.inLocal := by
  unfold Part.scanned
  cases p.field.inFlight <;> rfl

theorem takes_fieldScanComplete : Takes (.fieldScanComplete fdi) p ((p.scanned fdi).handScan p.field.image.inLocal) :=
  takes_row rfl (p.completeScan_eq fdi)

/-- Until its image is handed on, a scan leaves everything outside the Field Scanner. -/
theorem Part.scanned_same : (p.scanned fdi).now = p.now ∧ (p.scanned fdi).started = p.started ∧
    (p.scanned fdi).feeders = p.feeders ∧ (p.scanned fdi).burners = p.burners ∧ (p.scanned fdi).fans = p.fans ∧
    (p.scanned fdi).grate = p.grate ∧ (p.scanned fdi).alarms = p.alarms := by
  unfold Part.scanned
  cases p.field.inFlight <;> exact ⟨rfl, rfl, rfl, rfl, rfl, rfl, rfl⟩

/-- What stands in the Field Scanner after the hand-on is what the scan left there (R179). -/
theorem Part.handScan_field (before : Vector (Channel Bool) 6) : let g := (p.handScan before).field
    g.image = p.field.image ∧ g.state = p.field.state ∧ g.inFlight = p.field.inFlight ∧ g.scans = p.field.scans ∧
      g.crcErrors = p.field.crcErrors ∧ g.notReady = p.field.notReady ∧ g.failures = p.field.failures ∧
      g.lastGood = p.field.lastGood ∧ g.badRun = p.field.badRun ∧ g.goodRun = p.field.goodRun := by
  have frame := p.handScan_frame before
  have image : (p.handScan before).field.image = p.field.image := frame.same .image (by simp)
  have same : (p.handScan before).field.scanning = p.field.scanning := frame.same .scan (by simp)
  generalize (p.handScan before).field = g at *
  have state := congrArg Field.state same
  have inFlight := congrArg Field.inFlight same
  have scans := congrArg Field.scans same
  have crcErrors := congrArg Field.crcErrors same
  have notReady := congrArg Field.notReady same
  have failures := congrArg Field.failures same
  have lastGood := congrArg Field.lastGood same
  have badRun := congrArg Field.badRun same
  have goodRun := congrArg Field.goodRun same
  exact ⟨image, state, inFlight, scans, crcErrors, notReady, failures, lastGood, badRun, goodRun⟩

/-- The table of R179, from the part a scan finds to the part it leaves. -/
theorem Part.scanned_field : let f := p.field
    let g := (p.scanned fdi).field
    let l := fieldBytes fdi
    let sound := crc (l.take 37) = BitVec.ofNat 16 (wordAt l 37)
    let ready := (l.getD 0 0).getLsbD 0 = true
    g.inFlight = false ∧ g.scans = f.scans + 1 ∧
      g.crcErrors = (if sound then f.crcErrors else f.crcErrors + 1) ∧
      g.notReady = (if sound ∧ ¬ ready then f.notReady + 1 else f.notReady) ∧
      (sound ∧ ready → g.lastGood = some p.now ∧
        (f.state = .good → g.state = .good ∧ g.image = .ofBlock l) ∧
        (f.state = .holding → g.state = .good ∧ g.image = .ofBlock l ∧ g.badRun = 0) ∧
        (f.state = .failed → f.goodRun < 2 → g.state = .failed ∧ g.image = f.image.spoil ∧ g.goodRun = f.goodRun + 1) ∧
        (f.state = .failed → f.goodRun = 2 → g.state = .good ∧ g.image = .ofBlock l ∧ g.badRun = 0 ∧ g.goodRun = 0)) ∧
      (¬ (sound ∧ ready) → g.lastGood = f.lastGood ∧
        (f.state = .good → g.state = .holding ∧ g.image = f.image ∧ g.badRun = 1) ∧
        (f.state = .holding → f.badRun < 3 → g.state = .holding ∧ g.image = f.image ∧ g.badRun = f.badRun + 1) ∧
        (f.state = .holding → f.badRun = 3 → g.state = .failed ∧ g.image = f.image.spoil ∧ g.badRun = 4 ∧ g.goodRun = 0 ∧
          g.failures = f.failures + 1) ∧
        (f.state = .failed → g.state = .failed ∧ g.image = f.image.spoil ∧ g.goodRun = 0)) := by
  unfold Part.scanned
  cases p.field.inFlight with
  | true => exact p.field.completed_shows p.now (fieldBytes fdi)
  | false => exact (p.startScan p.now).field.completed_shows p.now (fieldBytes fdi)

end

/-- Settles O54: the table by `Field.completed_shows`, the hand-on by the turn of each feeder, burner and fan in it
(`Part.handScan_at`, `Part.handScan_turns`, `Part.handScan_fanTurn`). -/
theorem scanStateTable : Obligations.ScanStateTable := by
  unfold Obligations.ScanStateTable
  refine ⟨fun p => ⟨takesAt_row (f := Part.startScan p.field.nextScan) rfl rfl fun _ => ?_, fun fdi size => ?_⟩, fun p fdi => ?_⟩
  · obtain ⟨length, check, image⟩ := p.outputBlock_shows
    exact ⟨rfl, rfl, rfl, length, check, image, (p.startScan p.field.nextScan).field.fdoBits_shows length, rfl, rfl⟩
  · have table := p.scanned_field fdi
    have left := (p.scanned fdi).handScan_field p.field.image.inLocal
    refine ⟨fieldBytes_block size, _, takes_fieldScanComplete p fdi, ?_⟩
    generalize (p.scanned fdi).handScan p.field.image.inLocal = q at *
    obtain ⟨image, state, inFlight, scans, crcErrors, notReady, failures, lastGood, badRun, goodRun⟩ := left
    rw [image, state, inFlight, scans, crcErrors, notReady, failures, lastGood, badRun, goodRun]
    exact table
  · refine ⟨_, takes_fieldScanComplete p fdi, ?_⟩
    have left := (p.scanned fdi).handScan_field p.field.image.inLocal
    obtain ⟨now, started, feeders, burners, fans, grate, alarms⟩ := p.scanned_same fdi
    have fails := (p.scanned fdi).handScan_fails p.field.image.inLocal
    have feeder (f : Fin 6) := Part.handScan_feeder (p := p.scanned fdi) (f := f) p.field.image.inLocal
    have burner (b : Fin 2) := Part.handScan_burner (p := p.scanned fdi) (b := b) p.field.image.inLocal
    have fan (n : Fin 4) := (p.scanned fdi).handScan_fan p.field.image.inLocal n
    have grates := (p.scanned fdi).handScan_grate p.field.image.inLocal
    have ext (n : Fin 16) := (p.scanned fdi).handScan_ext p.field.image.inLocal n
    have wanted (f : Fin 6) : (p.scanned fdi).wanted f = p.wanted f := by
      unfold Part.wanted
      simp only [feeders, burners]
    generalize (p.scanned fdi).handScan p.field.image.inLocal = q at *
    generalize p.scanned fdi = r at *
    obtain ⟨image, state, -⟩ := left
    simp only [started, feeders, burners, fans, grate, alarms, now, wanted, ← image, ← state] at fails feeder burner fan grates ext
    exact ⟨fails, fun f up used => feeder f up used, fun b used => burner b used, fan, grates, ext⟩

end Sys2Proof.Machine
end
